-- ==== Sys2Proof/Word.lean ====
section
/-! DEFINITION. The word types of the device: 64-bit register and payload words, 32-bit half words and bytes
(00_scope.md R9). -/

namespace Sys2Proof

/-- A 64-bit word: a register (R9), a payload word of a command or reply, a hallway data word. -/
abbrev Word := BitVec 64

/-- A 32-bit half of a register, a counter of a ring (R479). -/
abbrev Half := BitVec 32

/-- A byte of a container, of memory or of a stream. -/
abbrev Byte := BitVec 8

end Sys2Proof
end

