-- ==== Sys2Proof/Syntax.lean ====
section
/-! DEFINITION. The commands the block takes: one constructor of `Instr` for each row of the table of operations and
events.  Every constructor begins with `dt`, the femtoseconds that pass between the previous command and this one; an
event row's further operands say which unit it happens to and what the surroundings supply (the words a host read
returns, a measured value, whether a check passed), a command row's are its header and payload words. -/

namespace Sys2Proof

/-- The path a command packet came by: the command ring (R482), the BAR0 mailbox (R491) or the service port (R628). -/
inductive Path where
  | ring | mailbox | service
  deriving DecidableEq, Repr

/-- What a command carries beside its payload (R482, R484): its path, SEQ, EPOCH, whether FENCE is set, and the reply
buffer that RDESC names (host address and capacity in words). -/
structure CmdHdr where
  path : Path
  seq : Nat
  epoch : Nat
  fence : Bool
  rbuf : Option (Nat × Nat)
  deriving DecidableEq, Repr

/-- What a read of host memory returns: its words, or a failed read. -/
inductive HostRead where
  | words (ws : List Word)
  | failed
  deriving DecidableEq, Repr

/-- One end of a channel (R61-R64): a wing's port, numbered `64 * tower + wing`, or a channel of a porch (0 PN, 1 PS). -/
inductive ChanEnd where
  | wing (wing port : Nat)
  | porch (porch chan : Nat)
  deriving DecidableEq, Repr

/-- How a refill burst ends in a room (R121): acknowledged, failing its CRC-16 (R35), or read from a frame that fails
its golden signature (R123). -/
inductive BurstEnd where
  | ack | crcFail | sigFail
  deriving DecidableEq, Repr

/-- How the link behaves for a GDDR6 access (R322): clean after up to three reissues; clean on the try after the three and a
retraining; failing on that try too, the retraining having succeeded or not. -/
inductive LinkEnd where
  | clean (reissues : Nat)
  | recovered
  | linkError (retrained : Bool)
  deriving DecidableEq, Repr

/-- A crossing between the layers of a tower, wings numbered `64 * tower + wing`: a room's floor-cellar bond group (R22), a
room's floor-attic TSVs (R24), a wing's memory bundle (R25), a wing's channel bundle (R172). -/
inductive Crossing where
  | bonds (wing room : Nat)
  | tsvs (wing room : Nat)
  | memory (wing : Nat)
  | channel (wing : Nat)
  deriving DecidableEq, Repr

/-- What the tests of R38 measure in a tower: the passing windows of delay groups that do not pass at every tap (crossing,
group of 64, first and last passing tap, over supply and temperature, R32, R33); the bonds and TSVs that fail the bond test;
attic blocks that fail (wing, block) and wings whose outer checker fails (R240, R241); for wings, the delay of the reference
path in fs and the trim code that R67 asks for, none where the trim range does not reach it; the corridor groups whose
wires fail the test of R268 (direction, group, the half that fails if one half alone does, `true` the high one); how long it took, in ms. -/
structure TowerTest where
  windows : List (Crossing × Nat × Nat × Nat)
  badBonds : List (Crossing × Nat)
  badBlocks : List (Nat × Nat)
  badCheckers : List Nat
  su : List (Nat × Nat × Option Nat)
  badWires : List (Nat × Nat × Option Bool)
  ms : Nat
  deriving DecidableEq, Repr

/-- A boundary-scan instruction (R670). -/
inductive TapInstr where
  | bypass | idcode | sample | extest | extestPulse | extestTrain | intest | clamp | highz
  deriving DecidableEq, Repr

/-- Why a lane group goes down, with the code of `LANE.STAT.CAUSE` (R414). -/
inductive DownCause where
  | los | lol | blockLock | skew | rate | reflossSys
  deriving DecidableEq, Repr

/-- A block that a lane of a group receives outside every frame (R376, R385): the lane's index in its group, the 2-bit sync
header, the 64-bit field. -/
structure LaneBlock where
  lane : Nat
  header : Nat
  field : Word
  deriving DecidableEq, Repr

/-- A Reel link frame as it arrives (R386, R388): the 56 fields of its START block, its frame word and payload, the CRC-32 of its
END block, and the other blocks that arrived since the previous frame. -/
structure LaneFrame where
  start : Nat
  word : Word
  payload : List Word
  crc : Nat
  others : List LaneBlock
  deriving DecidableEq, Repr

/-- What ends a received frame (R388): the CRC-32 of its END block, and the other blocks that arrived since the previous frame. -/
structure FrameEnd where
  crc : Nat
  others : List LaneBlock
  deriving DecidableEq, Repr

/-- The data blocks of a received frame (R386): its frame word and its payload words. -/
structure FrameData where
  word : Word
  payload : List Word
  deriving DecidableEq, Repr

/-- What a router finds as it handles a packet (R276, R282): the output, the class (`response`), and the bits of the header flit that
arrived inverted. -/
structure RouterTurn where
  output : Nat
  response : Bool
  inverted : List Nat
  deriving DecidableEq, Repr

/-- What a GDDR6 controller finds as it serves a request (R323, R358): the bit positions of stored words, and of their codes, that have
changed in the devices before, and whether the root of the channel cannot be read. -/
structure LineFind where
  changed : List (Nat × List Nat)
  rootBad : Bool
  deriving DecidableEq, Repr

/-- How a lane shows its loss (R384): the cause, after the blocks that it received outside every frame. -/
structure LaneLoss where
  cause : DownCause
  others : List LaneBlock
  deriving DecidableEq, Repr

/-- The unit of a reset that completes (R594), and the corridor groups whose wires fail the test of R268 as it returns: direction,
group, the half that fails if one half alone does (`true` the high one). -/
structure ResetUnit where
  unit : Nat
  badWires : List (Nat × Nat × Option Bool)
  deriving DecidableEq, Repr

/-- A wake source of R566 that reaches the device as a PCIe message or memory request. -/
inductive PcieWake where
  | memoryRequest | message
  deriving DecidableEq, Repr

/-- The commands of the block, in the order of the table of operations and events. -/
inductive Instr where
  | registerWrite (dt addr size : Nat) (data : Word)
  | badAccess (dt addr size : Nat) (write : Bool)
  | rcRead (dt addr size : Nat)
  | stepCtrlRun (dt : Nat)
  | stepCtrlHalt (dt : Nat) (alsoRun : Bool)
  | stepSingleNstep (dt n : Nat)
  | timeNownsRead (dt : Nat)
  | capturePop (dt input : Nat)
  | qctrlEnable (dt : Nat) (on : Bool)
  | qreset (dt : Nat)
  | cmdtailWrite (dt value : Nat)
  | rplheadWrite (dt value : Nat)
  | evtheadWrite (dt value : Nat)
  | mboxGo (dt : Nat) (desc : HostRead)
  | commandFetch (dt : Nat) (packet : HostRead) (desc : HostRead)
  | packetTailTimeout (dt : Nat)
  | commandStart (dt : Nat)
  | replyWrite (dt : Nat) (hostTakes : Bool)
  | irqModerationExpiry (dt vector : Nat)
  | limitedEventWindowEnd (dt code key : Nat)
  | bar2Access (dt offset : Nat) (write : Bool) (words firstbe lastbe : Nat) (data : List Word)
  | multicastWrite (dt group offset : Nat) (data : List Byte)
  | cfgDataWrite (dt offset : Nat) (data : List Byte)
  | perstNAssert (dt : Nat)
  | perstNRelease (dt : Nat)
  | d3hotEntry (dt : Nat) (clearsBme : Bool)
  | identify (dt : Nat) (hdr : CmdHdr) (ws : List Word)
  | status (dt : Nat) (hdr : CmdHdr) (ws : List Word)
  | reset (dt : Nat) (hdr : CmdHdr) (ws : List Word)
  | echo (dt : Nat) (hdr : CmdHdr) (ws : List Word)
  | ownerLock (dt : Nat) (hdr : CmdHdr) (ws : List Word)
  | ownerUnlock (dt : Nat) (hdr : CmdHdr) (ws : List Word)
  | limits (dt : Nat) (hdr : CmdHdr) (ws : List Word)
  | stepConfigure (dt : Nat) (hdr : CmdHdr) (ws : List Word)
  | cardLoad (dt : Nat) (hdr : CmdHdr) (ws : List Word)
  | stepRun (dt : Nat) (hdr : CmdHdr) (ws : List Word)
  | stepHalt (dt : Nat) (hdr : CmdHdr) (ws : List Word)
  | stepSingle (dt : Nat) (hdr : CmdHdr) (ws : List Word)
  | stepStatus (dt : Nat) (hdr : CmdHdr) (ws : List Word)
  | stateSave (dt : Nat) (hdr : CmdHdr) (ws : List Word)
  | stateSaveComplete (dt : Nat)
  | stateRestore (dt : Nat) (hdr : CmdHdr) (ws : List Word)
  | ctxStage (dt : Nat) (hdr : CmdHdr) (ws : List Word)
  | ctxStageComplete (dt : Nat)
  | ctxMode (dt : Nat) (hdr : CmdHdr) (ws : List Word)
  | ctxSelect (dt : Nat) (hdr : CmdHdr) (ws : List Word)
  | scrub (dt : Nat) (hdr : CmdHdr) (ws : List Word)
  | scrubComplete (dt tower : Nat)
  | atcErrlog (dt : Nat) (hdr : CmdHdr) (ws : List Word)
  | atcFill (dt : Nat) (hdr : CmdHdr) (ws : List Word)
  | atcFillComplete (dt tower : Nat)
  | blockRemap (dt : Nat) (hdr : CmdHdr) (ws : List Word)
  | nocStats (dt : Nat) (hdr : CmdHdr) (ws : List Word)
  | nocQuota (dt : Nat) (hdr : CmdHdr) (ws : List Word)
  | nocQuotaApply (dt : Nat)
  | nocQuotaTimeout (dt : Nat)
  | corrStatus (dt : Nat) (hdr : CmdHdr) (ws : List Word)
  | g6Init (dt : Nat) (hdr : CmdHdr) (ws : List Word)
  | g6InitComplete (dt : Nat) (failed : Nat)
  | g6Map (dt : Nat) (hdr : CmdHdr) (ws : List Word)
  | g6Errlog (dt : Nat) (hdr : CmdHdr) (ws : List Word)
  | g6Qos (dt : Nat) (hdr : CmdHdr) (ws : List Word)
  | cryptEnable (dt : Nat) (hdr : CmdHdr) (ws : List Word)
  | cryptInitComplete (dt : Nat)
  | cryptStatus (dt : Nat) (hdr : CmdHdr) (ws : List Word)
  | laneSetup (dt : Nat) (hdr : CmdHdr) (ws : List Word)
  | laneLoop (dt : Nat) (hdr : CmdHdr) (ws : List Word)
  | loopDurationEnd (dt lane bits errors : Nat)
  | laneStatus (dt : Nat) (hdr : CmdHdr) (ws : List Word)
  | laneSleep (dt : Nat) (hdr : CmdHdr) (ws : List Word)
  | timeDomainSetup (dt : Nat) (hdr : CmdHdr) (ws : List Word)
  | timeSelect (dt : Nat) (hdr : CmdHdr) (ws : List Word)
  | cueSet (dt : Nat) (hdr : CmdHdr) (ws : List Word)
  | reelJoin (dt : Nat) (hdr : CmdHdr) (ws : List Word)
  | cfgBegin (dt : Nat) (hdr : CmdHdr) (ws : List Word)
  | cfgEnd (dt : Nat) (hdr : CmdHdr) (ws : List Word)
  | cfgStreamTimeout (dt : Nat)
  | cfgAbort (dt : Nat) (hdr : CmdHdr) (ws : List Word)
  | cfgWing (dt : Nat) (hdr : CmdHdr) (ws : List Word)
  | cfgWingVerified (dt job : Nat)
  | sigStatus (dt : Nat) (hdr : CmdHdr) (ws : List Word)
  | mirrorCopyComplete (dt : Nat)
  | clkSetup (dt : Nat) (hdr : CmdHdr) (ws : List Word)
  | clkSwitch (dt : Nat) (hdr : CmdHdr) (ws : List Word)
  | muxSwitchComplete (dt domain : Nat)
  | muxPendingTimeout (dt domain : Nat)
  | clkMeasure (dt : Nat) (hdr : CmdHdr) (ws : List Word)
  | clkMeasureGateEnd (dt clock edges : Nat)
  | pwrState (dt : Nat) (hdr : CmdHdr) (ws : List Word)
  | powerStateReached (dt : Nat)
  | budgetQuery (dt : Nat) (hdr : CmdHdr) (ws : List Word)
  | budgetRequest (dt : Nat) (hdr : CmdHdr) (ws : List Word)
  | thermalLimits (dt : Nat) (hdr : CmdHdr) (ws : List Word)
  | patrolSetup (dt : Nat) (hdr : CmdHdr) (ws : List Word)
  | fwInfo (dt : Nat) (hdr : CmdHdr) (ws : List Word)
  | fwStageBegin (dt : Nat) (hdr : CmdHdr) (ws : List Word)
  | fwStageData (dt : Nat) (hdr : CmdHdr) (ws : List Word)
  | fwStageEnd (dt : Nat) (hdr : CmdHdr) (ws : List Word)
  | fwActivateAt (dt : Nat) (hdr : CmdHdr) (ws : List Word)
  | fwCancel (dt : Nat) (hdr : CmdHdr) (ws : List Word)
  | probeRoute (dt : Nat) (hdr : CmdHdr) (ws : List Word)
  | traceSetup (dt : Nat) (hdr : CmdHdr) (ws : List Word)
  | traceRead (dt : Nat) (hdr : CmdHdr) (ws : List Word)
  | perturb (dt : Nat) (hdr : CmdHdr) (ws : List Word)
  | testUnlock (dt : Nat) (hdr : CmdHdr) (ws : List Word)
  | challengeExpiry (dt : Nat)
  | stepLaunch (dt : Nat) (pins : List (Nat × Bool))
  | pacerTick (dt : Nat)
  | wingRoundEnd (dt wing : Nat)
  | tokenArrival (dt : Nat) (dest : ChanEnd)
  | tokenAckArrival (dt wing port : Nat)
  | doneAtStepMaster (dt : Nat) (porch : Bool) (unit : Nat)
  | commitComplete (dt : Nat)
  | switchComplete (dt : Nat)
  | refillBurstDone (dt wing room : Nat) (result : BurstEnd) (badBonds badSpares : List Nat)
  | hangLimitExpiry (dt : Nat)
  | suMonitorInterval (dt : Nat) (su : List (Nat × Nat))
  | bankFifoWrite (dt bank fifo : Nat) (entry : Word)
  | bankFifoRead (dt bank fifo : Nat)
  | stewardRequest (dt tower : Nat)
  | stewardWriteAccept (dt wing : Nat)
  | maintenanceLine (dt wing : Nat)
  | outerCheckComplete (dt tower : Nat)
  | corridorTransfer (dt dir group slot : Nat) (wires : List Nat)
  | handshakeTimeout (dt dir group : Nat)
  | idlePatternBeat (dt dir group : Nat) (failsLow failsHigh failsOther : Bool)
  | remapComplete (dt dir : Nat)
  | packetAtRouter (dt router : Nat) (turn : RouterTurn)
  | responseArrival (dt initiator : Nat)
  | tagTimeout (dt tag : Nat)
  | quarantineEnd (dt tag : Nat)
  | packetExpiry (dt router : Nat)
  | drainEnd (dt tower : Nat)
  | g6Request (dt controller : Nat) (link : LinkEnd) (find : LineFind)
  | refreshDue (dt channel bank : Nat)
  | selfRefreshEntry (dt controller : Nat)
  | retrainDue (dt channel : Nat) (ok : Bool)
  | groupUp (dt first seat seenFirst seenWlog : Nat) (skews : List Nat)
  | groupGoesDown (dt lane : Nat) (loss : LaneLoss)
  | miswireRetry (dt first : Nat)
  | valueFrameReceive (dt first fseq expseq ctl : Nat) (word : Word) (payload : List Word) (crc : Nat) (others : List LaneBlock)
  | ackNackReceive (dt first start : Nat) (data : FrameData) (ending : FrameEnd)
  | holdFrameReceive (dt first fseq expseq ctl : Nat) (word : Word) (payload : List Word) (ending : FrameEnd)
  | stopFrameReceive (dt first fseq expseq ctl : Nat) (word : Word) (payload : List Word) (ending : FrameEnd)
  | syncFrameReceive (dt first fseq expseq ctl : Nat) (word : Word) (payload : List Word) (ending : FrameEnd)
  | ackTimerExpiry (dt first : Nat)
  | replayTimeout (dt first : Nat)
  | nackHoldoffEnd (dt first : Nat)
  | syncInterval (dt first : Nat)
  | wakePatternDetect (dt first : Nat)
  | wakePatternEnd (dt first : Nat)
  | ethFrameReceive (dt lane : Nat) (bytes : List Byte) (fecCorrected fecBad : Nat) (buffer : Bool) (ptp : Option Int)
  | ethLinkChange (dt lane : Nat) (up : Bool)
  | domainOffsetMeasurement (dt domain : Nat) (offsetPs : Int)
  | sourceSilenceTimeout (dt domain : Nat)
  | slewComplete (dt : Nat)
  | cueMatch (dt cue : Nat)
  | captureEdge (dt input : Nat) (rising : Bool)
  | promiseWindowClose (dt : Nat)
  | reelGuardExpiry (dt : Nat)
  | scanFrame (dt : Nat)
  | mirrorRepair (dt wing room ctx : Nat) (readOk : Bool)
  | referenceLoss (dt clock : Nat)
  | loopRelock (dt clock : Nat)
  | frequencyCountInterval (dt : Nat) (khz : List (Nat × Nat))
  | wakeNAssert (dt : Nat)
  | holdDomainIdle (dt unit : Nat)
  | patrolSample (dt : Nat) (values : List (Nat × Nat)) (alarms : Nat)
  | currentMeasurement (dt tenthsOfAmp : Nat)
  | thermalSensorRead (dt : Nat) (cellar floor attic porch : List Nat)
  | holdupNAssert (dt : Nat) (low : Bool)
  | vccioMeasure (dt bank mv : Nat)
  | tapInstruction (dt : Nat) (ins : TapInstr)
  | devRstNAssert (dt : Nat)
  | devRstNRelease (dt seat : Nat)
  | keeperBoot (dt : Nat)
  | towerStartupComplete (dt tower : Nat) (test : TowerTest)
  | towerStartupTimeout (dt tower : Nat)
  | resetComplete (dt scope : Nat) (which : ResetUnit)
  | fwRestart (dt : Nat)
  | fwFirstStart (dt : Nat) (storeCrcOk : Bool)
  | fwSelfCheckPass (dt : Nat)
  | fwConfirmDeadline (dt : Nat)
  | watchdogExpiry (dt : Nat)
  | svcWrite (dt : Nat) (packet : List Word) (desc : HostRead)
  | svcRead (dt : Nat)
  | svcStat (dt : Nat)
  | streamDataFetch (dt : Nat) (consumer : Nat) (data : HostRead)
  | d3hotExit (dt : Nat) (setsBme : Bool)
  | refclkAuxPresent (dt : Nat)
  | ptpSyncInterval (dt domain : Nat)
  | pcieWakeRequest (dt : Nat) (kind : PcieWake)
  deriving DecidableEq, Repr

end Sys2Proof
end

