-- ==== Sys2Proof/Decode.lean ====
section
/-! DEFINITION. Reading a command out of a word.  The table of operations gives no row a bit pattern: a command of this
block is an access, a packet or an event, not a word. -/

namespace Sys2Proof

/-- The command that a word of `nbits` bits spells: none, since the table gives no row any bits. -/
def decodeTableWord (_nbits _w : Nat) : Option Instr := none

end Sys2Proof
end

