-- ==== Sys2Proof/Machine/Design.lean ====
section
/-! DEFINITION. A user design as the configuration fields of 04_cells_and_routing.md, 05_mac_slices.md and
06_attic_memory.md describe it.  The bit-level layout of a plane is Tolent's and is not in the manual, so these
structures are what `Config.decodeWing` reads out of a wing's frames.  A wing is numbered `64 * tower + wing`, a cell
`64 * room + cell`. -/

namespace Sys2Proof.Machine

/-- A source on the tracks of a wing (R168): what a cell input, a port bit or a slice input may be driven by.  `carry` is
the carry input of a cell (R166), which no crossbar reads. -/
inductive Net where
  | zero
  | one
  | lutA (cell : Nat)
  | lutB (cell : Nat)
  | sum (cell : Nat)
  | qa (cell : Nat)
  | qb (cell : Nat)
  | cout (room : Nat)
  | carry (cell : Nat)
  | landing (room bit : Nat)
  | inBit (port bit : Nat)
  | srcIso (port : Nat)
  | rd (block : Nat) (portB : Bool) (bit : Nat)
  | rvalid (block : Nat) (portB : Bool)
  | rpoison (block : Nat) (portB : Bool)
  | macP (slice bit : Nat)
  | macStage (slice stage bit : Nat)
  | macSatf (slice lane : Nat)
  | macPreovf (slice lane : Nat)
  | macAccovf (slice lane : Nat)
  | macDivdone (slice : Nat)
  | poison
  | nocFree (port : Nat)
  | nocResp (port bit : Nat)
  | nocTag (port bit : Nat)
  deriving DecidableEq, Repr, Inhabited

/-- CMODE of R159. -/
inductive CMode where
  | off | arith | start
  deriving DecidableEq, Repr

/-- CINSEL of R159. -/
inductive CinSel where
  | zero | one | bx
  deriving DecidableEq, Repr

/-- LANDSEL of R159. -/
inductive LandSel where
  | none | a | b | s | qa | qb
  deriving DecidableEq, Repr

/-- DSEL of R160: `byp` is BX for FA and BY for FB, `other` is QB for FA and QA for FB. -/
inductive DSel where
  | a | b | s | byp | other
  deriving DecidableEq, Repr

/-- ENSEL of R160 and CESEL of R184. -/
inductive EnSel where
  | always | ce | ceN
  deriving DecidableEq, Repr

/-- SRMODE of R160. -/
inductive SrMode where
  | none | reset | set | init
  deriving DecidableEq, Repr

/-- The fields of a flip-flop (R160). -/
structure FfCfg where
  dsel : DSel
  ensel : EnSel
  srmode : SrMode
  domain : Nat
  init : Bool
  follow : Option Nat
  deriving DecidableEq, Repr

/-- The fields of a cell and the nets of its ten inputs (R157, R159). -/
structure CellCfg where
  split : Bool
  truth : Word
  cmode : CMode
  cinsel : CinSel
  gselBx : Bool
  srinv : Bool
  landsel : LandSel
  ins : List Net
  bx : Net
  bys : Net
  ce : Net
  sr : Net
  fa : FfCfg
  fb : FfCfg
  deriving DecidableEq, Repr

/-- MULMODE of R184. -/
inductive MulMode where
  | off | m64 | m32 | m16 | div
  deriving DecidableEq, Repr

/-- PRE of R184. -/
inductive PreMode where
  | none | add | sub
  deriving DecidableEq, Repr

/-- The accumulator operations of R190. -/
inductive AccOp where
  | loadP | add | sub | loadC
  deriving DecidableEq, Repr

/-- SATMODE of R184. -/
inductive SatMode where
  | wrap | signed | unsigned
  deriving DecidableEq, Repr

/-- The fields of a MAC slice (R184) and the nets of its input ports (R183). `accop = none` is DYNAMIC. -/
structure MacCfg where
  mulmode : MulMode
  asign : Bool
  bsign : Bool
  pre : PreMode
  ainAcas : Bool
  areg : Bool
  breg : Bool
  creg : Bool
  dreg : Bool
  mreg : Bool
  accop : Option AccOp
  addendCas : Bool
  accinit : Word
  osrcSum : Bool
  oreg : Bool
  rpos : Nat
  owidth : Nat
  satmode : SatMode
  diviter : Nat
  domain : Nat
  cesel : EnSel
  srinv : Bool
  bankDesign : Bool
  bselinit : Nat
  a : List Net
  b : List Net
  c : List Net
  d : List Net
  ce : Net
  sr : Net
  opsel : List Net
  divgo : Net
  bselin : List Net
  bse : Net
  deriving DecidableEq, Repr

/-- A design port of an attic block in use (R215, R216). -/
structure AtticPortCfg where
  block : Nat
  portB : Bool
  write : Bool
  domain : Nat
  addr : List Net
  wd : List Net
  we : Net
  deriving DecidableEq, Repr

/-- One corridor hop of a channel's route (R255, R257): direction index, group and slot as Tolent placed them. -/
structure Hop where
  dir : Nat
  group : Nat
  slot : Nat
  deriving DecidableEq, Repr

/-- The other end of a channel (R61-R64). -/
inductive Peer where
  | wing (wing port : Nat)
  | porch (porch chan : Nat)
  deriving DecidableEq, Repr

/-- An outbound channel port in use (R56, R58, R171). -/
structure OutPort where
  idx : Nat
  rank : Nat
  nets : List Net
  dest : Peer
  route : List Hop
  deriving DecidableEq, Repr

/-- An inbound channel port in use (R56, R171, R174, R177). -/
structure InPort where
  idx : Nat
  rank : Nat
  width : Nat
  src : Peer
  isoFixed : Bool
  initval : Word
  deriving DecidableEq, Repr

/-- A wing NoC port in use (R288, R289).  Tolent's port element fixes the signals; the model reads a request of R272 from
the nets below, its data words one after the other (assumption 12). -/
structure NocPortCfg where
  port : Nat
  valid : Net
  write : Net
  addr : List Net
  len : List Net
  firstbe : List Net
  lastbe : List Net
  data : List Net
  pop : Net
  deriving DecidableEq, Repr

/-- A wing as one context configures it. -/
structure WingCfg where
  n : Nat
  act : Nat
  cells : List (Nat × CellCfg)
  macs : List (Nat × MacCfg)
  attic : List AtticPortCfg
  outs : List OutPort
  inps : List InPort
  nocs : List NocPortCfg
  poisonClr : Net
  deriving DecidableEq, Repr

/-- A latch set that configures nothing. -/
def WingCfg.empty : WingCfg :=
  { n := 0, act := 0, cells := [], macs := [], attic := [], outs := [], inps := [], nocs := [], poisonClr := .zero }

/-- What a bit of a porch input channel presents (R104, R106, R107). -/
inductive InSrc where
  | pin (bank pin : Nat)
  | fifoHead (bank fifo bit : Nat)
  | fifoEmpty (bank fifo : Nat)
  | fifoInOvf (bank fifo : Nat)
  | fifoFull (bank fifo : Nat)
  | fifoOutOvf (bank fifo : Nat)
  deriving DecidableEq, Repr

/-- A porch input channel: its bits in order, where its tokens go, and the cross-seat channel it carries, if any
(R64, R104, R449). -/
structure PorchIn where
  porch : Nat
  chan : Nat
  bits : List InSrc
  dest : Peer
  route : List Hop
  cross : Option (Nat × Nat)
  deriving DecidableEq, Repr

/-- A porch output channel in use (R64, R177, R448). -/
structure PorchOut where
  porch : Nat
  chan : Nat
  src : Peer
  isoFixed : Bool
  initval : Word
  cross : Option (Nat × Nat)
  deriving DecidableEq, Repr

/-- A user output: the pin, and the flip-flop copy that is its source (R108); `enable` is the output-enable net of a
bidirectional pin (R665).  `chan` is the output channel of the bank's porch by which the wing reaches the pin (R169, R177), `bit`
and `enBit` the channel's bits that stand for the source and the enable while the wing is isolated. -/
structure PinOut where
  bank : Nat
  pin : Nat
  wing : Nat
  src : Net
  enable : Option Net
  chan : Nat
  bit : Nat
  enBit : Nat
  deriving DecidableEq, Repr

/-- The design's use of a bank FIFO (R106, R107): for an input FIFO, `strobe` pops and `clr` clears the overflow flag;
for an output FIFO, `strobe` pushes `data` and `clr` clears the flag.  `ctl` and `chan` are the output channels of the bank's porch
by which the wing reaches the FIFO (R169, R177): while the wing is isolated, bit 0 of `ctl` stands for the strobe, bit 1 for the
clear, and `chan` for the data. -/
structure FifoUse where
  bank : Nat
  fifo : Nat
  output : Bool
  wing : Nat
  strobe : Net
  data : List Net
  clr : Net
  ctl : Nat
  chan : Nat
  deriving DecidableEq, Repr

/-- A context as its configuration gives it: its wings, its I/O, its promise and its fold (R53, R56, R133, R141, R512). -/
structure CtxCfg where
  wings : List (Nat × WingCfg)
  porchIns : List PorchIn
  porchOuts : List PorchOut
  pinOuts : List PinOut
  fifos : List FifoUse
  device : Bool
  foldTag : Nat
  phase : Nat
  foldCount : Nat
  deriving DecidableEq, Repr

/-- What a wing's frames spell beside its settle table (Tolent's layout). -/
structure WingPlane where
  cells : List (Nat × CellCfg)
  macs : List (Nat × MacCfg)
  attic : List AtticPortCfg
  outs : List OutPort
  inps : List InPort
  nocs : List NocPortCfg
  poisonClr : Net
  porchIns : List PorchIn
  porchOuts : List PorchOut
  pinOuts : List PinOut
  fifos : List FifoUse
  deriving DecidableEq, Repr, Inhabited

/-- A wing plane that configures nothing. -/
def WingPlane.empty : WingPlane :=
  { cells := [], macs := [], attic := [], outs := [], inps := [], nocs := [], poisonClr := .zero,
    porchIns := [], porchOuts := [], pinOuts := [], fifos := [] }

/-- A context that no container has loaded. -/
def CtxCfg.empty : CtxCfg :=
  { wings := [], porchIns := [], porchOuts := [], pinOuts := [], fifos := [], device := false, foldTag := 0,
    phase := 0, foldCount := 0 }

end Sys2Proof.Machine
end

