-- ==== Sys2Proof/Config.lean ====
section
/-! DEFINITION. What one device fixes and the manual does not give, and the values the manual leaves open.  Every
constant here is opaque: it has no body, so nothing can be proved about its value and a claim holds whatever it is.
The functions named after a published standard (SHA-384, ECDSA, AES-GCM, AES-XTS, AES-CMAC) stand for that standard's
function, which the manual cites and does not restate. -/

namespace Sys2Proof

/-- What the 1,024 frames of a wing-context spell: the plane layout is Tolent's and not in the manual (R114, and the
opening of 04_cells_and_routing.md). -/
opaque Config.decodeWing : List (List Byte) → Machine.WingPlane
/-- Silicon stepping (R496, R606). -/
opaque Config.stepping : BitVec 8
/-- Bits [11:0] of the IDCODE, which IEEE 1149.1 gives to the maker (R670). -/
opaque Config.idcodeMaker : BitVec 12
/-- The device serial number (R496, R606). -/
opaque Config.serial : Word
/-- The version of the ROM (R496). -/
opaque Config.romVersion : Half

/-- A 64-bit value the manual leaves open: value `n` of an endless supply.  The counter is `State.free`. -/
opaque Config.freeWord : Nat → Word
/-- An open bit: a pin sampled inside its window (R104), an undriven pin (R678), a net that never settles. -/
opaque Config.freeBit : Nat → Bool
/-- What a GDDR6 word reads as when no write since the last training gave it a value; the first argument counts the
losses of contents (R319, R336). -/
opaque Config.g6Fill : Nat → Nat → Word
/-- Whether such a word also fails its inline ECC code. -/
opaque Config.g6Bad : Nat → Nat → Bool
/-- Word `i` of the state image that a STATE_SAVE writes (R111); the first argument numbers the images.  The manual gives no
layout of an image. -/
opaque Config.imageWord : Nat → Nat → Word
/-- The femtoseconds within which a bank must be refreshed again, by density (16 Gb, 32 Gb): "the rate the fitted density requires"
(R317). -/
opaque Config.refreshFs : Bool → Nat
/-- The lowest frequency of loop ML`l`, to which it coasts (R553), above 60% of its set frequency, in thousandths taken modulo 101. -/
opaque Config.coastRate : Nat → Nat
/-- The data key of the start key number `n` that the TRNG draws (R340): read by no path, like the other two parts. -/
opaque Config.dataKey : Nat → BitVec 256
/-- The tweak key of start key number `n` (R340). -/
opaque Config.tweakKey : Nat → BitVec 256
/-- The MAC key of start key number `n` (R340). -/
opaque Config.macKey : Nat → BitVec 256

/-- SHA-384 of a byte string (FIPS 180-4), as the 384-bit number of R530. -/
opaque Config.sha384 : List Byte → BitVec 384
/-- ECDSA P-384 verification under FIPS 186-5: public key (96 bytes), digest, signature (96 bytes). -/
opaque Config.ecdsaVerify : List Byte → BitVec 384 → List Byte → Bool
/-- The Sekunath firmware key, whose hash the ROM holds (R632). -/
opaque Config.firmwareKey : List Byte
/-- AES-256-GCM decryption under the device unique key (R523): IV, additional data, ciphertext, tag. -/
opaque Config.gcmUnwrap : List Byte → List Byte → List Byte → List Byte → Option (List Byte)
/-- AES-256-GCM decryption under a stream key (R523): key, IV, additional data, ciphertext, tag. -/
opaque Config.gcmOpen : List Byte → List Byte → List Byte → List Byte → List Byte → Option (List Byte)
/-- AES-256-XTS of a 64-byte line (R348): Key1, Key2, tweak (R349).  Under any of them it is a permutation of lines, byte 0 in bits
[7:0]; its inverse decrypts. -/
opaque Config.xts : BitVec 256 → BitVec 256 → BitVec 128 → (BitVec 512 ≃ BitVec 512)
/-- AES-256-CMAC (NIST SP 800-38B, R350): key and message; the leftmost bit of the code is bit 127. -/
opaque Config.cmac : BitVec 256 → List Byte → BitVec 128

end Sys2Proof
end

