-- ==== Sys2Proof/Machine/Registers.lean ====
section
/-! DEFINITION. The register tables of the manual as data (00_scope.md R9-R17; the table of each block cites its rule):
where every field lies in BAR0, its access code and its value after DEV_RST_N.  A field whose Reset column names
another source (the OTP ledgers, the straps, the serial number) has 0 here and takes its value in `State.view`
(`Machine/Flags.lean`). -/

namespace Sys2Proof.Machine

/-- The Access column of R13. -/
inductive Access where
  | ro | rw | wo | w1c | w1s | rc
  deriving DecidableEq, Repr

/-- A register field: the BAR0 offset of its register and its bits `[hi:lo]` (R10). -/
structure Field where
  addr : Nat
  hi : Nat
  lo : Nat
  deriving DecidableEq, Repr

/-- One row of a register table (R13). -/
structure FieldSpec where
  hi : Nat
  lo : Nat
  acc : Access
  rst : Nat
  deriving DecidableEq, Repr

/-- One register, or an array of registers: `dims` lists stride and count, outermost first. -/
structure RegSpec where
  base : Nat
  dims : List (Nat × Nat)
  fields : List FieldSpec
  deriving DecidableEq, Repr

namespace Reg

/-- R112: `STEP.CTRL.MODE`, Mode under R78. Set by STEP_CONFIGURE or REEL_JOIN. -/
def STEP.CTRL.MODE : Field := ⟨0x20000, 1, 0⟩
/-- R112: `STEP.CTRL.RUN` -/
def STEP.CTRL.RUN : Field := ⟨0x20000, 8, 8⟩
/-- R112: `STEP.CTRL.HALT`, Writing 1 requests a halt under R83. Returns to 0 when the step engine has stopped. -/
def STEP.CTRL.HALT : Field := ⟨0x20000, 9, 9⟩
/-- R112: `STEP.SINGLE.NSTEP`, Writing a non-zero value in HALTED runs that many steps, subject to R85. -/
def STEP.SINGLE.NSTEP : Field := ⟨0x20008, 31, 0⟩
/-- R112: `STEP.SINGLE.LEFT`, Steps still to run. -/
def STEP.SINGLE.LEFT : Field := ⟨0x20008, 63, 32⟩
/-- R112: `STEP.STAT.STATE`, State under R82. -/
def STEP.STAT.STATE : Field := ⟨0x20010, 2, 0⟩
/-- R112: `STEP.STAT.BPACED`, Budget interval in force. -/
def STEP.STAT.BPACED : Field := ⟨0x20010, 3, 3⟩
/-- R112: `STEP.STAT.THROTTLED`, Thermal interval in force. -/
def STEP.STAT.THROTTLED : Field := ⟨0x20010, 4, 4⟩
/-- R112: `STEP.STAT.AT_RISK`, Set by PROMISE_AT_RISK. -/
def STEP.STAT.AT_RISK : Field := ⟨0x20010, 5, 5⟩
/-- R112: `STEP.STAT.PENDING`, An abandoned step awaits rerun. -/
def STEP.STAT.PENDING : Field := ⟨0x20010, 6, 6⟩
/-- R112: `STEP.STAT.CTLERR`, A control write was ignored under R85. -/
def STEP.STAT.CTLERR : Field := ⟨0x20010, 7, 7⟩
/-- R112: `STEP.STAT.CTX`, Context of the step in progress, or of the next step. -/
def STEP.STAT.CTX : Field := ⟨0x20010, 9, 8⟩
/-- R112: `STEP.STAT.SCOPE`, Step scope of that context: 0 tower, 1 device. -/
def STEP.STAT.SCOPE : Field := ⟨0x20010, 10, 10⟩
/-- R112: `STEP.STAT.STOPCAUSE` -/
def STEP.STAT.STOPCAUSE : Field := ⟨0x20010, 19, 16⟩
/-- R112: `STEP.COUNT.COUNT`, Steps ended since activation. The step in progress has this number. -/
def STEP.COUNT.COUNT : Field := ⟨0x20018, 63, 0⟩
/-- R112: `STEP.PSP.PSP`, Promise in 0.125 ns, from the configuration. -/
def STEP.PSP.PSP (c : Nat) : Field := ⟨0x20020 + 0x8 * c, 19, 0⟩
/-- R112: `STEP.PSP.NSP`, Nominal step time in 0.125 ns. -/
def STEP.PSP.NSP (c : Nat) : Field := ⟨0x20020 + 0x8 * c, 51, 32⟩
/-- R112: `STEP.PACE.PERIOD`, P in 0.125 ns. -/
def STEP.PACE.PERIOD : Field := ⟨0x20040, 19, 0⟩
/-- R112: `STEP.PACE.SLIP`, Policy under R81. -/
def STEP.PACE.SLIP : Field := ⟨0x20040, 32, 32⟩
/-- R112: `STEP.PACE.CUESTART`, The pacer starts on a cue. -/
def STEP.PACE.CUESTART : Field := ⟨0x20040, 33, 33⟩
/-- R112: `STEP.PACE.CUE`, Cue number. -/
def STEP.PACE.CUE : Field := ⟨0x20040, 39, 36⟩
/-- R112: `STEP.CARDPOS.POS0`, Position of segment 0. -/
def STEP.CARDPOS.POS0 : Field := ⟨0x20048, 11, 0⟩
/-- R112: `STEP.CARDPOS.POS1`, Position of segment 1. -/
def STEP.CARDPOS.POS1 : Field := ⟨0x20048, 27, 16⟩
/-- R112: `STEP.CARDPOS.POS2`, Position of segment 2. -/
def STEP.CARDPOS.POS2 : Field := ⟨0x20048, 43, 32⟩
/-- R112: `STEP.CARDPOS.POS3`, Position of segment 3. -/
def STEP.CARDPOS.POS3 : Field := ⟨0x20048, 59, 48⟩
/-- R112: `STEP.CARDSEG.BASE`, First entry of the segment. -/
def STEP.CARDSEG.BASE (c : Nat) : Field := ⟨0x20050 + 0x8 * c, 11, 0⟩
/-- R112: `STEP.CARDSEG.LEN`, Entries in the segment. 0 means empty. -/
def STEP.CARDSEG.LEN (c : Nat) : Field := ⟨0x20050 + 0x8 * c, 28, 16⟩
/-- R112: `STEP.LASTSTEP.DUR` -/
def STEP.LASTSTEP.DUR : Field := ⟨0x20070, 23, 0⟩
/-- R112: `STEP.MAXSTEP.DUR` -/
def STEP.MAXSTEP.DUR : Field := ⟨0x20078, 23, 0⟩
/-- R112: `STEP.OVRCNT.COUNT`, Overruns, saturating. -/
def STEP.OVRCNT.COUNT : Field := ⟨0x20080, 31, 0⟩
/-- R112: `STEP.OVRCNT.WORST`, Largest excess over the promise, in 0.125 ns, saturating. -/
def STEP.OVRCNT.WORST : Field := ⟨0x20080, 54, 32⟩
/-- R112: `STEP.OVRSTEP.STEPNO`, Number of the most recent step that overran. -/
def STEP.OVRSTEP.STEPNO : Field := ⟨0x20088, 63, 0⟩
/-- R112: `STEP.LATECNT.COUNT`, Late launches, saturating. -/
def STEP.LATECNT.COUNT : Field := ⟨0x20090, 31, 0⟩
/-- R112: `STEP.HANGLIM.LIMIT`, Hang limit in µs. A value below 10 acts as 10. -/
def STEP.HANGLIM.LIMIT : Field := ⟨0x20098, 23, 0⟩
/-- R112: `STEP.PACING.MININT`, Minimum launch interval in force, in 0.125 ns. The reset value is 2.5 ns. -/
def STEP.PACING.MININT : Field := ⟨0x200A0, 23, 0⟩
/-- R112: `STEP.PACING.BUDGET`, The budget interval sets MININT. -/
def STEP.PACING.BUDGET : Field := ⟨0x200A0, 32, 32⟩
/-- R112: `STEP.PACING.THERMAL`, The thermal interval sets MININT. -/
def STEP.PACING.THERMAL : Field := ⟨0x200A0, 33, 33⟩
/-- R112: `STEP.BUDGET.DEMAND`, Demand in BU under R92. -/
def STEP.BUDGET.DEMAND : Field := ⟨0x200A8, 10, 0⟩
/-- R112: `STEP.BUDGET.GRANT`, BU granted. -/
def STEP.BUDGET.GRANT : Field := ⟨0x200A8, 26, 16⟩
/-- R112: `STEP.SUMEAS.SU_A` -/
def STEP.SUMEAS.SU_A (h : Nat) : Field := ⟨0x200B0 + 0x8 * h, 15, 0⟩
/-- R112: `STEP.SUMEAS.SU_B`, The same for T1 or T5. -/
def STEP.SUMEAS.SU_B (h : Nat) : Field := ⟨0x200B0 + 0x8 * h, 31, 16⟩
/-- R112: `STEP.SUMEAS.SU_C`, The same for T2 or T6. -/
def STEP.SUMEAS.SU_C (h : Nat) : Field := ⟨0x200B0 + 0x8 * h, 47, 32⟩
/-- R112: `STEP.SUMEAS.SU_D`, The same for T3 or T7. -/
def STEP.SUMEAS.SU_D (h : Nat) : Field := ⟨0x200B0 + 0x8 * h, 63, 48⟩
/-- R112: `STEP.SULIM.LIMIT`, SU limit in fs for R71. The reset value is 60,000 fs, which is 60 ps. -/
def STEP.SULIM.LIMIT : Field := ⟨0x200C0, 15, 0⟩
/-- R112: `STEP.IOLATE.COUNT`, Timed outputs applied late under R109, saturating. -/
def STEP.IOLATE.COUNT : Field := ⟨0x200C8, 31, 0⟩
/-- R112: `STEP.NOTDONE.WINGS` -/
def STEP.NOTDONE.WINGS (t : Nat) : Field := ⟨0x20100 + 0x8 * t, 63, 0⟩
/-- R112: `STEP.CARD.EDGE`, Entry i, under R98. -/
def STEP.CARD.EDGE (i : Nat) : Field := ⟨0x28000 + 0x8 * i, 15, 0⟩
/-- R112: `STEP.CARD.BREAK`, Entry i, under R98. -/
def STEP.CARD.BREAK (i : Nat) : Field := ⟨0x28000 + 0x8 * i, 16, 16⟩
/-- R155: `CTX.MODE.MODE`, Context mode under R132. Value 3 is not used. -/
def CTX.MODE.MODE : Field := ⟨0x30000, 1, 0⟩
/-- R155: `CTX.MODE.ACTCTX`, Context in the active sets. In SOLO mode, this is the running context. -/
def CTX.MODE.ACTCTX : Field := ⟨0x30000, 3, 2⟩
/-- R155: `CTX.MODE.QCOUNT`, n in QUADRILLE mode. 0 in the other modes. -/
def CTX.MODE.QCOUNT : Field := ⟨0x30000, 6, 4⟩
/-- R155: `CTX.MODE.ROTLEN`, Slots in the rotation table, 1 to 16. 0 outside ROTATION mode. -/
def CTX.MODE.ROTLEN : Field := ⟨0x30000, 12, 8⟩
/-- R155: `CTX.ROTATION.SLOTS`, Slot i in bits [2i+1:2i]. -/
def CTX.ROTATION.SLOTS : Field := ⟨0x30008, 31, 0⟩
/-- R155: `CTX.ROTATION.POS`, Slot of the step in progress, or of the next step. -/
def CTX.ROTATION.POS : Field := ⟨0x30008, 35, 32⟩
/-- R155: `CTX.PLANES.STATE0`, State of C0 under R118. -/
def CTX.PLANES.STATE0 : Field := ⟨0x30010, 2, 0⟩
/-- R155: `CTX.PLANES.FRESH0`, C0 is fresh. -/
def CTX.PLANES.FRESH0 : Field := ⟨0x30010, 3, 3⟩
/-- R155: `CTX.PLANES.STATE1`, State of C1. -/
def CTX.PLANES.STATE1 : Field := ⟨0x30010, 10, 8⟩
/-- R155: `CTX.PLANES.FRESH1`, C1 is fresh. -/
def CTX.PLANES.FRESH1 : Field := ⟨0x30010, 11, 11⟩
/-- R155: `CTX.PLANES.STATE2`, State of C2. -/
def CTX.PLANES.STATE2 : Field := ⟨0x30010, 18, 16⟩
/-- R155: `CTX.PLANES.FRESH2`, C2 is fresh. -/
def CTX.PLANES.FRESH2 : Field := ⟨0x30010, 19, 19⟩
/-- R155: `CTX.PLANES.STATE3`, State of C3. -/
def CTX.PLANES.STATE3 : Field := ⟨0x30010, 26, 24⟩
/-- R155: `CTX.PLANES.FRESH3`, C3 is fresh. -/
def CTX.PLANES.FRESH3 : Field := ⟨0x30010, 27, 27⟩
/-- R155: `CTX.STAGE.CTX`, Context of the staging in progress, or of the last staging. -/
def CTX.STAGE.CTX : Field := ⟨0x30018, 1, 0⟩
/-- R155: `CTX.STAGE.BUSY`, A staging is in progress. -/
def CTX.STAGE.BUSY : Field := ⟨0x30018, 2, 2⟩
/-- R155: `CTX.STAGE.LASTSTATUS`, Status code of the last staging that ended. -/
def CTX.STAGE.LASTSTATUS : Field := ⟨0x30018, 15, 8⟩
/-- R155: `CTX.STAGE.DONEKIB`, KiB of plane data written by that staging. -/
def CTX.STAGE.DONEKIB : Field := ⟨0x30018, 47, 16⟩
/-- R155: `CTX.SWCOUNT.COUNT`, SWITCH phases completed since activation, including those run by commands. -/
def CTX.SWCOUNT.COUNT : Field := ⟨0x30020, 63, 0⟩
/-- R155: `CTX.REFILL.RETRY`, Bursts repeated under R35, saturating. -/
def CTX.REFILL.RETRY : Field := ⟨0x30028, 31, 0⟩
/-- R155: `CTX.REFILL.SIGFAIL`, Refill signature mismatches under R123, saturating. -/
def CTX.REFILL.SIGFAIL : Field := ⟨0x30028, 47, 32⟩
/-- R155: `CTX.LASTFAIL.TOWER`, Tower of the last refill failure. -/
def CTX.LASTFAIL.TOWER : Field := ⟨0x30030, 2, 0⟩
/-- R155: `CTX.LASTFAIL.WING`, Wing. -/
def CTX.LASTFAIL.WING : Field := ⟨0x30030, 8, 3⟩
/-- R155: `CTX.LASTFAIL.ROOM`, Room. -/
def CTX.LASTFAIL.ROOM : Field := ⟨0x30030, 18, 9⟩
/-- R155: `CTX.LASTFAIL.CTX`, Context being refilled. -/
def CTX.LASTFAIL.CTX : Field := ⟨0x30030, 20, 19⟩
/-- R155: `CTX.LASTFAIL.KIND`, 0: the burst failed twice under R36. 1: signature mismatch under R123. -/
def CTX.LASTFAIL.KIND : Field := ⟨0x30030, 21, 21⟩
/-- R155: `CTX.LASTFAIL.VALID`, Set at each refill failure, when the other fields are written. -/
def CTX.LASTFAIL.VALID : Field := ⟨0x30030, 63, 63⟩
/-- R155: `CTX.DIGEST.DIGEST` -/
def CTX.DIGEST.DIGEST (c : Nat) : Field := ⟨0x30040 + 0x8 * c, 63, 0⟩
/-- R253: `ATC.CTRL.SOR`, Scrub-on-read: write back corrected words under R234. -/
def ATC.CTRL.SOR (t : Nat) : Field := ⟨0xE0000 + 0x1000 * t, 0, 0⟩
/-- R253: `ATC.STAT.ENTRIES`, Records in use in the error table, 0 to 32. -/
def ATC.STAT.ENTRIES (t : Nat) : Field := ⟨0xE0008 + 0x1000 * t, 5, 0⟩
/-- R253: `ATC.STAT.OVERFLOW`, The table is frozen under R238. -/
def ATC.STAT.OVERFLOW (t : Nat) : Field := ⟨0xE0008 + 0x1000 * t, 6, 6⟩
/-- R253: `ATC.STAT.SELFTEST`, Under R245. -/
def ATC.STAT.SELFTEST (t : Nat) : Field := ⟨0xE0008 + 0x1000 * t, 7, 7⟩
/-- R253: `ATC.STAT.SCRUBBUSY`, A SCRUB or ATC_FILL is in progress in the tower. -/
def ATC.STAT.SCRUBBUSY (t : Nat) : Field := ⟨0xE0008 + 0x1000 * t, 8, 8⟩
/-- R253: `ATC.STAT.REMAPPEND`, A move or retirement is pending in some wing. -/
def ATC.STAT.REMAPPEND (t : Nat) : Field := ⟨0xE0008 + 0x1000 * t, 9, 9⟩
/-- R253: `ATC.TOTALS.CE`, Corrected errors in the tower, saturating. -/
def ATC.TOTALS.CE (t : Nat) : Field := ⟨0xE0010 + 0x1000 * t, 31, 0⟩
/-- R253: `ATC.TOTALS.UE`, Uncorrectable errors, saturating. -/
def ATC.TOTALS.UE (t : Nat) : Field := ⟨0xE0010 + 0x1000 * t, 47, 32⟩
/-- R253: `ATC.TOTALS.OUTER`, Outer-code failures, saturating. -/
def ATC.TOTALS.OUTER (t : Nat) : Field := ⟨0xE0010 + 0x1000 * t, 63, 48⟩
/-- R253: `ATC.MAP.SPAREFOR`, Logical block on PB24. 0x1F: the spare is free. -/
def ATC.MAP.SPAREFOR (t : Nat) (w : Nat) : Field := ⟨0xE0040 + 0x1000 * t + 0x8 * w, 4, 0⟩
/-- R253: `ATC.MAP.FIELD`, The spare was taken by a field repair. -/
def ATC.MAP.FIELD (t : Nat) (w : Nat) : Field := ⟨0xE0040 + 0x1000 * t + 0x8 * w, 5, 5⟩
/-- R253: `ATC.MAP.PENDING`, Logical block with a pending move or retirement. 0x1F: none. -/
def ATC.MAP.PENDING (t : Nat) (w : Nat) : Field := ⟨0xE0040 + 0x1000 * t + 0x8 * w, 10, 6⟩
/-- R253: `ATC.MAP.POISON`, The wing's poison signal under R237. -/
def ATC.MAP.POISON (t : Nat) (w : Nat) : Field := ⟨0xE0040 + 0x1000 * t + 0x8 * w, 11, 11⟩
/-- R253: `ATC.MAP.RETIRED`, Bit 12 + b is 1 when logical block ABb is retired. -/
def ATC.MAP.RETIRED (t : Nat) (w : Nat) : Field := ⟨0xE0040 + 0x1000 * t + 0x8 * w, 35, 12⟩
/-- R253: `ATC.CECNT.CNT0`, Corrected errors of tower block 4i, saturating at 65,535. -/
def ATC.CECNT.CNT0 (t : Nat) (i : Nat) : Field := ⟨0xE0400 + 0x1000 * t + 0x8 * i, 15, 0⟩
/-- R253: `ATC.CECNT.CNT1`, The same for tower block 4i + 1. -/
def ATC.CECNT.CNT1 (t : Nat) (i : Nat) : Field := ⟨0xE0400 + 0x1000 * t + 0x8 * i, 31, 16⟩
/-- R253: `ATC.CECNT.CNT2`, The same for tower block 4i + 2. -/
def ATC.CECNT.CNT2 (t : Nat) (i : Nat) : Field := ⟨0xE0400 + 0x1000 * t + 0x8 * i, 47, 32⟩
/-- R253: `ATC.CECNT.CNT3`, The same for tower block 4i + 3. -/
def ATC.CECNT.CNT3 (t : Nat) (i : Nat) : Field := ⟨0xE0400 + 0x1000 * t + 0x8 * i, 63, 48⟩
/-- R300: `NOC.AGING.STEP`, Aging step in ns for R280. A value below 64 acts as 64. -/
def NOC.AGING.STEP : Field := ⟨0x70000, 19, 0⟩
/-- R300: `NOC.TIMEOUT.LIMIT`, Timeout in µs for R285. 0 acts as 1. Values above 200 act as 200. -/
def NOC.TIMEOUT.LIMIT : Field := ⟨0x70008, 7, 0⟩
/-- R300: `NOC.STAT.INSERVICE`, Bit r is 1 when router r is in service. -/
def NOC.STAT.INSERVICE : Field := ⟨0x70010, 15, 0⟩
/-- R300: `NOC.STAT.DRAIN`, Bit 16 + r is 1 while router r drains. -/
def NOC.STAT.DRAIN : Field := ⟨0x70010, 31, 16⟩
/-- R300: `NOC.STAT.FREETAGS`, Unassigned tags, 0 to 65,536. -/
def NOC.STAT.FREETAGS : Field := ⟨0x70010, 48, 32⟩
/-- R300: `NOC.STALE.COUNT`, Stale completions in the device, saturating. -/
def NOC.STALE.COUNT : Field := ⟨0x70018, 31, 0⟩
/-- R300: `NOC.ABORTS.ROUTE`, ABORT_ROUTE responses sent, saturating. -/
def NOC.ABORTS.ROUTE : Field := ⟨0x70020, 31, 0⟩
/-- R300: `NOC.ABORTS.NOROUTE`, NOROUTE responses sent, saturating. -/
def NOC.ABORTS.NOROUTE : Field := ⟨0x70020, 63, 32⟩
/-- R300: `NOC.DISCARD.EXPIRED`, Packets discarded under R286, saturating. -/
def NOC.DISCARD.EXPIRED : Field := ⟨0x70028, 31, 0⟩
/-- R300: `NOC.DISCARD.HCHK`, Headers failing HCHK, saturating. -/
def NOC.DISCARD.HCHK : Field := ⟨0x70028, 47, 32⟩
/-- R300: `NOC.DISCARD.BADTYPE`, Packets with an undefined TYPE, saturating. -/
def NOC.DISCARD.BADTYPE : Field := ⟨0x70028, 63, 48⟩
/-- R300: `NOC.INI.TXN.COUNT`, Transactions completed with a response, saturating. -/
def NOC.INI.TXN.COUNT (i : Nat) : Field := ⟨0x74000 + 0x20 * i, 47, 0⟩
/-- R300: `NOC.INI.BYTES.COUNT`, Data bytes moved by those transactions, saturating. -/
def NOC.INI.BYTES.COUNT (i : Nat) : Field := ⟨0x74008 + 0x20 * i, 63, 0⟩
/-- R300: `NOC.INI.TAGS.INUSE`, Tags in use or in quarantine. -/
def NOC.INI.TAGS.INUSE (i : Nat) : Field := ⟨0x74010 + 0x20 * i, 16, 0⟩
/-- R300: `NOC.INI.TAGS.QUOTA`, Tags held. -/
def NOC.INI.TAGS.QUOTA (i : Nat) : Field := ⟨0x74010 + 0x20 * i, 40, 24⟩
/-- R300: `NOC.INI.TAGS.URG`, Base urgency. -/
def NOC.INI.TAGS.URG (i : Nat) : Field := ⟨0x74010 + 0x20 * i, 43, 41⟩
/-- R300: `NOC.INI.TAGS.RESERVE`, Reservation in 8 GB/s units. -/
def NOC.INI.TAGS.RESERVE (i : Nat) : Field := ⟨0x74010 + 0x20 * i, 47, 44⟩
/-- R300: `NOC.INI.TAGS.DROPS`, Requests discarded under R288, saturating. -/
def NOC.INI.TAGS.DROPS (i : Nat) : Field := ⟨0x74010 + 0x20 * i, 63, 48⟩
/-- R300: `NOC.INI.LAT.MAXLAT`, Largest latency in ns, saturating. -/
def NOC.INI.LAT.MAXLAT (i : Nat) : Field := ⟨0x74018 + 0x20 * i, 31, 0⟩
/-- R300: `NOC.INI.LAT.TIMEOUTS`, Timeouts, saturating. -/
def NOC.INI.LAT.TIMEOUTS (i : Nat) : Field := ⟨0x74018 + 0x20 * i, 47, 32⟩
/-- R300: `NOC.INI.LAT.STALE`, Stale completions, saturating. -/
def NOC.INI.LAT.STALE (i : Nat) : Field := ⟨0x74018 + 0x20 * i, 63, 48⟩
/-- R302: `CORR.SUMMARY.DEGRADED`, Bit i is 1 when direction index i has a group at half width or retired. -/
def CORR.SUMMARY.DEGRADED : Field := ⟨0x80000, 27, 0⟩
/-- R302: `CORR.SUMMARY.EXHAUSTED`, Some direction is exhausted under R264. -/
def CORR.SUMMARY.EXHAUSTED : Field := ⟨0x80000, 28, 28⟩
/-- R302: `CORR.DIR.SPAREFREE`, Free spare groups. -/
def CORR.DIR.SPAREFREE (i : Nat) : Field := ⟨0x80100 + 0x8 * i, 1, 0⟩
/-- R302: `CORR.DIR.HALF`, Groups at half width. -/
def CORR.DIR.HALF (i : Nat) : Field := ⟨0x80100 + 0x8 * i, 7, 2⟩
/-- R302: `CORR.DIR.RETIRED`, Groups retired. -/
def CORR.DIR.RETIRED (i : Nat) : Field := ⟨0x80100 + 0x8 * i, 13, 8⟩
/-- R302: `CORR.DIR.EXHAUSTED`, Under R264. -/
def CORR.DIR.EXHAUSTED (i : Nat) : Field := ⟨0x80100 + 0x8 * i, 14, 14⟩
/-- R302: `CORR.DIR.INUSE`, A context in use has a channel on this direction. -/
def CORR.DIR.INUSE (i : Nat) : Field := ⟨0x80100 + 0x8 * i, 15, 15⟩
/-- R302: `CORR.DIR.MAXLOAD`, Largest number of channels on one group in any context in use, 0 to 16. -/
def CORR.DIR.MAXLOAD (i : Nat) : Field := ⟨0x80100 + 0x8 * i, 36, 32⟩
/-- R302: `CORR.CHK.CHKFAIL`, Transfers that failed their check, saturating. -/
def CORR.CHK.CHKFAIL (i : Nat) : Field := ⟨0x80200 + 0x8 * i, 31, 0⟩
/-- R302: `CORR.CHK.HALFXFER`, Transfers resent at half width under R259, saturating. -/
def CORR.CHK.HALFXFER (i : Nat) : Field := ⟨0x80200 + 0x8 * i, 63, 32⟩
/-- R338: `MEM.CSTAT.STATE`, 0 uninitialised, 1 training, 2 ready, 3 self-refresh, 4 retraining a channel. -/
def MEM.CSTAT.STATE (p : Nat) (k : Nat) : Field := ⟨0xB0000 + 0x10000 * p + 0x1000 * k, 2, 0⟩
/-- R338: `MEM.CSTAT.ECC`, Inline ECC on. -/
def MEM.CSTAT.ECC (p : Nat) (k : Nat) : Field := ⟨0xB0000 + 0x10000 * p + 0x1000 * k, 3, 3⟩
/-- R338: `MEM.CSTAT.CLAMSHELL`, Clamshell configuration. -/
def MEM.CSTAT.CLAMSHELL (p : Nat) (k : Nat) : Field := ⟨0xB0000 + 0x10000 * p + 0x1000 * k, 4, 4⟩
/-- R338: `MEM.CSTAT.DENSITY`, 0: 16 Gb. 1: 32 Gb. -/
def MEM.CSTAT.DENSITY (p : Nat) (k : Nat) : Field := ⟨0xB0000 + 0x10000 * p + 0x1000 * k, 5, 5⟩
/-- R338: `MEM.CSTAT.RATE`, Gb/s per pin. -/
def MEM.CSTAT.RATE (p : Nat) (k : Nat) : Field := ⟨0xB0000 + 0x10000 * p + 0x1000 * k, 15, 8⟩
/-- R338: `MEM.CSTAT.DOWN`, Bit 16: channel A down. Bit 17: channel B down. -/
def MEM.CSTAT.DOWN (p : Nat) (k : Nat) : Field := ⟨0xB0000 + 0x10000 * p + 0x1000 * k, 17, 16⟩
/-- R338: `MEM.RDLINES.COUNT`, 64-byte units read or written, saturating. -/
def MEM.RDLINES.COUNT (p : Nat) (k : Nat) (c : Nat) : Field := ⟨0xB0010 + 0x10000 * p + 0x1000 * k + 0x10 * c, 63, 0⟩
/-- R338: `MEM.WRLINES.COUNT`, 64-byte units read or written, saturating. -/
def MEM.WRLINES.COUNT (p : Nat) (k : Nat) (c : Nat) : Field := ⟨0xB0018 + 0x10000 * p + 0x1000 * k + 0x10 * c, 63, 0⟩
/-- R338: `MEM.ERRCNT.EDCRETRY`, Reissues under R322, saturating. -/
def MEM.ERRCNT.EDCRETRY (p : Nat) (k : Nat) : Field := ⟨0xB0030 + 0x10000 * p + 0x1000 * k, 31, 0⟩
/-- R338: `MEM.ERRCNT.CE`, Corrected words, saturating. -/
def MEM.ERRCNT.CE (p : Nat) (k : Nat) : Field := ⟨0xB0030 + 0x10000 * p + 0x1000 * k, 47, 32⟩
/-- R338: `MEM.ERRCNT.UE`, Uncorrectable words and LINK failures, saturating. -/
def MEM.ERRCNT.UE (p : Nat) (k : Nat) : Field := ⟨0xB0030 + 0x10000 * p + 0x1000 * k, 63, 48⟩
/-- R338: `MEM.SRSTAT.ENTRIES`, Self-refresh entries, saturating. -/
def MEM.SRSTAT.ENTRIES (p : Nat) (k : Nat) : Field := ⟨0xB0038 + 0x10000 * p + 0x1000 * k, 31, 0⟩
/-- R338: `MEM.SRSTAT.LASTEXIT`, Stall of the last exit, in 10 ns units. -/
def MEM.SRSTAT.LASTEXIT (p : Nat) (k : Nat) : Field := ⟨0xB0038 + 0x10000 * p + 0x1000 * k, 47, 32⟩
/-- R338: `MEM.RT.LEVEL`, Level under R329. -/
def MEM.RT.LEVEL (p : Nat) (k : Nat) (j : Nat) : Field := ⟨0xB0040 + 0x10000 * p + 0x1000 * k + 0x8 * j, 9, 0⟩
/-- R338: `MEM.RT.PANIC`, The port is in panic. -/
def MEM.RT.PANIC (p : Nat) (k : Nat) (j : Nat) : Field := ⟨0xB0040 + 0x10000 * p + 0x1000 * k + 0x8 * j, 10, 10⟩
/-- R338: `MEM.RT.ENABLE`, The port is enabled. -/
def MEM.RT.ENABLE (p : Nat) (k : Nat) (j : Nat) : Field := ⟨0xB0040 + 0x10000 * p + 0x1000 * k + 0x8 * j, 11, 11⟩
/-- R338: `MEM.RT.HI`, Panic entry threshold. -/
def MEM.RT.HI (p : Nat) (k : Nat) (j : Nat) : Field := ⟨0xB0040 + 0x10000 * p + 0x1000 * k + 0x8 * j, 21, 12⟩
/-- R338: `MEM.RT.LO`, Panic exit threshold. -/
def MEM.RT.LO (p : Nat) (k : Nat) (j : Nat) : Field := ⟨0xB0040 + 0x10000 * p + 0x1000 * k + 0x8 * j, 31, 22⟩
/-- R338: `MEM.RT.PANICCNT`, Panic entries, saturating. -/
def MEM.RT.PANICCNT (p : Nat) (k : Nat) (j : Nat) : Field := ⟨0xB0040 + 0x10000 * p + 0x1000 * k + 0x8 * j, 63, 32⟩
/-- R338: `MEM.LOGSTAT.ENTRIES`, Records in use, 0 to 64. -/
def MEM.LOGSTAT.ENTRIES (p : Nat) : Field := ⟨0xB8000 + 0x10000 * p, 6, 0⟩
/-- R338: `MEM.LOGSTAT.OVERFLOW`, The log is frozen under R327. -/
def MEM.LOGSTAT.OVERFLOW (p : Nat) : Field := ⟨0xB8000 + 0x10000 * p, 7, 7⟩
/-- R338: `MEM.CAP.BYTES`, Fitted capacity under R308. -/
def MEM.CAP.BYTES : Field := ⟨0xB8008, 36, 0⟩
/-- R373: `CRYPT.STAT.KEY`, A start key exists. -/
def CRYPT.STAT.KEY : Field := ⟨0xD0000, 0, 0⟩
/-- R373: `CRYPT.STAT.ENABLED`, Some unit is protected. -/
def CRYPT.STAT.ENABLED : Field := ⟨0xD0000, 1, 1⟩
/-- R373: `CRYPT.STAT.BUSY`, A SET or REINIT is in progress. -/
def CRYPT.STAT.BUSY : Field := ⟨0xD0000, 2, 2⟩
/-- R373: `CRYPT.STAT.FATAL`, Some group refuses writes under R361. -/
def CRYPT.STAT.FATAL : Field := ⟨0xD0000, 3, 3⟩
/-- R373: `CRYPT.STAT.PROTECTED`, Units in TREE or TAG mode, 0 to 64. -/
def CRYPT.STAT.PROTECTED : Field := ⟨0xD0000, 14, 8⟩
/-- R373: `CRYPT.STAT.TREE`, Units in TREE mode, 0 to 4. -/
def CRYPT.STAT.TREE : Field := ⟨0xD0000, 18, 16⟩
/-- R373: `CRYPT.STAT.META`, M, the units of the window. -/
def CRYPT.STAT.META : Field := ⟨0xD0000, 29, 24⟩
/-- R373: `CRYPT.STAT.METABASE`, First unit of the window. -/
def CRYPT.STAT.METABASE : Field := ⟨0xD0000, 37, 32⟩
/-- R373: `CRYPT.UNITS.MODES`, Mode of unit u, or u − 32 in UNITS1, in bits [2u+1:2u], with the codes of R344. -/
def CRYPT.UNITS.MODES (h : Nat) : Field := ⟨0xD0008 + 0x8 * h, 63, 0⟩
/-- R373: `CRYPT.BLOCKED.SUBTREE`, Bit c is 1 when channel c's blocked list is not empty. -/
def CRYPT.BLOCKED.SUBTREE : Field := ⟨0xD0018, 15, 0⟩
/-- R373: `CRYPT.BLOCKED.WHOLE`, Bit 16 + c is 1 when channel c's whole tree is blocked. -/
def CRYPT.BLOCKED.WHOLE : Field := ⟨0xD0018, 31, 16⟩
/-- R373: `CRYPT.COUNT.REENC`, Group re-encryptions under R360, saturating. -/
def CRYPT.COUNT.REENC (k : Nat) : Field := ⟨0xD0040 + 0x8 * k, 31, 0⟩
/-- R373: `CRYPT.COUNT.TAGFAIL`, Lines failing R362, saturating. -/
def CRYPT.COUNT.TAGFAIL (k : Nat) : Field := ⟨0xD0040 + 0x8 * k, 47, 32⟩
/-- R373: `CRYPT.COUNT.NODEFAIL`, Nodes failing R363, saturating. -/
def CRYPT.COUNT.NODEFAIL (k : Nat) : Field := ⟨0xD0040 + 0x8 * k, 63, 48⟩
/-- R373: `CRYPT.CACHE.HIT`, Leaf lookups served by the node cache, saturating. -/
def CRYPT.CACHE.HIT (p : Nat) : Field := ⟨0xD0100 + 0x8 * p, 31, 0⟩
/-- R373: `CRYPT.CACHE.MISS`, Leaf lookups that read GDDR6, saturating. -/
def CRYPT.CACHE.MISS (p : Nat) : Field := ⟨0xD0100 + 0x8 * p, 63, 32⟩
/-- R373: `CRYPT.LOGSTAT.ENTRIES`, Records in use, 0 to 32. -/
def CRYPT.LOGSTAT.ENTRIES (p : Nat) : Field := ⟨0xD0110 + 0x8 * p, 5, 0⟩
/-- R373: `CRYPT.LOGSTAT.OVERFLOW`, The log is frozen under R366. -/
def CRYPT.LOGSTAT.OVERFLOW (p : Nat) : Field := ⟨0xD0110 + 0x8 * p, 6, 6⟩
/-- R414: `LANE.CFG.RATE`, Under R376. -/
def LANE.CFG.RATE (n : Nat) : Field := ⟨0x90000 + 0x400 * n, 1, 0⟩
/-- R414: `LANE.CFG.WLOG`, Group width. -/
def LANE.CFG.WLOG (n : Nat) : Field := ⟨0x90000 + 0x400 * n, 4, 2⟩
/-- R414: `LANE.CFG.FIRST`, First lane of the lane's group. -/
def LANE.CFG.FIRST (n : Nat) : Field := ⟨0x90000 + 0x400 * n, 10, 5⟩
/-- R414: `LANE.CFG.ENABLE`, The lane is enabled. -/
def LANE.CFG.ENABLE (n : Nat) : Field := ⟨0x90000 + 0x400 * n, 11, 11⟩
/-- R414: `LANE.CFG.TXINV`, Transmit polarity inverted. -/
def LANE.CFG.TXINV (n : Nat) : Field := ⟨0x90000 + 0x400 * n, 12, 12⟩
/-- R414: `LANE.CFG.RXINV`, Receive polarity inverted. -/
def LANE.CFG.RXINV (n : Nat) : Field := ⟨0x90000 + 0x400 * n, 13, 13⟩
/-- R414: `LANE.CFG.TXPRESET`, Transmit equaliser preset. -/
def LANE.CFG.TXPRESET (n : Nat) : Field := ⟨0x90000 + 0x400 * n, 17, 14⟩
/-- R414: `LANE.CFG.WAKESRC`, Under R404. -/
def LANE.CFG.WAKESRC (n : Nat) : Field := ⟨0x90000 + 0x400 * n, 18, 18⟩
/-- R414: `LANE.CFG.SYNCEN`, Under R395. -/
def LANE.CFG.SYNCEN (n : Nat) : Field := ⟨0x90000 + 0x400 * n, 19, 19⟩
/-- R414: `LANE.CFG.SYNCINT`, SYNC interval in µs. -/
def LANE.CFG.SYNCINT (n : Nat) : Field := ⟨0x90000 + 0x400 * n, 27, 20⟩
/-- R414: `LANE.CFG.INUSE`, The group is in use under R409. -/
def LANE.CFG.INUSE (n : Nat) : Field := ⟨0x90000 + 0x400 * n, 28, 28⟩
/-- R414: `LANE.STAT.STATE`, 0 DISABLED, 1 TRAINING, 2 UP, 3 DOWN, 4 LOOP. -/
def LANE.STAT.STATE (n : Nat) : Field := ⟨0x90008 + 0x400 * n, 2, 0⟩
/-- R414: `LANE.STAT.TXSLEEP`, The transmitter sleeps. -/
def LANE.STAT.TXSLEEP (n : Nat) : Field := ⟨0x90008 + 0x400 * n, 3, 3⟩
/-- R414: `LANE.STAT.RXSLEEP`, The receiver sleeps. -/
def LANE.STAT.RXSLEEP (n : Nat) : Field := ⟨0x90008 + 0x400 * n, 4, 4⟩
/-- R414: `LANE.STAT.LOS`, Loss of signal. -/
def LANE.STAT.LOS (n : Nat) : Field := ⟨0x90008 + 0x400 * n, 5, 5⟩
/-- R414: `LANE.STAT.LOL`, Loss of lock. -/
def LANE.STAT.LOL (n : Nat) : Field := ⟨0x90008 + 0x400 * n, 6, 6⟩
/-- R414: `LANE.STAT.BLOCKLOCK`, Block lock held. -/
def LANE.STAT.BLOCKLOCK (n : Nat) : Field := ⟨0x90008 + 0x400 * n, 7, 7⟩
/-- R414: `LANE.STAT.CAUSE` -/
def LANE.STAT.CAUSE (n : Nat) : Field := ⟨0x90008 + 0x400 * n, 11, 8⟩
/-- R414: `LANE.STAT.SKEW`, Skew in blocks under R382. -/
def LANE.STAT.SKEW (n : Nat) : Field := ⟨0x90008 + 0x400 * n, 21, 16⟩
/-- R414: `LANE.ERR.HDRERR`, Invalid sync headers and undefined control blocks, saturating. -/
def LANE.ERR.HDRERR (n : Nat) : Field := ⟨0x90010 + 0x400 * n, 31, 0⟩
/-- R414: `LANE.ERR.LOSCNT`, Loss-of-signal events, saturating. -/
def LANE.ERR.LOSCNT (n : Nat) : Field := ⟨0x90010 + 0x400 * n, 47, 32⟩
/-- R414: `LANE.ERR.LOLCNT`, Loss-of-lock events, saturating. -/
def LANE.ERR.LOLCNT (n : Nat) : Field := ⟨0x90010 + 0x400 * n, 63, 48⟩
/-- R414: `LANE.LINK0.TXFRAMES`, Frames sent, resends included, saturating. -/
def LANE.LINK0.TXFRAMES (n : Nat) : Field := ⟨0x90020 + 0x400 * n, 31, 0⟩
/-- R414: `LANE.LINK0.RXFRAMES`, Frames accepted, saturating. -/
def LANE.LINK0.RXFRAMES (n : Nat) : Field := ⟨0x90020 + 0x400 * n, 63, 32⟩
/-- R414: `LANE.LINK1.CRCERR`, Frames discarded under R387 or for a failing CRC-32, saturating. -/
def LANE.LINK1.CRCERR (n : Nat) : Field := ⟨0x90028 + 0x400 * n, 31, 0⟩
/-- R414: `LANE.LINK1.NACKS`, NACKs received, saturating. -/
def LANE.LINK1.NACKS (n : Nat) : Field := ⟨0x90028 + 0x400 * n, 47, 32⟩
/-- R414: `LANE.LINK1.GOBACKS`, Go-backs under R392, saturating. -/
def LANE.LINK1.GOBACKS (n : Nat) : Field := ⟨0x90028 + 0x400 * n, 63, 48⟩
/-- R414: `LANE.LINK2.TXSEQ`, Next FSEQ to send. -/
def LANE.LINK2.TXSEQ (n : Nat) : Field := ⟨0x90030 + 0x400 * n, 11, 0⟩
/-- R414: `LANE.LINK2.EXPSEQ`, Next FSEQ expected. -/
def LANE.LINK2.EXPSEQ (n : Nat) : Field := ⟨0x90030 + 0x400 * n, 23, 12⟩
/-- R414: `LANE.LINK2.CREDIT`, Credits held, 0 to 512. -/
def LANE.LINK2.CREDIT (n : Nat) : Field := ⟨0x90030 + 0x400 * n, 33, 24⟩
/-- R414: `LANE.LINK2.HELD`, Frames in the replay buffer, 0 to 256. -/
def LANE.LINK2.HELD (n : Nat) : Field := ⟨0x90030 + 0x400 * n, 42, 34⟩
/-- R414: `ETH.CFG.MODE`, 0 disabled, then the RATE codes of R405. -/
def ETH.CFG.MODE (t : Nat) : Field := ⟨0xA0000 + 0x1000 * t, 1, 0⟩
/-- R414: `ETH.CFG.ADDR`, Unicast address. -/
def ETH.CFG.ADDR (t : Nat) : Field := ⟨0xA0000 + 0x1000 * t, 63, 16⟩
/-- R414: `ETH.STAT.LINK`, The link is up. -/
def ETH.STAT.LINK (t : Nat) : Field := ⟨0xA0008 + 0x1000 * t, 0, 0⟩
/-- R414: `ETH.STAT.BLOCKLOCK`, Block lock held. -/
def ETH.STAT.BLOCKLOCK (t : Nat) : Field := ⟨0xA0008 + 0x1000 * t, 1, 1⟩
/-- R414: `ETH.STAT.FECLOCK`, RS-FEC alignment held. -/
def ETH.STAT.FECLOCK (t : Nat) : Field := ⟨0xA0008 + 0x1000 * t, 2, 2⟩
/-- R414: `ETH.RXCNT.RXOK`, Frames accepted, saturating. -/
def ETH.RXCNT.RXOK (t : Nat) : Field := ⟨0xA0010 + 0x1000 * t, 31, 0⟩
/-- R414: `ETH.RXCNT.RXFCS`, Frames with a failing FCS, saturating. -/
def ETH.RXCNT.RXFCS (t : Nat) : Field := ⟨0xA0010 + 0x1000 * t, 47, 32⟩
/-- R414: `ETH.RXCNT.RXDROP`, Frames discarded under R407, saturating. -/
def ETH.RXCNT.RXDROP (t : Nat) : Field := ⟨0xA0010 + 0x1000 * t, 63, 48⟩
/-- R414: `ETH.TXCNT.TXOK`, Frames sent, saturating. -/
def ETH.TXCNT.TXOK (t : Nat) : Field := ⟨0xA0018 + 0x1000 * t, 31, 0⟩
/-- R414: `ETH.TXCNT.PAUSE`, PAUSE frames discarded under R406, saturating. -/
def ETH.TXCNT.PAUSE (t : Nat) : Field := ⟨0xA0018 + 0x1000 * t, 63, 32⟩
/-- R414: `ETH.FEC.CORRECTED`, RS-FEC codewords corrected, saturating. -/
def ETH.FEC.CORRECTED (t : Nat) : Field := ⟨0xA0020 + 0x1000 * t, 31, 0⟩
/-- R414: `ETH.FEC.UNCORRECTED`, RS-FEC codewords not correctable, saturating. -/
def ETH.FEC.UNCORRECTED (t : Nat) : Field := ⟨0xA0020 + 0x1000 * t, 63, 32⟩
/-- R466: `TIME.NOWNS.FRAC`, Output time, fraction. -/
def TIME.NOWNS.FRAC : Field := ⟨0x40000, 15, 0⟩
/-- R466: `TIME.NOWNS.NS`, Output time, nanoseconds. A read latches NOWSEC under R419. -/
def TIME.NOWNS.NS : Field := ⟨0x40000, 47, 16⟩
/-- R466: `TIME.NOWSEC.SEC`, Seconds latched under R419. -/
def TIME.NOWSEC.SEC : Field := ⟨0x40008, 47, 0⟩
/-- R466: `TIME.STAT.SEL`, Selected domain: 0 A, 1 B. -/
def TIME.STAT.SEL : Field := ⟨0x40010, 0, 0⟩
/-- R466: `TIME.STAT.AUTO`, Under R427. -/
def TIME.STAT.AUTO : Field := ⟨0x40010, 1, 1⟩
/-- R466: `TIME.STAT.SLEW`, Under R425. -/
def TIME.STAT.SLEW : Field := ⟨0x40010, 2, 2⟩
/-- R466: `TIME.STAT.PATH`, Clock path in use. -/
def TIME.STAT.PATH : Field := ⟨0x40010, 3, 3⟩
/-- R466: `TIME.STAT.STATEA`, State of A under R422. -/
def TIME.STAT.STATEA : Field := ⟨0x40010, 6, 4⟩
/-- R466: `TIME.STAT.STATEB`, State of B. -/
def TIME.STAT.STATEB : Field := ⟨0x40010, 9, 7⟩
/-- R466: `TIME.ABOFF.OFFSET` -/
def TIME.ABOFF.OFFSET : Field := ⟨0x40018, 63, 0⟩
/-- R466: `TIME.SLEWREM.OFFSET` -/
def TIME.SLEWREM.OFFSET : Field := ⟨0x40020, 63, 0⟩
/-- R466: `TIME.RATE.RATE`, Output rate word under R417. -/
def TIME.RATE.RATE : Field := ⟨0x40028, 39, 0⟩
/-- R466: `TIME.DOM.SRVOFF`, Last measured offset from the source, in ps, signed. -/
def TIME.DOM.SRVOFF (d : Nat) : Field := ⟨0x40030 + 0x8 * d, 31, 0⟩
/-- R466: `TIME.DOM.SOURCE`, Under R420. -/
def TIME.DOM.SOURCE (d : Nat) : Field := ⟨0x40030 + 0x8 * d, 33, 32⟩
/-- R466: `TIME.DOM.PATH`, Clock path. -/
def TIME.DOM.PATH (d : Nat) : Field := ⟨0x40030 + 0x8 * d, 34, 34⟩
/-- R466: `TIME.DOM.PTPDOM`, PTP domain number. -/
def TIME.DOM.PTPDOM (d : Nat) : Field := ⟨0x40030 + 0x8 * d, 47, 40⟩
/-- R466: `TIME.DOM.UPDATES`, Offset measurements, saturating. -/
def TIME.DOM.UPDATES (d : Nat) : Field := ⟨0x40030 + 0x8 * d, 63, 48⟩
/-- R466: `TIME.REEL.REELID`, Reel ID. -/
def TIME.REEL.REELID : Field := ⟨0x40040, 11, 0⟩
/-- R466: `TIME.REEL.JOINED`, MODE is 3 and a REEL_JOIN was accepted. -/
def TIME.REEL.JOINED : Field := ⟨0x40040, 12, 12⟩
/-- R466: `TIME.REEL.CUE`, STEP cue of the reel. -/
def TIME.REEL.CUE : Field := ⟨0x40040, 19, 16⟩
/-- R466: `TIME.REEL.DIAM`, D. -/
def TIME.REEL.DIAM : Field := ⟨0x40040, 29, 20⟩
/-- R466: `TIME.REEL.GUARD`, G in ns. -/
def TIME.REEL.GUARD : Field := ⟨0x40040, 55, 32⟩
/-- R466: `TIME.REELSLIP.VALUE`, S in 0.125 ns in REELSLIP; h in REELLAST. -/
def TIME.REELSLIP.VALUE : Field := ⟨0x40048, 63, 0⟩
/-- R466: `TIME.REELLAST.VALUE`, S in 0.125 ns in REELSLIP; h in REELLAST. -/
def TIME.REELLAST.VALUE : Field := ⟨0x40058, 63, 0⟩
/-- R466: `TIME.REELCNT.HOLDS`, Holds applied, saturating. -/
def TIME.REELCNT.HOLDS : Field := ⟨0x40050, 31, 0⟩
/-- R466: `TIME.REELCNT.LATE`, Late or discarded values, saturating. -/
def TIME.REELCNT.LATE : Field := ⟨0x40050, 63, 32⟩
/-- R466: `TIME.CUE.TLO.FRAC`, Next match time, fraction. -/
def TIME.CUE.TLO.FRAC (k : Nat) : Field := ⟨0x40100 + 0x20 * k, 15, 0⟩
/-- R466: `TIME.CUE.TLO.NS`, Next match time, nanoseconds. -/
def TIME.CUE.TLO.NS (k : Nat) : Field := ⟨0x40100 + 0x20 * k, 47, 16⟩
/-- R466: `TIME.CUE.THI.SEC`, Next match time, seconds. -/
def TIME.CUE.THI.SEC (k : Nat) : Field := ⟨0x40108 + 0x20 * k, 47, 0⟩
/-- R466: `TIME.CUE.THI.FUNC`, Under R437. -/
def TIME.CUE.THI.FUNC (k : Nat) : Field := ⟨0x40108 + 0x20 * k, 51, 48⟩
/-- R466: `TIME.CUE.THI.PERIODIC` -/
def TIME.CUE.THI.PERIODIC (k : Nat) : Field := ⟨0x40108 + 0x20 * k, 52, 52⟩
/-- R466: `TIME.CUE.THI.ARMED` -/
def TIME.CUE.THI.ARMED (k : Nat) : Field := ⟨0x40108 + 0x20 * k, 53, 53⟩
/-- R466: `TIME.CUE.THI.LATE`, Under R439. -/
def TIME.CUE.THI.LATE (k : Nat) : Field := ⟨0x40108 + 0x20 * k, 54, 54⟩
/-- R466: `TIME.CUE.PER.PERIOD`, Period in 0.125 ns. -/
def TIME.CUE.PER.PERIOD (k : Nat) : Field := ⟨0x40110 + 0x20 * k, 39, 0⟩
/-- R466: `TIME.CUE.CNT.MATCHES`, Matches, saturating. -/
def TIME.CUE.CNT.MATCHES (k : Nat) : Field := ⟨0x40118 + 0x20 * k, 31, 0⟩
/-- R466: `TIME.CAP.LO.FRAC`, Oldest stamp, fraction. -/
def TIME.CAP.LO.FRAC (i : Nat) : Field := ⟨0x40400 + 0x10 * i, 15, 0⟩
/-- R466: `TIME.CAP.LO.NS`, Oldest stamp, nanoseconds. -/
def TIME.CAP.LO.NS (i : Nat) : Field := ⟨0x40400 + 0x10 * i, 47, 16⟩
/-- R466: `TIME.CAP.LO.EDGE`, 1 rising, 0 falling. -/
def TIME.CAP.LO.EDGE (i : Nat) : Field := ⟨0x40400 + 0x10 * i, 48, 48⟩
/-- R466: `TIME.CAP.LO.VALID`, The FIFO holds a stamp. -/
def TIME.CAP.LO.VALID (i : Nat) : Field := ⟨0x40400 + 0x10 * i, 49, 49⟩
/-- R466: `TIME.CAP.HI.SEC`, Oldest stamp, seconds. -/
def TIME.CAP.HI.SEC (i : Nat) : Field := ⟨0x40408 + 0x10 * i, 47, 0⟩
/-- R466: `TIME.CAP.HI.DEPTH`, Stamps held, 0 to 4. -/
def TIME.CAP.HI.DEPTH (i : Nat) : Field := ⟨0x40408 + 0x10 * i, 50, 48⟩
/-- R466: `TIME.CAP.HI.OVF`, Under R442. -/
def TIME.CAP.HI.OVF (i : Nat) : Field := ⟨0x40408 + 0x10 * i, 52, 52⟩
/-- R466: `TIME.CAP.HI.POP`, Writing 1 removes the oldest stamp. -/
def TIME.CAP.HI.POP (i : Nat) : Field := ⟨0x40408 + 0x10 * i, 53, 53⟩
/-- R466: `TIME.CAP.HI.EDGESEL`, Edges captured. -/
def TIME.CAP.HI.EDGESEL (i : Nat) : Field := ⟨0x40408 + 0x10 * i, 55, 54⟩
/-- R505: `HIF.QCTRL.ENABLE`, The command, reply and event rings are served. -/
def HIF.QCTRL.ENABLE : Field := ⟨0x10000, 0, 0⟩
/-- R505: `HIF.QCTRL.QRESET`, Writing 1 starts a queue reset under R487. Returns to 0 when it ends. -/
def HIF.QCTRL.QRESET : Field := ⟨0x10000, 1, 1⟩
/-- R505: `HIF.QSTAT.EPOCH`, Current EPOCH. -/
def HIF.QSTAT.EPOCH : Field := ⟨0x10008, 7, 0⟩
/-- R505: `HIF.QSTAT.STALLED`, Fetching stopped under R483 or R481. -/
def HIF.QSTAT.STALLED : Field := ⟨0x10008, 8, 8⟩
/-- R505: `HIF.QSTAT.RESETTING`, A queue reset is in progress. -/
def HIF.QSTAT.RESETTING : Field := ⟨0x10008, 9, 9⟩
/-- R505: `HIF.QSTAT.IMAGE`, 0 ROM minimal image, 1 Brynivit. -/
def HIF.QSTAT.IMAGE : Field := ⟨0x10008, 10, 10⟩
/-- R505: `HIF.QSTAT.INPROG`, Commands in progress, 0 to 64. -/
def HIF.QSTAT.INPROG : Field := ⟨0x10008, 22, 16⟩
/-- R505: `HIF.QSTAT.SUPPRESSED`, Replies suppressed under R488, saturating. -/
def HIF.QSTAT.SUPPRESSED : Field := ⟨0x10008, 47, 32⟩
/-- R505: `HIF.QSTAT.STALLCAUSE` -/
def HIF.QSTAT.STALLCAUSE : Field := ⟨0x10008, 51, 48⟩
/-- R505: `HIF.CMDBASE.BASE`, Host address of the ring, under R478. -/
def HIF.CMDBASE.BASE : Field := ⟨0x10010, 63, 12⟩
/-- R505: `HIF.RPLBASE.BASE`, Host address of the ring, under R478. -/
def HIF.RPLBASE.BASE : Field := ⟨0x10018, 63, 12⟩
/-- R505: `HIF.EVTBASE.BASE`, Host address of the ring, under R478. -/
def HIF.EVTBASE.BASE : Field := ⟨0x10020, 63, 12⟩
/-- R505: `HIF.RINGSIZE.CMDLOG`, Command ring of 2^CMDLOG words, 14 to 20. -/
def HIF.RINGSIZE.CMDLOG : Field := ⟨0x10028, 4, 0⟩
/-- R505: `HIF.RINGSIZE.RPLLOG`, Reply ring of 2^RPLLOG words, 14 to 20. -/
def HIF.RINGSIZE.RPLLOG : Field := ⟨0x10028, 12, 8⟩
/-- R505: `HIF.RINGSIZE.EVTLOG`, Event ring of 2^EVTLOG records, 6 to 16. -/
def HIF.RINGSIZE.EVTLOG : Field := ⟨0x10028, 20, 16⟩
/-- R505: `HIF.WBADDR.ADDR`, Host address of the write-back block under R481. Writable while ENABLE is 0. -/
def HIF.WBADDR.ADDR : Field := ⟨0x10030, 63, 5⟩
/-- R505: `HIF.CMDTAIL.COUNT`, Counter under R479 and R480. -/
def HIF.CMDTAIL.COUNT : Field := ⟨0x10040, 31, 0⟩
/-- R505: `HIF.CMDHEAD.COUNT`, Counter under R479 and R480. -/
def HIF.CMDHEAD.COUNT : Field := ⟨0x10048, 31, 0⟩
/-- R505: `HIF.RPLTAIL.COUNT`, Counter under R479 and R480. -/
def HIF.RPLTAIL.COUNT : Field := ⟨0x10050, 31, 0⟩
/-- R505: `HIF.RPLHEAD.COUNT`, Counter under R479 and R480. -/
def HIF.RPLHEAD.COUNT : Field := ⟨0x10058, 31, 0⟩
/-- R505: `HIF.EVTTAIL.COUNT`, Counter under R479 and R480. -/
def HIF.EVTTAIL.COUNT : Field := ⟨0x10060, 31, 0⟩
/-- R505: `HIF.EVTHEAD.COUNT`, Counter under R479 and R480. -/
def HIF.EVTHEAD.COUNT : Field := ⟨0x10068, 31, 0⟩
/-- R505: `HIF.EVTDROP.COUNT`, Events dropped, saturating. -/
def HIF.EVTDROP.COUNT : Field := ⟨0x10070, 31, 0⟩
/-- R505: `HIF.ERR.BADACC`, Under R11. -/
def HIF.ERR.BADACC : Field := ⟨0x10078, 0, 0⟩
/-- R505: `HIF.ERR.TGTERR`, A BAR0 access ended in a hallway error. -/
def HIF.ERR.TGTERR : Field := ⟨0x10078, 1, 1⟩
/-- R505: `HIF.ERR.B2ERR`, A BAR2 access ended in a hallway error. -/
def HIF.ERR.B2ERR : Field := ⟨0x10078, 2, 2⟩
/-- R505: `HIF.ERR.WBERR`, A write to host memory failed. -/
def HIF.ERR.WBERR : Field := ⟨0x10078, 3, 3⟩
/-- R505: `HIF.ERR.DOORBELL`, Under R480. -/
def HIF.ERR.DOORBELL : Field := ⟨0x10078, 4, 4⟩
/-- R505: `HIF.ERR.SETUP`, Under R478 and R491. -/
def HIF.ERR.SETUP : Field := ⟨0x10078, 5, 5⟩
/-- R505: `HIF.ERR.FETCHERR`, A read of the command ring in host memory failed, under R483. -/
def HIF.ERR.FETCHERR : Field := ⟨0x10078, 6, 6⟩
/-- R505: `HIF.ERR.LASTSTAT`, Hallway status of the last TGTERR or B2ERR, under R274. -/
def HIF.ERR.LASTSTAT : Field := ⟨0x10078, 15, 8⟩
/-- R505: `HIF.ERRADDR.OFFSET`, BAR0 or BAR2 offset of the access that LASTSTAT describes. -/
def HIF.ERRADDR.OFFSET : Field := ⟨0x10080, 63, 0⟩
/-- R505: `HIF.APERTURE.UNIT`, 1 GiB unit of GDDR6 space shown at BAR2 offset 0xF_C000_0000. -/
def HIF.APERTURE.UNIT : Field := ⟨0x10088, 5, 0⟩
/-- R505: `HIF.LINK.SPEED`, 1 to 5 for 2.5 to 32.0 GT/s. 0 while the link is down. -/
def HIF.LINK.SPEED : Field := ⟨0x10090, 2, 0⟩
/-- R505: `HIF.LINK.WIDTH`, Lanes in use: 1, 2, 4, 8 or 16. -/
def HIF.LINK.WIDTH : Field := ⟨0x10090, 7, 3⟩
/-- R505: `HIF.LINK.LOWRATE`, Held at 2.5 GT/s x1 under R471. -/
def HIF.LINK.LOWRATE : Field := ⟨0x10090, 8, 8⟩
/-- R505: `HIF.LINK.L1`, The link is in L1 or one of its substates. -/
def HIF.LINK.L1 : Field := ⟨0x10090, 9, 9⟩
/-- R505: `HIF.IRQMOD.INTERVAL`, Moderation interval in µs for vectors 0 and 2. 0 means none. -/
def HIF.IRQMOD.INTERVAL : Field := ⟨0x10098, 15, 0⟩
/-- R505: `HIF.MBOXCTL.GO`, Writing 1 submits the mailbox command. Returns to 0 when it is accepted. -/
def HIF.MBOXCTL.GO : Field := ⟨0x10100, 0, 0⟩
/-- R505: `HIF.MBOXCTL.BUSY`, A mailbox command is in progress. -/
def HIF.MBOXCTL.BUSY : Field := ⟨0x10100, 1, 1⟩
/-- R505: `HIF.MBOXCTL.DONE`, The reply is in `HIF.MBOXR0` to `HIF.MBOXR7`. -/
def HIF.MBOXCTL.DONE : Field := ⟨0x10100, 2, 2⟩
/-- R505: `HIF.MBOXW.WORD`, Command words 0 to 7 and reply words 0 to 7 under R491. -/
def HIF.MBOXW.WORD (i : Nat) : Field := ⟨0x10108 + 0x8 * i, 63, 0⟩
/-- R505: `HIF.MBOXR.WORD`, Command words 0 to 7 and reply words 0 to 7 under R491. -/
def HIF.MBOXR.WORD (i : Nat) : Field := ⟨0x10148 + 0x8 * i, 63, 0⟩
/-- R545: `CFG.STAT.STREAM`, 0 IDLE, 1 OPEN, 2 LOADING, 3 DISCARD, 4 VERIFIED, 5 ACTIVATING. -/
def CFG.STAT.STREAM : Field := ⟨0xF0000, 2, 0⟩
/-- R545: `CFG.STAT.SRC`, Source of the stream. -/
def CFG.STAT.SRC : Field := ⟨0xF0000, 3, 3⟩
/-- R545: `CFG.STAT.ACTIVE`, A configuration is active. -/
def CFG.STAT.ACTIVE : Field := ⟨0xF0000, 4, 4⟩
/-- R545: `CFG.STAT.LASTSTATUS`, Status of the last stream that ended. -/
def CFG.STAT.LASTSTATUS : Field := ⟨0xF0000, 15, 8⟩
/-- R545: `CFG.STAT.REASON`, Reason under R528. -/
def CFG.STAT.REASON : Field := ⟨0xF0000, 23, 16⟩
/-- R545: `CFG.STAT.SECTION`, Index of the failing section. -/
def CFG.STAT.SECTION : Field := ⟨0xF0000, 39, 24⟩
/-- R545: `CFG.RXBYTES.BYTES`, Bytes received, or the header's LENGTH. -/
def CFG.RXBYTES.BYTES : Field := ⟨0xF0008, 63, 0⟩
/-- R545: `CFG.LENGTH.BYTES`, Bytes received, or the header's LENGTH. -/
def CFG.LENGTH.BYTES : Field := ⟨0xF0010, 63, 0⟩
/-- R545: `CFG.SEAT.SEAT`, Seat number. -/
def CFG.SEAT.SEAT : Field := ⟨0xF0018, 9, 0⟩
/-- R545: `CFG.DIGEST.DIGEST`, Digest bits [63:0] of the active full configuration. -/
def CFG.DIGEST.DIGEST : Field := ⟨0xF0020, 63, 0⟩
/-- R545: `CFG.LOCK.LOCKED`, The lock is engaged. -/
def CFG.LOCK.LOCKED : Field := ⟨0xF0028, 0, 0⟩
/-- R545: `CFG.LOCK.POLICY`, Under R520. -/
def CFG.LOCK.POLICY : Field := ⟨0xF0028, 8, 1⟩
/-- R545: `CFG.LOCK.USED`, Ledger entries used, 0 to 16. -/
def CFG.LOCK.USED : Field := ⟨0xF0028, 13, 9⟩
/-- R545: `CFG.SCAN.ENABLED`, The scanner runs. -/
def CFG.SCAN.ENABLED : Field := ⟨0xF0040, 0, 0⟩
/-- R545: `CFG.SCAN.LASTPASS`, Duration of the last pass in µs. -/
def CFG.SCAN.LASTPASS : Field := ⟨0xF0040, 31, 8⟩
/-- R545: `CFG.SCAN.PASSES`, Passes completed, saturating. -/
def CFG.SCAN.PASSES : Field := ⟨0xF0040, 63, 32⟩
/-- R545: `CFG.SIGCNT.MISMATCH`, Mismatches found by refills and by the scanner, under R537, saturating. -/
def CFG.SIGCNT.MISMATCH : Field := ⟨0xF0048, 31, 0⟩
/-- R545: `CFG.SIGCNT.REPAIRED`, Outcome 1, saturating. -/
def CFG.SIGCNT.REPAIRED : Field := ⟨0xF0048, 47, 32⟩
/-- R545: `CFG.SIGCNT.UNREPAIRED`, Outcomes 0, 2 and 3, saturating. -/
def CFG.SIGCNT.UNREPAIRED : Field := ⟨0xF0048, 63, 48⟩
/-- R545: `CFG.LASTSIG.FRAME`, Bits [23:0] of the last SIG_MISMATCH detail. -/
def CFG.LASTSIG.FRAME : Field := ⟨0xF0050, 23, 0⟩
/-- R545: `CFG.LASTSIG.VALID`, Set at each mismatch. -/
def CFG.LASTSIG.VALID : Field := ⟨0xF0050, 63, 63⟩
/-- R545: `CFG.MIRROR.ENABLED`, The mirror is on. -/
def CFG.MIRROR.ENABLED : Field := ⟨0xF0058, 0, 0⟩
/-- R545: `CFG.MIRROR.COPYING`, The copy of R539 runs. -/
def CFG.MIRROR.COPYING : Field := ⟨0xF0058, 1, 1⟩
/-- R545: `CFG.MIRROR.BASE`, GDDR6 base address. -/
def CFG.MIRROR.BASE : Field := ⟨0xF0058, 47, 12⟩
/-- R545: `CFG.WINDROP.COUNT`, Window writes discarded under R526, saturating. -/
def CFG.WINDROP.COUNT : Field := ⟨0xF0060, 31, 0⟩
/-- R545: `CFG.JOB.JOBID`, ID of the job in slot j. 0 means free. -/
def CFG.JOB.JOBID (j : Nat) : Field := ⟨0xF0100 + 0x8 * j, 15, 0⟩
/-- R545: `CFG.JOB.TOWER` -/
def CFG.JOB.TOWER (j : Nat) : Field := ⟨0xF0100 + 0x8 * j, 18, 16⟩
/-- R545: `CFG.JOB.WING` -/
def CFG.JOB.WING (j : Nat) : Field := ⟨0xF0100 + 0x8 * j, 29, 24⟩
/-- R545: `CFG.JOB.CTX` -/
def CFG.JOB.CTX (j : Nat) : Field := ⟨0xF0100 + 0x8 * j, 31, 30⟩
/-- R545: `CFG.JOB.STATE`, 0 waiting for a boundary, 1 loading, 2 waiting to rejoin. -/
def CFG.JOB.STATE (j : Nat) : Field := ⟨0xF0100 + 0x8 * j, 33, 32⟩
/-- R583: `CLK.STAT.REFOK`, Reference inputs present, in the order of R559 indices 0 to 4. -/
def CLK.STAT.REFOK : Field := ⟨0x50000, 4, 0⟩
/-- R583: `CLK.STAT.GCLKOK`, GCLK_IN0 to GCLK_IN7 present. -/
def CLK.STAT.GCLKOK : Field := ⟨0x50000, 15, 8⟩
/-- R583: `CLK.STAT.LOCKED`, Bit 16 + i: ML*i* locked. -/
def CLK.STAT.LOCKED : Field := ⟨0x50000, 27, 16⟩
/-- R583: `CLK.STAT.COAST`, Bit 28 + i: ML*i* coasting. -/
def CLK.STAT.COAST : Field := ⟨0x50000, 39, 28⟩
/-- R583: `CLK.LOSS.REF`, A reference input was lost. -/
def CLK.LOSS.REF : Field := ⟨0x50008, 4, 0⟩
/-- R583: `CLK.LOSS.GCLK`, A pin clock was lost. -/
def CLK.LOSS.GCLK : Field := ⟨0x50008, 15, 8⟩
/-- R583: `CLK.LOSS.LOOP`, A loop was lost. -/
def CLK.LOSS.LOOP : Field := ⟨0x50008, 27, 16⟩
/-- R583: `CLK.SYSSPREAD.DEPTH`, Declared depth d in 0.05% under R550. -/
def CLK.SYSSPREAD.DEPTH : Field := ⟨0x50010, 4, 0⟩
/-- R583: `CLK.SYSSPREAD.RATE`, Declared rate in kHz, 25 to 64, or 0 with no spread. -/
def CLK.SYSSPREAD.RATE : Field := ⟨0x50010, 14, 8⟩
/-- R583: `CLK.SYSSPREAD.AUXFREQ`, Frequency code of REFCLK_AUX. -/
def CLK.SYSSPREAD.AUXFREQ : Field := ⟨0x50010, 16, 15⟩
/-- R583: `CLK.DOM.SRC`, Source in use under R555. -/
def CLK.DOM.SRC (d : Nat) : Field := ⟨0x50100 + 0x8 * d, 1, 0⟩
/-- R583: `CLK.DOM.TARGET`, Source of a pending switch. -/
def CLK.DOM.TARGET (d : Nat) : Field := ⟨0x50100 + 0x8 * d, 3, 2⟩
/-- R583: `CLK.DOM.PENDING`, A switch waits under R556. -/
def CLK.DOM.PENDING (d : Nat) : Field := ⟨0x50100 + 0x8 * d, 4, 4⟩
/-- R583: `CLK.DOM.STUCK`, MUX_STUCK raised under R557. -/
def CLK.DOM.STUCK (d : Nat) : Field := ⟨0x50100 + 0x8 * d, 5, 5⟩
/-- R583: `CLK.DOM.SPREAD`, An OUT domain carries spread. -/
def CLK.DOM.SPREAD (d : Nat) : Field := ⟨0x50100 + 0x8 * d, 6, 6⟩
/-- R583: `CLK.DOM.SYSREF`, Under R551. -/
def CLK.DOM.SYSREF (d : Nat) : Field := ⟨0x50100 + 0x8 * d, 7, 7⟩
/-- R583: `CLK.DOM.SWITCHES`, Switches completed, saturating. -/
def CLK.DOM.SWITCHES (d : Nat) : Field := ⟨0x50100 + 0x8 * d, 63, 32⟩
/-- R583: `CLK.FREQ.KHZ`, Frequency over the last 1 ms under R559. -/
def CLK.FREQ.KHZ (i : Nat) : Field := ⟨0x50200 + 0x8 * i, 31, 0⟩
/-- R583: `CLK.FREQ.PRESENT`, The clock shows edges. -/
def CLK.FREQ.PRESENT (i : Nat) : Field := ⟨0x50200 + 0x8 * i, 32, 32⟩
/-- R583: `PWR.STATE.STATE`, Power state under R560. -/
def PWR.STATE.STATE : Field := ⟨0x60000, 2, 0⟩
/-- R583: `PWR.STATE.CHANGING`, An entry or exit is in progress. -/
def PWR.STATE.CHANGING : Field := ⟨0x60000, 3, 3⟩
/-- R583: `PWR.STATE.LASTWAKE`, Cause of the last wake under R566. -/
def PWR.STATE.LASTWAKE : Field := ⟨0x60000, 6, 4⟩
/-- R583: `PWR.STATE.TRIPPED`, Under R579. -/
def PWR.STATE.TRIPPED : Field := ⟨0x60000, 7, 7⟩
/-- R583: `PWR.LEDGER.CAP`, Cap in BU. -/
def PWR.LEDGER.CAP : Field := ⟨0x60008, 10, 0⟩
/-- R583: `PWR.LEDGER.GRANTED`, BU granted under R570, without the host pool and the BU set aside. -/
def PWR.LEDGER.GRANTED : Field := ⟨0x60008, 26, 16⟩
/-- R583: `PWR.LEDGER.FREE`, BU free. -/
def PWR.LEDGER.FREE : Field := ⟨0x60008, 42, 32⟩
/-- R583: `PWR.LEDGER.SETASIDE`, BU set aside and in the host pool. -/
def PWR.LEDGER.SETASIDE : Field := ⟨0x60008, 58, 48⟩
/-- R583: `PWR.CURRENT.NOW`, Core current in 0.1 A, last measurement. -/
def PWR.CURRENT.NOW : Field := ⟨0x60010, 15, 0⟩
/-- R583: `PWR.CURRENT.PEAK`, Largest measurement since the last read. -/
def PWR.CURRENT.PEAK : Field := ⟨0x60010, 31, 16⟩
/-- R583: `PWR.CURRENT.OVERDRAWS`, Overdraws under R573, saturating. -/
def PWR.CURRENT.OVERDRAWS : Field := ⟨0x60010, 47, 32⟩
/-- R583: `PWR.LIMITS.VALUE`, Words 0 and 1 of THERMAL_LIMITS, in its layout. -/
def PWR.LIMITS.VALUE : Field := ⟨0x60018, 63, 0⟩
/-- R583: `PWR.MULT.VALUE`, Words 0 and 1 of THERMAL_LIMITS, in its layout. -/
def PWR.MULT.VALUE : Field := ⟨0x60020, 63, 0⟩
/-- R583: `PWR.TEMP.CELLAR`, Cellar temperature in °C. -/
def PWR.TEMP.CELLAR (t : Nat) : Field := ⟨0x60100 + 0x8 * t, 7, 0⟩
/-- R583: `PWR.TEMP.FLOOR`, Floor temperature. -/
def PWR.TEMP.FLOOR (t : Nat) : Field := ⟨0x60100 + 0x8 * t, 15, 8⟩
/-- R583: `PWR.TEMP.ATTIC`, Attic temperature. -/
def PWR.TEMP.ATTIC (t : Nat) : Field := ⟨0x60100 + 0x8 * t, 23, 16⟩
/-- R583: `PWR.TEMP.STEPLVL`, The tower's level under R576. -/
def PWR.TEMP.STEPLVL (t : Nat) : Field := ⟨0x60100 + 0x8 * t, 25, 24⟩
/-- R583: `PWR.TEMP.MAINTLVL`, 0 none, 1 half rate, 2 quarter rate, under R577. -/
def PWR.TEMP.MAINTLVL (t : Nat) : Field := ⟨0x60100 + 0x8 * t, 27, 26⟩
/-- R583: `PWR.TEMP.CHANGES`, Level changes, saturating. -/
def PWR.TEMP.CHANGES (t : Nat) : Field := ⟨0x60100 + 0x8 * t, 63, 32⟩
/-- R583: `PWR.PORCHTEMP.PN`, Highest PN reading in °C. -/
def PWR.PORCHTEMP.PN : Field := ⟨0x60140, 7, 0⟩
/-- R583: `PWR.PORCHTEMP.PS`, Highest PS reading in °C. -/
def PWR.PORCHTEMP.PS : Field := ⟨0x60140, 15, 8⟩
/-- R583: `PWR.PORCHTEMP.LEVEL`, Step thermal level L. -/
def PWR.PORCHTEMP.LEVEL : Field := ⟨0x60140, 17, 16⟩
/-- R606: `DEV.ID.PART`, Part code. -/
def DEV.ID.PART : Field := ⟨0x0, 15, 0⟩
/-- R606: `DEV.ID.STEPPING`, Silicon stepping. -/
def DEV.ID.STEPPING : Field := ⟨0x0, 23, 16⟩
/-- R606: `DEV.ID.SEAT`, Seat number. -/
def DEV.ID.SEAT : Field := ⟨0x0, 33, 24⟩
/-- R606: `DEV.SERIAL.SERIAL`, Device serial number. -/
def DEV.SERIAL.SERIAL : Field := ⟨0x8, 63, 0⟩
/-- R606: `DEV.RSTCAUSE.CAUSE`, Last whole-device reset: 0 DEV_RST_N, 1 device warm, 2 watchdog. -/
def DEV.RSTCAUSE.CAUSE : Field := ⟨0x10, 1, 0⟩
/-- R606: `DEV.RSTCAUSE.TOWERS`, Bit 8 + t: tower t reset. -/
def DEV.RSTCAUSE.TOWERS : Field := ⟨0x10, 15, 8⟩
/-- R606: `DEV.RSTCAUSE.PORCHES`, Bit 16: PN reset. Bit 17: PS reset. -/
def DEV.RSTCAUSE.PORCHES : Field := ⟨0x10, 17, 16⟩
/-- R606: `DEV.RSTCAUSE.HALLWAY`, Hallway reset. -/
def DEV.RSTCAUSE.HALLWAY : Field := ⟨0x10, 18, 18⟩
/-- R606: `DEV.RSTCAUSE.STEPRST`, Step engine reset. -/
def DEV.RSTCAUSE.STEPRST : Field := ⟨0x10, 19, 19⟩
/-- R606: `DEV.RSTCAUSE.WINGRST`, Some wing reset. -/
def DEV.RSTCAUSE.WINGRST : Field := ⟨0x10, 20, 20⟩
/-- R606: `DEV.BOOT.IMAGE`, 0 ROM minimal image, 1 Brynivit. -/
def DEV.BOOT.IMAGE : Field := ⟨0x18, 0, 0⟩
/-- R606: `DEV.BOOT.SLOT`, Running slot: 0 A, 1 B. -/
def DEV.BOOT.SLOT : Field := ⟨0x18, 1, 1⟩
/-- R606: `DEV.BOOT.FALLBACK`, Under R587. -/
def DEV.BOOT.FALLBACK : Field := ⟨0x18, 2, 2⟩
/-- R606: `DEV.BOOT.READYMS`, Tenths of a ms from DEV_RST_N release to endpoint ready. -/
def DEV.BOOT.READYMS : Field := ⟨0x18, 31, 16⟩
/-- R606: `DEV.BOOT.TESTMS`, ms to self-test complete. -/
def DEV.BOOT.TESTMS : Field := ⟨0x18, 47, 32⟩
/-- R606: `DEV.READY.TOWER`, Bit t: tower t has reported ready. -/
def DEV.READY.TOWER : Field := ⟨0x20, 7, 0⟩
/-- R606: `DEV.READY.SELFTEST`, Self-test complete. -/
def DEV.READY.SELFTEST : Field := ⟨0x20, 8, 8⟩
/-- R606: `DEV.READY.PASSED`, Under R589. -/
def DEV.READY.PASSED : Field := ⟨0x20, 9, 9⟩
/-- R606: `DEV.READY.HALLWAY`, Every router in service. -/
def DEV.READY.HALLWAY : Field := ⟨0x20, 10, 10⟩
/-- R606: `DEV.SELFTEST.BONDS`, Bond test passed after sparing. -/
def DEV.SELFTEST.BONDS (t : Nat) : Field := ⟨0x40 + 0x8 * t, 0, 0⟩
/-- R606: `DEV.SELFTEST.CALIB`, Tuned-delay calibration passed. -/
def DEV.SELFTEST.CALIB (t : Nat) : Field := ⟨0x40 + 0x8 * t, 1, 1⟩
/-- R606: `DEV.SELFTEST.ATTIC`, `ATC.STAT.SELFTEST` of the tower. -/
def DEV.SELFTEST.ATTIC (t : Nat) : Field := ⟨0x40 + 0x8 * t, 2, 2⟩
/-- R606: `DEV.SELFTEST.SU`, Every wing met R67. -/
def DEV.SELFTEST.SU (t : Nat) : Field := ⟨0x40 + 0x8 * t, 3, 3⟩
/-- R606: `DEV.SELFTEST.CONDEMNED`, Rooms condemned by the last test. -/
def DEV.SELFTEST.CONDEMNED (t : Nat) : Field := ⟨0x40 + 0x8 * t, 17, 8⟩
/-- R606: `DEV.SELFTEST.FAILED`, Wings failed, 0 to 64. -/
def DEV.SELFTEST.FAILED (t : Nat) : Field := ⟨0x40 + 0x8 * t, 30, 24⟩
/-- R606: `DEV.SELFTEST.MS`, Duration of the last test in ms. -/
def DEV.SELFTEST.MS (t : Nat) : Field := ⟨0x40 + 0x8 * t, 47, 32⟩
/-- R606: `DEV.LEDGER.USED`, Repair ledger entries used, 0 to 256. -/
def DEV.LEDGER.USED : Field := ⟨0x80, 8, 0⟩
/-- R606: `DEV.LEDGER.FULL`, The ledger is full. -/
def DEV.LEDGER.FULL : Field := ⟨0x80, 9, 9⟩
/-- R606: `DEV.LEDGER.RETAINED`, Repairs held under R599 in retention memory. -/
def DEV.LEDGER.RETAINED : Field := ⟨0x80, 31, 16⟩
/-- R606: `DEV.LEDGER.AVOID`, Avoid map entries. -/
def DEV.LEDGER.AVOID : Field := ⟨0x80, 47, 32⟩
/-- R625: `DBG.TRSTAT.STATE`, Under R617. -/
def DBG.TRSTAT.STATE : Field := ⟨0x100000, 1, 0⟩
/-- R625: `DBG.TRSTAT.MODE`, 0 ATTIC, 1 GDDR6. -/
def DBG.TRSTAT.MODE : Field := ⟨0x100000, 2, 2⟩
/-- R625: `DBG.TRSTAT.POLICY`, 0 STALL, 1 DROP. -/
def DBG.TRSTAT.POLICY : Field := ⟨0x100000, 3, 3⟩
/-- R625: `DBG.TRPOS.HELD`, Records held, per traced wing in ATTIC mode. -/
def DBG.TRPOS.HELD : Field := ⟨0x100008, 31, 0⟩
/-- R625: `DBG.TRPOS.TRIGIDX`, Index of the trigger record from the oldest. All ones if none. -/
def DBG.TRPOS.TRIGIDX : Field := ⟨0x100008, 63, 32⟩
/-- R625: `DBG.TRCNT.DROPPED`, Records dropped, saturating. -/
def DBG.TRCNT.DROPPED : Field := ⟨0x100010, 31, 0⟩
/-- R625: `DBG.TRCNT.STALLS`, Launches held under STALL, saturating. -/
def DBG.TRCNT.STALLS : Field := ⟨0x100010, 63, 32⟩
/-- R625: `DBG.ROUTE.VALID`, The route exists. -/
def DBG.ROUTE.VALID (r : Nat) : Field := ⟨0x100100 + 0x8 * r, 0, 0⟩
/-- R625: `DBG.ROUTE.MODE`, 0 COMMITTED, 1 LIVE. -/
def DBG.ROUTE.MODE (r : Nat) : Field := ⟨0x100100 + 0x8 * r, 1, 1⟩
/-- R625: `DBG.ROUTE.DEST`, 1 PRB, 2 user I/O. -/
def DBG.ROUTE.DEST (r : Nat) : Field := ⟨0x100100 + 0x8 * r, 3, 2⟩
/-- R625: `DBG.ROUTE.BANK` -/
def DBG.ROUTE.BANK (r : Nat) : Field := ⟨0x100100 + 0x8 * r, 7, 4⟩
/-- R625: `DBG.ROUTE.PIN` -/
def DBG.ROUTE.PIN (r : Nat) : Field := ⟨0x100100 + 0x8 * r, 13, 8⟩
/-- R625: `DBG.ROUTE.TOWER` -/
def DBG.ROUTE.TOWER (r : Nat) : Field := ⟨0x100100 + 0x8 * r, 18, 16⟩
/-- R625: `DBG.ROUTE.WING` -/
def DBG.ROUTE.WING (r : Nat) : Field := ⟨0x100100 + 0x8 * r, 29, 24⟩
/-- R625: `DBG.ROUTE.TAP` -/
def DBG.ROUTE.TAP (r : Nat) : Field := ⟨0x100100 + 0x8 * r, 37, 32⟩
/-- R625: `PERT.STAT.UNLOCKED`, The test unlock holds. -/
def PERT.STAT.UNLOCKED : Field := ⟨0x110000, 0, 0⟩
/-- R625: `PERT.STAT.ACTIVE`, Bit 32 + i: slot i active. -/
def PERT.STAT.ACTIVE : Field := ⟨0x110000, 63, 32⟩
/-- R625: `PERT.SLOT.KIND`, Under R620. 0: free. -/
def PERT.SLOT.KIND (i : Nat) : Field := ⟨0x110100 + 0x8 * i, 7, 0⟩
/-- R625: `PERT.SLOT.LEFT`, Steps left for KIND 4. -/
def PERT.SLOT.LEFT (i : Nat) : Field := ⟨0x110100 + 0x8 * i, 31, 16⟩
/-- R625: `PERT.SLOT.TARGET`, Word 1 [31:0] of the PERTURB that set the slot. -/
def PERT.SLOT.TARGET (i : Nat) : Field := ⟨0x110100 + 0x8 * i, 63, 32⟩
/-- R646: `FWU.STAT.SLOT`, Running slot: 0 A, 1 B. -/
def FWU.STAT.SLOT : Field := ⟨0x130000, 0, 0⟩
/-- R646: `FWU.STAT.STAGE`, Inactive slot: 0 invalid, 1 staging open, 2 STAGED. -/
def FWU.STAT.STAGE : Field := ⟨0x130000, 2, 1⟩
/-- R646: `FWU.STAT.PENDING`, An activation cue is armed. -/
def FWU.STAT.PENDING : Field := ⟨0x130000, 3, 3⟩
/-- R646: `FWU.STAT.BOOTSTATE`, STATE of the boot record. -/
def FWU.STAT.BOOTSTATE : Field := ⟨0x130000, 5, 4⟩
/-- R646: `FWU.STAT.HOLDUP`, HOLDUP_N is low. -/
def FWU.STAT.HOLDUP : Field := ⟨0x130000, 6, 6⟩
/-- R646: `FWU.STAT.PGOOD`, PGOOD_IN is high. -/
def FWU.STAT.PGOOD : Field := ⟨0x130000, 7, 7⟩
/-- R646: `FWU.STAT.SVCOVF`, Under R628. -/
def FWU.STAT.SVCOVF : Field := ⟨0x130000, 8, 8⟩
/-- R646: `FWU.STAT.SVCREPLY`, Replies waiting on the service port, 0 to 4. -/
def FWU.STAT.SVCREPLY : Field := ⟨0x130000, 11, 9⟩
/-- R646: `FWU.VERSION.SLOTA`, VERSION of slot A. 0 if invalid. -/
def FWU.VERSION.SLOTA : Field := ⟨0x130008, 31, 0⟩
/-- R646: `FWU.VERSION.SLOTB`, VERSION of slot B. 0 if invalid. -/
def FWU.VERSION.SLOTB : Field := ⟨0x130008, 63, 32⟩
/-- R646: `FWU.STAGEBYTES.BODY`, Body bytes received. -/
def FWU.STAGEBYTES.BODY : Field := ⟨0x130010, 31, 0⟩
/-- R646: `FWU.STAGEBYTES.BUILT`, Image bytes programmed. -/
def FWU.STAGEBYTES.BUILT : Field := ⟨0x130010, 63, 32⟩
/-- R672: `IOB.CFG.VCCIO`, Active VCCIO code under R664. -/
def IOB.CFG.VCCIO (b : Nat) : Field := ⟨0x120000 + 0x800 * b, 2, 0⟩
/-- R672: `IOB.CFG.DOMAIN`, IO clock domain. -/
def IOB.CFG.DOMAIN (b : Nat) : Field := ⟨0x120000 + 0x800 * b, 6, 4⟩
/-- R672: `IOB.CFG.OUTCUE`, Cue for timed outputs. -/
def IOB.CFG.OUTCUE (b : Nat) : Field := ⟨0x120000 + 0x800 * b, 11, 8⟩
/-- R672: `IOB.CFG.CUEEN`, OUTCUE is in use. -/
def IOB.CFG.CUEEN (b : Nat) : Field := ⟨0x120000 + 0x800 * b, 12, 12⟩
/-- R672: `IOB.CFG.ACTIVE`, A bank setup is active. -/
def IOB.CFG.ACTIVE (b : Nat) : Field := ⟨0x120000 + 0x800 * b, 13, 13⟩
/-- R672: `IOB.CFG.VLOW`, Under R668. -/
def IOB.CFG.VLOW (b : Nat) : Field := ⟨0x120000 + 0x800 * b, 14, 14⟩
/-- R672: `IOB.CFG.VLOWSEEN`, VLOW has been set since the last clear. -/
def IOB.CFG.VLOWSEEN (b : Nat) : Field := ⟨0x120000 + 0x800 * b, 15, 15⟩
/-- R672: `IOB.VMEAS.MV`, Measured VCCIO in mV, updated every 100 µs. -/
def IOB.VMEAS.MV (b : Nat) : Field := ⟨0x120008 + 0x800 * b, 11, 0⟩
/-- R672: `IOB.DROP.INDROP`, Writes dropped by the bank's input FIFOs under R106, saturating. -/
def IOB.DROP.INDROP (b : Nat) : Field := ⟨0x120010 + 0x800 * b, 15, 0⟩
/-- R672: `IOB.DROP.OUTDROP`, Pushes dropped by the bank's output FIFOs under R107, saturating. -/
def IOB.DROP.OUTDROP (b : Nat) : Field := ⟨0x120010 + 0x800 * b, 31, 16⟩
/-- R672: `IOB.LEVEL.PIN`, Bit n is pin n's input level, sampled every 1 µs. -/
def IOB.LEVEL.PIN (b : Nat) : Field := ⟨0x120018 + 0x800 * b, 47, 0⟩
/-- R672: `IOB.CTLPINS.SEAT`, Straps latched under R661. -/
def IOB.CTLPINS.SEAT : Field := ⟨0x12F000, 9, 0⟩
/-- R672: `IOB.CTLPINS.HOLDUP_N`, Pin level. -/
def IOB.CTLPINS.HOLDUP_N : Field := ⟨0x12F000, 10, 10⟩
/-- R672: `IOB.CTLPINS.PGOOD_IN`, Pin level. -/
def IOB.CTLPINS.PGOOD_IN : Field := ⟨0x12F000, 11, 11⟩
/-- R672: `IOB.CTLPINS.WAKE_N`, Pin level. -/
def IOB.CTLPINS.WAKE_N : Field := ⟨0x12F000, 12, 12⟩
/-- R672: `IOB.CTLPINS.TRIP`, THERMTRIP_N is driven low. -/
def IOB.CTLPINS.TRIP : Field := ⟨0x12F000, 13, 13⟩
/-- R672: `IOB.CTLPINS.ALM_IN`, Levels of ALM_IN0 to ALM_IN3. -/
def IOB.CTLPINS.ALM_IN : Field := ⟨0x12F000, 17, 14⟩
/-- R672: `IOB.CTLPINS.TS_IN`, Levels of TS_IN0 to TS_IN7. -/
def IOB.CTLPINS.TS_IN : Field := ⟨0x12F000, 25, 18⟩

end Reg

/-- The registers of the STEP block (R112). -/
def regsStep : List RegSpec :=
  [
  ⟨0x20000, [], [⟨1, 0, .ro, 0⟩, ⟨8, 8, .w1s, 0⟩, ⟨9, 9, .w1s, 0⟩]⟩,
  ⟨0x20008, [], [⟨31, 0, .wo, 0⟩, ⟨63, 32, .ro, 0⟩]⟩,
  ⟨0x20010, [], [⟨2, 0, .ro, 0⟩, ⟨3, 3, .ro, 0⟩, ⟨4, 4, .ro, 0⟩, ⟨5, 5, .w1c, 0⟩, ⟨6, 6, .ro, 0⟩, ⟨7, 7, .w1c, 0⟩, ⟨9, 8, .ro, 0⟩, ⟨10, 10, .ro, 0⟩, ⟨19, 16, .ro, 0⟩]⟩,
  ⟨0x20018, [], [⟨63, 0, .ro, 0⟩]⟩,
  ⟨0x20020, [(0x8, 4)], [⟨19, 0, .ro, 0⟩, ⟨51, 32, .ro, 0⟩]⟩,
  ⟨0x20040, [], [⟨19, 0, .ro, 0⟩, ⟨32, 32, .ro, 0⟩, ⟨33, 33, .ro, 0⟩, ⟨39, 36, .ro, 0⟩]⟩,
  ⟨0x20048, [], [⟨11, 0, .ro, 0⟩, ⟨27, 16, .ro, 0⟩, ⟨43, 32, .ro, 0⟩, ⟨59, 48, .ro, 0⟩]⟩,
  ⟨0x20050, [(0x8, 4)], [⟨11, 0, .ro, 0⟩, ⟨28, 16, .ro, 0⟩]⟩] ++
  [
  ⟨0x20070, [], [⟨23, 0, .ro, 0⟩]⟩,
  ⟨0x20078, [], [⟨23, 0, .rc, 0⟩]⟩,
  ⟨0x20080, [], [⟨31, 0, .rc, 0⟩, ⟨54, 32, .rc, 0⟩]⟩,
  ⟨0x20088, [], [⟨63, 0, .ro, 0⟩]⟩,
  ⟨0x20090, [], [⟨31, 0, .rc, 0⟩]⟩,
  ⟨0x20098, [], [⟨23, 0, .rw, 0x3E8⟩]⟩,
  ⟨0x200A0, [], [⟨23, 0, .ro, 20⟩, ⟨32, 32, .ro, 0⟩, ⟨33, 33, .ro, 0⟩]⟩,
  ⟨0x200A8, [], [⟨10, 0, .ro, 0⟩, ⟨26, 16, .ro, 0⟩]⟩] ++
  [
  ⟨0x200B0, [(0x8, 2)], [⟨15, 0, .ro, 0⟩, ⟨31, 16, .ro, 0⟩, ⟨47, 32, .ro, 0⟩, ⟨63, 48, .ro, 0⟩]⟩,
  ⟨0x200C0, [], [⟨15, 0, .rw, 0xEA60⟩]⟩,
  ⟨0x200C8, [], [⟨31, 0, .rc, 0⟩]⟩,
  ⟨0x20100, [(0x8, 8)], [⟨63, 0, .ro, 0⟩]⟩,
  ⟨0x28000, [(0x8, 4096)], [⟨15, 0, .ro, 0⟩, ⟨16, 16, .ro, 0⟩]⟩]

/-- The registers of the CTX block (R155). -/
def regsCtx : List RegSpec :=
  [
  ⟨0x30000, [], [⟨1, 0, .ro, 0⟩, ⟨3, 2, .ro, 0⟩, ⟨6, 4, .ro, 0⟩, ⟨12, 8, .ro, 0⟩]⟩,
  ⟨0x30008, [], [⟨31, 0, .ro, 0⟩, ⟨35, 32, .ro, 0⟩]⟩,
  ⟨0x30010, [], [⟨2, 0, .ro, 0⟩, ⟨3, 3, .ro, 0⟩, ⟨10, 8, .ro, 0⟩, ⟨11, 11, .ro, 0⟩, ⟨18, 16, .ro, 0⟩, ⟨19, 19, .ro, 0⟩, ⟨26, 24, .ro, 0⟩, ⟨27, 27, .ro, 0⟩]⟩,
  ⟨0x30018, [], [⟨1, 0, .ro, 0⟩, ⟨2, 2, .ro, 0⟩, ⟨15, 8, .ro, 0⟩, ⟨47, 16, .ro, 0⟩]⟩,
  ⟨0x30020, [], [⟨63, 0, .ro, 0⟩]⟩,
  ⟨0x30028, [], [⟨31, 0, .rc, 0⟩, ⟨47, 32, .rc, 0⟩]⟩,
  ⟨0x30030, [], [⟨2, 0, .ro, 0⟩, ⟨8, 3, .ro, 0⟩, ⟨18, 9, .ro, 0⟩, ⟨20, 19, .ro, 0⟩, ⟨21, 21, .ro, 0⟩, ⟨63, 63, .w1c, 0⟩]⟩,
  ⟨0x30040, [(0x8, 4)], [⟨63, 0, .ro, 0⟩]⟩]

/-- The registers of the ATC block (R253). -/
def regsAtc : List RegSpec :=
  [
  ⟨0xE0000, [(0x1000, 8)], [⟨0, 0, .rw, 1⟩]⟩,
  ⟨0xE0008, [(0x1000, 8)], [⟨5, 0, .ro, 0⟩, ⟨6, 6, .ro, 0⟩, ⟨7, 7, .ro, 0⟩, ⟨8, 8, .ro, 0⟩, ⟨9, 9, .ro, 0⟩]⟩,
  ⟨0xE0010, [(0x1000, 8)], [⟨31, 0, .rc, 0⟩, ⟨47, 32, .rc, 0⟩, ⟨63, 48, .rc, 0⟩]⟩,
  ⟨0xE0040, [(0x1000, 8), (0x8, 64)], [⟨4, 0, .ro, 0⟩, ⟨5, 5, .ro, 0⟩, ⟨10, 6, .ro, 31⟩, ⟨11, 11, .ro, 0⟩, ⟨35, 12, .ro, 0⟩]⟩,
  ⟨0xE0400, [(0x1000, 8), (0x8, 384)], [⟨15, 0, .rc, 0⟩, ⟨31, 16, .rc, 0⟩, ⟨47, 32, .rc, 0⟩, ⟨63, 48, .rc, 0⟩]⟩]

/-- The registers of the NOC block (R300). -/
def regsNoc : List RegSpec :=
  [
  ⟨0x70000, [], [⟨19, 0, .rw, 0x3E8⟩]⟩,
  ⟨0x70008, [], [⟨7, 0, .rw, 100⟩]⟩,
  ⟨0x70010, [], [⟨15, 0, .ro, 0⟩, ⟨31, 16, .ro, 0⟩, ⟨48, 32, .ro, 0⟩]⟩,
  ⟨0x70018, [], [⟨31, 0, .rc, 0⟩]⟩,
  ⟨0x70020, [], [⟨31, 0, .rc, 0⟩, ⟨63, 32, .rc, 0⟩]⟩,
  ⟨0x70028, [], [⟨31, 0, .rc, 0⟩, ⟨47, 32, .rc, 0⟩, ⟨63, 48, .rc, 0⟩]⟩,
  ⟨0x74000, [(0x20, 1028)], [⟨47, 0, .rc, 0⟩]⟩,
  ⟨0x74008, [(0x20, 1028)], [⟨63, 0, .rc, 0⟩]⟩] ++
  [
  ⟨0x74010, [(0x20, 1028)], [⟨16, 0, .ro, 0⟩, ⟨40, 24, .ro, 0⟩, ⟨43, 41, .ro, 0⟩, ⟨47, 44, .ro, 0⟩, ⟨63, 48, .rc, 0⟩]⟩,
  ⟨0x74018, [(0x20, 1028)], [⟨31, 0, .rc, 0⟩, ⟨47, 32, .rc, 0⟩, ⟨63, 48, .rc, 0⟩]⟩]

/-- The registers of the CORR block (R302). -/
def regsCorr : List RegSpec :=
  [
  ⟨0x80000, [], [⟨27, 0, .ro, 0⟩, ⟨28, 28, .ro, 0⟩]⟩,
  ⟨0x80100, [(0x8, 28)], [⟨1, 0, .ro, 2⟩, ⟨7, 2, .ro, 0⟩, ⟨13, 8, .ro, 0⟩, ⟨14, 14, .ro, 0⟩, ⟨15, 15, .ro, 0⟩, ⟨36, 32, .ro, 0⟩]⟩,
  ⟨0x80200, [(0x8, 28)], [⟨31, 0, .rc, 0⟩, ⟨63, 32, .rc, 0⟩]⟩]

/-- The registers of the MEMN and MEMS block (R338). -/
def regsMem : List RegSpec :=
  [
  ⟨0xB0000, [(0x10000, 2), (0x1000, 4)], [⟨2, 0, .ro, 0⟩, ⟨3, 3, .ro, 0⟩, ⟨4, 4, .ro, 0⟩, ⟨5, 5, .ro, 0⟩, ⟨15, 8, .ro, 0⟩, ⟨17, 16, .ro, 0⟩]⟩,
  ⟨0xB0010, [(0x10000, 2), (0x1000, 4), (0x10, 2)], [⟨63, 0, .rc, 0⟩]⟩,
  ⟨0xB0018, [(0x10000, 2), (0x1000, 4), (0x10, 2)], [⟨63, 0, .rc, 0⟩]⟩,
  ⟨0xB0030, [(0x10000, 2), (0x1000, 4)], [⟨31, 0, .rc, 0⟩, ⟨47, 32, .rc, 0⟩, ⟨63, 48, .rc, 0⟩]⟩,
  ⟨0xB0038, [(0x10000, 2), (0x1000, 4)], [⟨31, 0, .rc, 0⟩, ⟨47, 32, .ro, 0⟩]⟩,
  ⟨0xB0040, [(0x10000, 2), (0x1000, 4), (0x8, 4)], [⟨9, 0, .ro, 0⟩, ⟨10, 10, .ro, 0⟩, ⟨11, 11, .ro, 0⟩, ⟨21, 12, .ro, 0⟩, ⟨31, 22, .ro, 0⟩, ⟨63, 32, .rc, 0⟩]⟩,
  ⟨0xB8000, [(0x10000, 2)], [⟨6, 0, .ro, 0⟩, ⟨7, 7, .ro, 0⟩]⟩,
  ⟨0xB8008, [], [⟨36, 0, .ro, 0⟩]⟩]

/-- The registers of the CRYPT block (R373). -/
def regsCrypt : List RegSpec :=
  [
  ⟨0xD0000, [], [⟨0, 0, .ro, 0⟩, ⟨1, 1, .ro, 0⟩, ⟨2, 2, .ro, 0⟩, ⟨3, 3, .ro, 0⟩, ⟨14, 8, .ro, 0⟩, ⟨18, 16, .ro, 0⟩, ⟨29, 24, .ro, 0⟩, ⟨37, 32, .ro, 0⟩]⟩,
  ⟨0xD0008, [(0x8, 2)], [⟨63, 0, .ro, 0⟩]⟩,
  ⟨0xD0018, [], [⟨15, 0, .ro, 0⟩, ⟨31, 16, .ro, 0⟩]⟩,
  ⟨0xD0040, [(0x8, 8)], [⟨31, 0, .rc, 0⟩, ⟨47, 32, .rc, 0⟩, ⟨63, 48, .rc, 0⟩]⟩,
  ⟨0xD0100, [(0x8, 2)], [⟨31, 0, .rc, 0⟩, ⟨63, 32, .rc, 0⟩]⟩,
  ⟨0xD0110, [(0x8, 2)], [⟨5, 0, .ro, 0⟩, ⟨6, 6, .ro, 0⟩]⟩]

/-- The registers of the LANE block (R414). -/
def regsLane : List RegSpec :=
  [
  ⟨0x90000, [(0x400, 64)], [⟨1, 0, .ro, 0⟩, ⟨4, 2, .ro, 0⟩, ⟨10, 5, .ro, 0⟩, ⟨11, 11, .ro, 0⟩, ⟨12, 12, .ro, 0⟩, ⟨13, 13, .ro, 0⟩, ⟨17, 14, .ro, 0⟩, ⟨18, 18, .ro, 0⟩, ⟨19, 19, .ro, 0⟩, ⟨27, 20, .ro, 0⟩, ⟨28, 28, .ro, 0⟩]⟩,
  ⟨0x90008, [(0x400, 64)], [⟨2, 0, .ro, 0⟩, ⟨3, 3, .ro, 0⟩, ⟨4, 4, .ro, 0⟩, ⟨5, 5, .ro, 0⟩, ⟨6, 6, .ro, 0⟩, ⟨7, 7, .ro, 0⟩, ⟨11, 8, .ro, 0⟩, ⟨21, 16, .ro, 0⟩]⟩,
  ⟨0x90010, [(0x400, 64)], [⟨31, 0, .rc, 0⟩, ⟨47, 32, .rc, 0⟩, ⟨63, 48, .rc, 0⟩]⟩,
  ⟨0x90020, [(0x400, 64)], [⟨31, 0, .rc, 0⟩, ⟨63, 32, .rc, 0⟩]⟩,
  ⟨0x90028, [(0x400, 64)], [⟨31, 0, .rc, 0⟩, ⟨47, 32, .rc, 0⟩, ⟨63, 48, .rc, 0⟩]⟩,
  ⟨0x90030, [(0x400, 64)], [⟨11, 0, .ro, 0⟩, ⟨23, 12, .ro, 0⟩, ⟨33, 24, .ro, 0⟩, ⟨42, 34, .ro, 0⟩]⟩]

/-- The registers of the ETH block (R414). -/
def regsEth : List RegSpec :=
  [
  ⟨0xA0000, [(0x1000, 4)], [⟨1, 0, .ro, 0⟩, ⟨63, 16, .ro, 0⟩]⟩,
  ⟨0xA0008, [(0x1000, 4)], [⟨0, 0, .ro, 0⟩, ⟨1, 1, .ro, 0⟩, ⟨2, 2, .ro, 0⟩]⟩,
  ⟨0xA0010, [(0x1000, 4)], [⟨31, 0, .rc, 0⟩, ⟨47, 32, .rc, 0⟩, ⟨63, 48, .rc, 0⟩]⟩,
  ⟨0xA0018, [(0x1000, 4)], [⟨31, 0, .rc, 0⟩, ⟨63, 32, .rc, 0⟩]⟩,
  ⟨0xA0020, [(0x1000, 4)], [⟨31, 0, .rc, 0⟩, ⟨63, 32, .rc, 0⟩]⟩]

/-- The registers of the TIME block (R466). -/
def regsTime : List RegSpec :=
  [
  ⟨0x40000, [], [⟨15, 0, .ro, 0⟩, ⟨47, 16, .ro, 0⟩]⟩,
  ⟨0x40008, [], [⟨47, 0, .ro, 0⟩]⟩,
  ⟨0x40010, [], [⟨0, 0, .ro, 0⟩, ⟨1, 1, .ro, 0⟩, ⟨2, 2, .ro, 0⟩, ⟨3, 3, .ro, 0⟩, ⟨6, 4, .ro, 0⟩, ⟨9, 7, .ro, 0⟩]⟩,
  ⟨0x40018, [], [⟨63, 0, .ro, 0⟩]⟩,
  ⟨0x40020, [], [⟨63, 0, .ro, 0⟩]⟩,
  ⟨0x40028, [], [⟨39, 0, .ro, 0x200000000⟩]⟩,
  ⟨0x40030, [(0x8, 2)], [⟨31, 0, .ro, 0⟩, ⟨33, 32, .ro, 0⟩, ⟨34, 34, .ro, 0⟩, ⟨47, 40, .ro, 0⟩, ⟨63, 48, .rc, 0⟩]⟩,
  ⟨0x40040, [], [⟨11, 0, .ro, 0⟩, ⟨12, 12, .ro, 0⟩, ⟨19, 16, .ro, 0⟩, ⟨29, 20, .ro, 0⟩, ⟨55, 32, .ro, 0⟩]⟩] ++
  [
  ⟨0x40048, [], [⟨63, 0, .ro, 0⟩]⟩,
  ⟨0x40058, [], [⟨63, 0, .ro, 0⟩]⟩,
  ⟨0x40050, [], [⟨31, 0, .rc, 0⟩, ⟨63, 32, .rc, 0⟩]⟩,
  ⟨0x40100, [(0x20, 16)], [⟨15, 0, .ro, 0⟩, ⟨47, 16, .ro, 0⟩]⟩,
  ⟨0x40108, [(0x20, 16)], [⟨47, 0, .ro, 0⟩, ⟨51, 48, .ro, 0⟩, ⟨52, 52, .ro, 0⟩, ⟨53, 53, .ro, 0⟩, ⟨54, 54, .w1c, 0⟩]⟩,
  ⟨0x40110, [(0x20, 16)], [⟨39, 0, .ro, 0⟩]⟩,
  ⟨0x40118, [(0x20, 16)], [⟨31, 0, .rc, 0⟩]⟩,
  ⟨0x40400, [(0x10, 8)], [⟨15, 0, .ro, 0⟩, ⟨47, 16, .ro, 0⟩, ⟨48, 48, .ro, 0⟩, ⟨49, 49, .ro, 0⟩]⟩] ++
  [
  ⟨0x40408, [(0x10, 8)], [⟨47, 0, .ro, 0⟩, ⟨50, 48, .ro, 0⟩, ⟨52, 52, .w1c, 0⟩, ⟨53, 53, .wo, 0⟩, ⟨55, 54, .ro, 0⟩]⟩]

/-- The registers of the HIF block (R505). -/
def regsHif : List RegSpec :=
  [
  ⟨0x10000, [], [⟨0, 0, .rw, 0⟩, ⟨1, 1, .w1s, 0⟩]⟩,
  ⟨0x10008, [], [⟨7, 0, .ro, 0⟩, ⟨8, 8, .ro, 0⟩, ⟨9, 9, .ro, 0⟩, ⟨10, 10, .ro, 0⟩, ⟨22, 16, .ro, 0⟩, ⟨47, 32, .rc, 0⟩, ⟨51, 48, .ro, 0⟩]⟩,
  ⟨0x10010, [], [⟨63, 12, .rw, 0⟩]⟩,
  ⟨0x10018, [], [⟨63, 12, .rw, 0⟩]⟩,
  ⟨0x10020, [], [⟨63, 12, .rw, 0⟩]⟩,
  ⟨0x10028, [], [⟨4, 0, .rw, 0⟩, ⟨12, 8, .rw, 0⟩, ⟨20, 16, .rw, 0⟩]⟩,
  ⟨0x10030, [], [⟨63, 5, .rw, 0⟩]⟩,
  ⟨0x10040, [], [⟨31, 0, .rw, 0⟩]⟩] ++
  [
  ⟨0x10048, [], [⟨31, 0, .ro, 0⟩]⟩,
  ⟨0x10050, [], [⟨31, 0, .ro, 0⟩]⟩,
  ⟨0x10058, [], [⟨31, 0, .rw, 0⟩]⟩,
  ⟨0x10060, [], [⟨31, 0, .ro, 0⟩]⟩,
  ⟨0x10068, [], [⟨31, 0, .rw, 0⟩]⟩,
  ⟨0x10070, [], [⟨31, 0, .rc, 0⟩]⟩,
  ⟨0x10078, [], [⟨0, 0, .w1c, 0⟩, ⟨1, 1, .w1c, 0⟩, ⟨2, 2, .w1c, 0⟩, ⟨3, 3, .w1c, 0⟩, ⟨4, 4, .w1c, 0⟩, ⟨5, 5, .w1c, 0⟩, ⟨6, 6, .w1c, 0⟩, ⟨15, 8, .ro, 0⟩]⟩,
  ⟨0x10080, [], [⟨63, 0, .ro, 0⟩]⟩] ++
  [
  ⟨0x10088, [], [⟨5, 0, .rw, 60⟩]⟩,
  ⟨0x10090, [], [⟨2, 0, .ro, 0⟩, ⟨7, 3, .ro, 0⟩, ⟨8, 8, .ro, 0⟩, ⟨9, 9, .ro, 0⟩]⟩,
  ⟨0x10098, [], [⟨15, 0, .rw, 0⟩]⟩,
  ⟨0x10100, [], [⟨0, 0, .w1s, 0⟩, ⟨1, 1, .ro, 0⟩, ⟨2, 2, .w1c, 0⟩]⟩,
  ⟨0x10108, [(0x8, 8)], [⟨63, 0, .rw, 0⟩]⟩,
  ⟨0x10148, [(0x8, 8)], [⟨63, 0, .ro, 0⟩]⟩]

/-- The registers of the CFG block (R545). -/
def regsCfg : List RegSpec :=
  [
  ⟨0xF0000, [], [⟨2, 0, .ro, 0⟩, ⟨3, 3, .ro, 0⟩, ⟨4, 4, .ro, 0⟩, ⟨15, 8, .ro, 0⟩, ⟨23, 16, .ro, 0⟩, ⟨39, 24, .ro, 0⟩]⟩,
  ⟨0xF0008, [], [⟨63, 0, .ro, 0⟩]⟩,
  ⟨0xF0010, [], [⟨63, 0, .ro, 0⟩]⟩,
  ⟨0xF0018, [], [⟨9, 0, .ro, 0⟩]⟩,
  ⟨0xF0020, [], [⟨63, 0, .ro, 0⟩]⟩,
  ⟨0xF0028, [], [⟨0, 0, .ro, 0⟩, ⟨8, 1, .ro, 0⟩, ⟨13, 9, .ro, 0⟩]⟩,
  ⟨0xF0040, [], [⟨0, 0, .ro, 0⟩, ⟨31, 8, .ro, 0⟩, ⟨63, 32, .rc, 0⟩]⟩,
  ⟨0xF0048, [], [⟨31, 0, .rc, 0⟩, ⟨47, 32, .rc, 0⟩, ⟨63, 48, .rc, 0⟩]⟩] ++
  [
  ⟨0xF0050, [], [⟨23, 0, .ro, 0⟩, ⟨63, 63, .w1c, 0⟩]⟩,
  ⟨0xF0058, [], [⟨0, 0, .ro, 0⟩, ⟨1, 1, .ro, 0⟩, ⟨47, 12, .ro, 0⟩]⟩,
  ⟨0xF0060, [], [⟨31, 0, .rc, 0⟩]⟩,
  ⟨0xF0100, [(0x8, 8)], [⟨15, 0, .ro, 0⟩, ⟨18, 16, .ro, 0⟩, ⟨29, 24, .ro, 0⟩, ⟨31, 30, .ro, 0⟩, ⟨33, 32, .ro, 0⟩]⟩]

/-- The registers of the CLK block (R583). -/
def regsClk : List RegSpec :=
  [
  ⟨0x50000, [], [⟨4, 0, .ro, 0⟩, ⟨15, 8, .ro, 0⟩, ⟨27, 16, .ro, 0⟩, ⟨39, 28, .ro, 0⟩]⟩,
  ⟨0x50008, [], [⟨4, 0, .w1c, 0⟩, ⟨15, 8, .w1c, 0⟩, ⟨27, 16, .w1c, 0⟩]⟩,
  ⟨0x50010, [], [⟨4, 0, .ro, 0⟩, ⟨14, 8, .ro, 0⟩, ⟨16, 15, .ro, 0⟩]⟩,
  ⟨0x50100, [(0x8, 12)], [⟨1, 0, .ro, 0⟩, ⟨3, 2, .ro, 0⟩, ⟨4, 4, .ro, 0⟩, ⟨5, 5, .ro, 0⟩, ⟨6, 6, .ro, 0⟩, ⟨7, 7, .ro, 0⟩, ⟨63, 32, .rc, 0⟩]⟩,
  ⟨0x50200, [(0x8, 37)], [⟨31, 0, .ro, 0⟩, ⟨32, 32, .ro, 0⟩]⟩]

/-- The registers of the PWR block (R583). -/
def regsPwr : List RegSpec :=
  [
  ⟨0x60000, [], [⟨2, 0, .ro, 0⟩, ⟨3, 3, .ro, 0⟩, ⟨6, 4, .ro, 0⟩, ⟨7, 7, .ro, 0⟩]⟩,
  ⟨0x60008, [], [⟨10, 0, .ro, 0x640⟩, ⟨26, 16, .ro, 0⟩, ⟨42, 32, .ro, 0⟩, ⟨58, 48, .ro, 0⟩]⟩,
  ⟨0x60010, [], [⟨15, 0, .ro, 0⟩, ⟨31, 16, .rc, 0⟩, ⟨47, 32, .rc, 0⟩]⟩,
  ⟨0x60018, [], [⟨63, 0, .ro, 0x3645F5A645F5A⟩]⟩,
  ⟨0x60020, [], [⟨63, 0, .ro, 0x20100A⟩]⟩,
  ⟨0x60100, [(0x8, 8)], [⟨7, 0, .ro, 0⟩, ⟨15, 8, .ro, 0⟩, ⟨23, 16, .ro, 0⟩, ⟨25, 24, .ro, 0⟩, ⟨27, 26, .ro, 0⟩, ⟨63, 32, .rc, 0⟩]⟩,
  ⟨0x60140, [], [⟨7, 0, .ro, 0⟩, ⟨15, 8, .ro, 0⟩, ⟨17, 16, .ro, 0⟩]⟩]

/-- The registers of the DEV block (R606). -/
def regsDev : List RegSpec :=
  [
  ⟨0x0, [], [⟨15, 0, .ro, 0x4624⟩, ⟨23, 16, .ro, 0⟩, ⟨33, 24, .ro, 0⟩]⟩,
  ⟨0x8, [], [⟨63, 0, .ro, 0⟩]⟩,
  ⟨0x10, [], [⟨1, 0, .ro, 0⟩, ⟨15, 8, .w1c, 0⟩, ⟨17, 16, .w1c, 0⟩, ⟨18, 18, .w1c, 0⟩, ⟨19, 19, .w1c, 0⟩, ⟨20, 20, .w1c, 0⟩]⟩,
  ⟨0x18, [], [⟨0, 0, .ro, 0⟩, ⟨1, 1, .ro, 0⟩, ⟨2, 2, .ro, 0⟩, ⟨31, 16, .ro, 0⟩, ⟨47, 32, .ro, 0⟩]⟩,
  ⟨0x20, [], [⟨7, 0, .ro, 0⟩, ⟨8, 8, .ro, 0⟩, ⟨9, 9, .ro, 0⟩, ⟨10, 10, .ro, 0⟩]⟩,
  ⟨0x40, [(0x8, 8)], [⟨0, 0, .ro, 0⟩, ⟨1, 1, .ro, 0⟩, ⟨2, 2, .ro, 0⟩, ⟨3, 3, .ro, 0⟩, ⟨17, 8, .ro, 0⟩, ⟨30, 24, .ro, 0⟩, ⟨47, 32, .ro, 0⟩]⟩,
  ⟨0x80, [], [⟨8, 0, .ro, 0⟩, ⟨9, 9, .ro, 0⟩, ⟨31, 16, .ro, 0⟩, ⟨47, 32, .ro, 0⟩]⟩]

/-- The registers of the DBG block (R625). -/
def regsDbg : List RegSpec :=
  [
  ⟨0x100000, [], [⟨1, 0, .ro, 0⟩, ⟨2, 2, .ro, 0⟩, ⟨3, 3, .ro, 0⟩]⟩,
  ⟨0x100008, [], [⟨31, 0, .ro, 0⟩, ⟨63, 32, .ro, 0⟩]⟩,
  ⟨0x100010, [], [⟨31, 0, .rc, 0⟩, ⟨63, 32, .rc, 0⟩]⟩,
  ⟨0x100100, [(0x8, 128)], [⟨0, 0, .ro, 0⟩, ⟨1, 1, .ro, 0⟩, ⟨3, 2, .ro, 0⟩, ⟨7, 4, .ro, 0⟩, ⟨13, 8, .ro, 0⟩, ⟨18, 16, .ro, 0⟩, ⟨29, 24, .ro, 0⟩, ⟨37, 32, .ro, 0⟩]⟩]

/-- The registers of the PERT block (R625). -/
def regsPert : List RegSpec :=
  [
  ⟨0x110000, [], [⟨0, 0, .ro, 0⟩, ⟨63, 32, .ro, 0⟩]⟩,
  ⟨0x110100, [(0x8, 32)], [⟨7, 0, .ro, 0⟩, ⟨31, 16, .ro, 0⟩, ⟨63, 32, .ro, 0⟩]⟩]

/-- The registers of the FWU block (R646). -/
def regsFwu : List RegSpec :=
  [
  ⟨0x130000, [], [⟨0, 0, .ro, 0⟩, ⟨2, 1, .ro, 0⟩, ⟨3, 3, .ro, 0⟩, ⟨5, 4, .ro, 0⟩, ⟨6, 6, .ro, 0⟩, ⟨7, 7, .ro, 0⟩, ⟨8, 8, .w1c, 0⟩, ⟨11, 9, .ro, 0⟩]⟩,
  ⟨0x130008, [], [⟨31, 0, .ro, 0⟩, ⟨63, 32, .ro, 0⟩]⟩,
  ⟨0x130010, [], [⟨31, 0, .ro, 0⟩, ⟨63, 32, .ro, 0⟩]⟩]

/-- The registers of the IOB block (R672). -/
def regsIob : List RegSpec :=
  [
  ⟨0x120000, [(0x800, 16)], [⟨2, 0, .ro, 0⟩, ⟨6, 4, .ro, 0⟩, ⟨11, 8, .ro, 0⟩, ⟨12, 12, .ro, 0⟩, ⟨13, 13, .ro, 0⟩, ⟨14, 14, .ro, 0⟩, ⟨15, 15, .w1c, 0⟩]⟩,
  ⟨0x120008, [(0x800, 16)], [⟨11, 0, .ro, 0⟩]⟩,
  ⟨0x120010, [(0x800, 16)], [⟨15, 0, .rc, 0⟩, ⟨31, 16, .rc, 0⟩]⟩,
  ⟨0x120018, [(0x800, 16)], [⟨47, 0, .ro, 0⟩]⟩,
  ⟨0x12F000, [], [⟨9, 0, .ro, 0⟩, ⟨10, 10, .ro, 0⟩, ⟨11, 11, .ro, 0⟩, ⟨12, 12, .ro, 0⟩, ⟨13, 13, .ro, 0⟩, ⟨17, 14, .ro, 0⟩, ⟨25, 18, .ro, 0⟩]⟩]

/-- The tables of the block that holds BAR0 offset `a` (R477); no table for an offset outside every block (R12). -/
def regBlock (a : Nat) : List RegSpec :=
  match a / 0x10000 with
  | 0 => regsDev
  | 1 => regsHif
  | 2 => regsStep
  | 3 => regsCtx
  | 4 => regsTime
  | 5 => regsClk
  | 6 => regsPwr
  | 7 => regsNoc
  | 8 => regsCorr
  | 9 => regsLane
  | 10 => regsEth
  | 11 => regsMem
  | 12 => regsMem
  | 13 => regsCrypt
  | 14 => regsAtc
  | 15 => regsCfg
  | 16 => regsDbg
  | 17 => regsPert
  | 18 => regsIob
  | 19 => regsFwu
  | _ => []

/-- Whether offset `o`, counted from a register array's base, is the offset of one of its registers. -/
def dimsHit : List (Nat × Nat) → Nat → Bool
  | [], o => o == 0
  | (stride, count) :: ds, o => decide (o / stride < count) && dimsHit ds (o % stride)

/-- Whether a table row describes the register at offset `a`. -/
def RegSpec.hit (r : RegSpec) (a : Nat) : Bool := decide (r.base ≤ a) && dimsHit r.dims (a - r.base)

/-- The table entry of the 64-bit register at offset `a`; none where no table defines one (R12). -/
def findReg (a : Nat) : Option RegSpec := (regBlock a).find? fun r => r.hit a

/-- R283: tags in [40:24], urgency in [43:41] and reservation (8 GB/s units) in [47:44] of `NOC.INI[i].TAGS`
after DEV_RST_N. -/
def nocTagsReset (i : Nat) : Nat :=
  let pack := fun q u r => q * 2 ^ 24 + u * 2 ^ 41 + r * 2 ^ 44
  if i < 1024 then pack 48 3 0
  else if i = 1024 then pack 8192 3 8
  else if i = 1025 then pack 512 6 1
  else if i = 1026 then pack 2048 4 8
  else pack 2048 2 0

/-- The value of the register at offset `a` after DEV_RST_N: its fields' Reset columns (R16), 0 in every other bit
(R12). -/
def regReset (a : Nat) : BitVec 64 :=
  match findReg a with
  | none => 0
  | some r =>
    if r.base = 0x74010 then BitVec.ofNat 64 (nocTagsReset ((a - 0x74010) / 32))
    else BitVec.ofNat 64 (r.fields.foldl (fun acc f => acc + f.rst * 2 ^ f.lo) 0)

end Sys2Proof.Machine
end

