-- ==== Sys2Proof/Machine/State.lean ====
section
/-! DEFINITION. The state of the block: every register (one home, `State.regs`), and every queue, buffer, counter, mode,
pin and memory the manual gives the device, as plain data.  Sparse stores are `Cells`: pairs of a key and a value, keys
strictly rising, no value equal to what an unlisted key reads as.  `State.reset` is the device as DEV_RST_N leaves it. -/

namespace Sys2Proof.Machine

/-- A sparse store: keys strictly rising, no entry equal to the store's default. -/
abbrev Cells (V : Type) := List (Nat × V)

/-! ### Why a command stops -/

/-- Faults: the block stops.  No command of the table faults in this model: an event that cannot happen in a state has
no effect, and every refusal the manual names is a reply (assumption 3). -/
inductive Fault where
  /-- Raised by nothing; kept so that the interface names a fault.  Safe. -/
  | none
  deriving DecidableEq, Repr

/-- Refusals: no meaning for the command. -/
inductive Refusal where
  /-- Raised by an arm of `exec` that has no meaning yet; the string is the row's mnemonic.  Safe. -/
  | notModelled (mnemonic : String)
  deriving DecidableEq, Repr

/-! ### Host link -/

/-- What the device sends over PCIe or the service port, in order: a write to host memory, an MSI-X message, the
completion of a read, as bytes where the read is one that R11 does not perform. -/
inductive PcieMsg where
  | memWrite (addr : Nat) (data : Word)
  | msix (vector : Nat)
  | readData (offset size : Nat) (data : Word)
  | readBytes (offset : Nat) (data : List Byte)
  | bar2Data (offset : Nat) (poisoned : Bool) (data : List Word)
  | svcWords (ws : List Word)
  deriving DecidableEq, Repr

/-- A command packet that Keeper holds (R482-R485).  `gen` counts the queue resets before it was fetched (R488), `fail`
is the status that fetching it already gave it. -/
structure Cmd where
  id : Nat
  gen : Nat
  path : Path
  opcode : Nat
  seq : Nat
  epoch : Nat
  fence : Bool
  rbuf : Option (Nat × Nat)
  payload : List Word
  fail : Option Nat
  deriving DecidableEq, Repr

/-- A reply that waits to be written (R488, R489). -/
structure Reply where
  gen : Nat
  path : Path
  opcode : Nat
  seq : Nat
  epoch : Nat
  rbuf : Option (Nat × Nat)
  status : Nat
  detail : Nat
  payload : List Word
  deriving DecidableEq, Repr

/-- An event record (R497): words 0 to 3. -/
structure EventRec where
  w0 : Word
  w1 : Word
  w2 : Word
  w3 : Word
  deriving DecidableEq, Repr

/-- An open window of a limited event (R674): its code and key, when it opened, the occurrences held, and the severity,
source and detail of the event that reports them. -/
structure Window where
  code : Nat
  key : Nat
  opened : Nat
  held : Nat
  sev : Nat
  src : Nat
  detail : Nat
  deriving DecidableEq, Repr

/-- The host link beside its registers: packets fetched and not started, the packet that waits for its tail (since
when, its first word, and the words that the ring must hold for it), commands in progress, replies waiting, events. -/
structure Hif where
  nextId : Nat
  gen : Nat
  fetched : List Cmd
  tailWait : Option (Nat × Word × Nat)
  running : List Cmd
  replies : List Reply
  svcReplies : List Reply
  eseq : Nat
  dropTotal : Nat
  drops : Cells Nat
  droppedSince : Bool
  retained : List EventRec
  windows : List Window
  heldEvents : List (Nat × Nat × Nat × Nat)
  holding : Bool
  irqLast : List (Option Nat)
  irqWant : List Bool
  msixOn : Bool
  msixTable : List (Word × Word)
  autoBw : Bool
  bme : Bool
  d3hot : Bool
  perst : Bool
  deriving DecidableEq, Repr

/-- A latch set of a wing (R115, R116): its tag, a context plus 1 or 0 for none, and the configuration that its latches hold. -/
structure Latch where
  tag : Nat
  cfg : Option WingCfg
  deriving DecidableEq, Repr

/-- A latch set that holds no context. -/
def Latch.empty : Latch := { tag := 0, cfg := none }

/-! ### Step engine -/

/-- A run of the step engine (R78-R85): whether its first step waits for the STEP cue and whether the cue has matched,
the steps still to run of a count, the instants of the pacer's next tick and of its last one (R80), the number of the
next tick to launch on and how many have fallen, the instant from which its first step may launch, whether BUDGET_PACED is
posted. -/
structure Run where
  waitCue : Bool
  cueHit : Bool
  left : Option Nat
  nextFall : Nat
  lastFall : Nat
  tick : Nat
  fallen : Nat
  began : Nat
  pacedPosted : Bool
  deriving DecidableEq, Repr

/-- A wing in the phase in progress (R57-R59). -/
structure WingRun where
  wing : Nat
  round : Nat
  active : Bool
  began : Nat
  got : List Nat
  sent : List Nat
  acked : List Nat
  done : Bool
  ended : Bool
  deriving DecidableEq, Repr

/-- A token under way (R61-R63): its sender, its destination, its value, the corridor hops still to cross, the
instant from which its next hop or its arrival can happen (R620 kind 2) and the instant it was sent. -/
structure Token where
  src : Peer
  dest : Peer
  value : Word
  hops : List Hop
  ready : Nat
  sentAt : Nat
  isAck : Bool
  deriving DecidableEq, Repr

/-- A refill of a wing's next set under way (R120, R121): whether the first bursts are outstanding, the rooms whose
repeated burst is (R35), and whom it serves: 0 the step in progress, 1 the following step (R124), 2 a command or
operation, 3 a rerun closing SWITCH (R124), 4 and 5 the return of R125 and the refill ahead of its rerun, 6 the latch loads of a
reset (R595), 7 an exit from NAP (R564). -/
structure Refill where
  wing : Nat
  ctx : Nat
  main : Bool
  retry : List Nat
  serves : Nat
  deriving DecidableEq, Repr

/-- Where the step in progress stands. -/
inductive Stage where
  | evaluate | commit | switch
  deriving DecidableEq, Repr

/-- What a wing NoC port presents to the design of a context from a LAUNCH on (R176, R288, R289): the free-tag flag, the tag index
of its last request, the words of the oldest visible response to that context. -/
structure NocIn where
  init : Nat
  ctx : Nat
  free : Bool
  tag : Nat
  resp : List Word
  deriving DecidableEq, Repr

/-- A request that a design commits at a wing NoC port (R272, R288), before it has a tag. -/
structure NocReq where
  write : Bool
  addr : Nat
  words : Nat
  firstbe : Nat
  lastbe : Nat
  data : List Word
  deriving DecidableEq, Repr

/-- The step in progress (R51): its context, its phase among `phases`, the LAUNCH issue, the values captured at LAUNCH
(porch, channel, value; what each NoC port presents), the wings and tokens of the phase, the porch output
channels that have their token, the units whose done has reached the step master, the instant of the last done, whether the refill
for its closing SWITCH has failed under a fault (R91). -/
structure StepRun where
  ctx : Nat
  phase : Nat
  phases : Nat
  launchAt : Nat
  evalAt : Nat
  stage : Stage
  wings : List WingRun
  tokens : List Token
  inputs : List (Nat × Nat × Word)
  nocIn : List NocIn
  doneTowers : List Nat
  donePorches : List Nat
  porchGot : List (Nat × Nat)
  lastDone : Nat
  commitAt : Nat
  commits : Nat
  ownEnd : Nat
  remoteLast : Nat
  excess : Nat
  hungPosted : Bool
  closeFailed : Bool
  deriving DecidableEq, Repr

/-- A CTX_MODE or CTX_SELECT whose refills are under way (R152, R153): its command, the mode registers to set, the contexts
of the new set and the fresh ones, the contexts still to refill with whether a SWITCH follows, the wings it switched on,
and what a failure puts back: the latch sets, ACTCTX, SWCOUNT, the demand register and the holdings of the step engine
and of the corridor directions. -/
structure CtxOp where
  cmd : Nat
  modeWord : Word
  rotWord : Word
  ctxs : List Nat
  fresh : List Nat
  todo : List (Nat × Bool)
  wings : List Nat
  oldActive : Cells Latch
  oldNext : Cells Latch
  oldActctx : Nat
  oldSwcount : Word
  oldBudget : Word
  oldGrant : Nat
  oldDirs : Nat
  deriving DecidableEq, Repr

/-- The return of the active sets after an abandoned step (R125), before the engine enters the state `st` with stop cause `cause`: the
context to return to, and whether its SWITCH has run and the refill ahead of the rerun is under way. -/
structure Ret where
  ctx : Nat
  cause : Nat
  st : Nat
  ahead : Bool
  deriving DecidableEq, Repr

/-- The step engine beside its registers: `saved` holds the inputs and NoC port inputs of a pending step (R90), `atRisk` says
whether some SU was above its limit in the last monitor interval (R71), `op` is a CTX_MODE or CTX_SELECT under way, `closingOwed` is the closing SWITCH that R124 leaves to the next run, `faultOwed`
a fault found after COMMIT was issued (R91), `aheadBad` that the refill of the following step has failed (R123, R124), `ret` the
return of R125 under way, `lastEnd` the instant at which the last step ended, `startWait` a run that waits for the refill of that SWITCH, with its command
and its count, `overdraw` the overdraw interval in 0.125 ns, 0 for none (R573). -/
structure StepEng where
  op : Option CtxOp
  strict : Bool
  run : Option Run
  cur : Option StepRun
  saved : Option (List (Nat × Nat × Word) × List NocIn)
  atRisk : Bool
  haltReq : Bool
  haltCmds : List Nat
  lastLaunch : Option Nat
  closingOwed : Bool
  faultOwed : Bool
  aheadBad : Bool
  ret : Option Ret
  lastEnd : Nat
  startWait : Option (Option Nat × Option Nat)
  overdraw : Nat
  loadUntil : Nat
  deriving DecidableEq, Repr

/-! ### Fabric -/

/-- One bank of a MAC slice (R202); the stage registers as numbers of their widths. -/
structure MacBank where
  ar : Nat
  br : Nat
  cr : Nat
  dr : Nat
  mr : Nat
  acc : Nat
  oreg : Nat
  satf : Nat
  accovf : Nat
  divcnt : Nat
  deriving DecidableEq, Repr

/-- A bank with every element 0 (R202). -/
def MacBank.zero : MacBank :=
  { ar := 0, br := 0, cr := 0, dr := 0, mr := 0, acc := 0, oreg := 0, satf := 0, accovf := 0, divcnt := 0 }

/-- The fabric's state (R128-R131, R174, R202): flip-flop copies, landings with their copies at LAUNCH, MAC banks and
bank selects, inbound values and committed copies, what the phases of the step captured, wing power and isolation,
active and next latch sets, settle units and their trim codes (R67), poison signals, wings whose memory or channel bundle failed, the spare map that the cellars apply (R26: by crossing, the
conductors that spares stand in for, in the order of the spares), the towers whose tuned delays are set and the taps that
are not that of an open window (R32, R33). -/
structure Fabric where
  ff : Cells Bool
  ffPend : List (Nat × Bool)
  landing : Cells Bool
  landingCopy : Cells Bool
  mac : Cells MacBank
  macPend : List (Nat × Bool × MacBank)
  bsel : Cells Nat
  bselPend : List (Nat × Nat)
  inVal : Cells Word
  inCommitted : Cells Word
  srcIso : List Nat
  porchVal : Cells Word
  porchCommitted : Cells Word
  tokenStep : List (Nat × Word)
  atticPend : List (Nat × Bool × Word)
  poisonClrPend : List Nat
  nocPend : List (Nat × Nat × Option NocReq)
  fifoPend : List (Nat × Nat × Bool × Bool × Bool × Word)
  powered : List Nat
  isoJob : List (Nat × Nat)
  isoReset : List Nat
  condemned : List (Nat × Nat)
  failed : List Nat
  memFailed : List Nat
  chanFailed : List Nat
  active : Cells Latch
  next : Cells Latch
  su : Cells Nat
  trim : Cells Nat
  poison : List Nat
  poisonRaise : List Nat
  spared : Cells (List Nat)
  tuned : List Nat
  taps : Cells Nat
  refills : List Refill
  deriving DecidableEq, Repr

/-! ### Contexts and configuration -/

/-- A section of a container that the seat kept (R511, R512): type, PARAM and body. -/
structure Section where
  type : Nat
  param : Nat
  body : List Byte
  deriving DecidableEq, Repr

/-- What is read of a container (R507): all its bytes so far, the sections parsed, the sections kept, and the failure
found, as reason and section index. -/
structure Stream where
  bytes : List Byte
  parsed : Nat
  next : Nat
  kept : List (Nat × Section)
  headerOk : Bool
  selected : Bool
  streamKey : List Byte
  failed : Option (Nat × Nat)
  descs : List (Nat × Nat)
  descAddr : Nat
  descDone : Bool
  lastByte : Nat
  timeoutMs : Nat
  deriving DecidableEq, Repr

/-- A staging in progress (R144-R150). -/
structure Staging where
  cmd : Nat
  ctx : Nat
  prev : Nat
  prevFresh : Bool
  gddr : Bool
  length : Nat
  stream : Stream
  status : Option Nat
  deriving DecidableEq, Repr

/-- A partial reconfiguration job (R532-R534). -/
structure Job where
  id : Nat
  slot : Nat
  wing : Nat
  ctx : Nat
  act : Nat
  psp : Nat
  bu : Nat
  gddr : Bool
  stream : Stream
  isolated : Bool
  verified : Bool
  loaded : Bool
  deriving DecidableEq, Repr

/-- A frame as the cellar stores it, with its golden signature (R114, R536). -/
structure Frame where
  bytes : List Byte
  sig : Nat
  deriving DecidableEq, Repr

/-- An entry of the OTP lock ledger (R521). -/
structure LockEntry where
  locked : Bool
  policy : Nat
  keyHash : List Word
  deriving DecidableEq, Repr

/-- Configuration loading beside its registers (R525-R539): the design of each context, the stored planes,
the open stream, staging and jobs, the scanner, the repairs of the last second, and the I/O bank and lane setups. -/
structure Cfg where
  ctxs : List CtxCfg
  planes : Cells Frame
  stream : Option Stream
  staging : Option Staging
  jobs : List Job
  nextJob : Nat
  lock : List LockEntry
  scanAt : Nat
  scanBegan : Nat
  repairs : List (Nat × Nat)
  brokenWc : List (Nat × Nat)
  mirrorCmd : Option Nat
  endCmd : Option Nat
  lanesetGroups : List Nat
  channels : List (Nat × Nat × Nat × Bool)
  sha : BitVec 384
  toRepair : List (Nat × Bool)
  deriving DecidableEq, Repr

/-! ### Hallway packets -/

/-- A hallway packet (R272): header fields and data words; `ready` is the instant from which a router can hold it, later
than the request's entry where a perturbation delays it (R620 kind 3), `buf` the buffer of its class that it takes on its links (R279):
twice the ring it moves in, 0 row or 1 column, and 1 once it has crossed the dateline of that ring. -/
structure Packet where
  type : Nat
  dest : Nat
  init : Nat
  tag : Nat
  gen : Nat
  urg : Nat
  len : Nat
  firstbe : Nat
  lastbe : Nat
  status : Nat
  erridx : Nat
  addr : Nat
  entry : Nat
  alt : Bool
  data : List Word
  ready : Nat
  buf : Nat
  deriving DecidableEq, Repr

/-! ### Attic -/

/-- A word of attic memory (R212, R227): data, code byte, and the three stored copies of the valid bit and of the poison bit. -/
structure AWord where
  data : Word
  code : Byte
  valids : BitVec 3
  poisons : BitVec 3
  deriving DecidableEq, Repr

/-- The three copies of a bit (R227). -/
def copiesOf (b : Bool) : BitVec 3 := if b then 7 else 0

/-- The majority of three copies (R227). -/
def majority (x : BitVec 3) : Bool :=
  let b := fun (i : Nat) => decide (x.toNat / 2 ^ i % 2 = 1)
  (b 0 && b 1) || (b 0 && b 2) || (b 1 && b 2)

/-- A word's valid bit, as it is read (R227). -/
def AWord.valid (w : AWord) : Bool := majority w.valids

/-- A word's poison bit, as it is read (R227). -/
def AWord.poison (w : AWord) : Bool := majority w.poisons

/-- A word as the self-test leaves it (R240). -/
def AWord.clear : AWord := { data := 0, code := 0, valids := 0, poisons := 0 }

/-- A record of an attic error table, a GDDR6 log or an encryption log: word 0 without REPEAT, REPEAT, word 1. -/
structure LogRec where
  w0 : Nat
  rep : Nat
  w1 : Nat
  deriving DecidableEq, Repr

/-- A maintenance write held by a wing memory interface, or waiting at the steward (R224, R225); `inv` inverts code
positions instead of writing (R620 kind 6), `clear` clears the valid and poison bits instead (ATC_FILL with MODE = CLEAR), `crc` rewrites
the line's CRC after the write (the last word of a line of an ATC_FILL). -/
structure MaintWrite where
  wing : Nat
  block : Nat
  word : Nat
  data : Word
  inv : List Nat
  scrub : Bool
  clear : Bool
  crc : Bool
  deriving DecidableEq, Repr

/-- A SCRUB or ATC_FILL in progress in the towers of its range (R246, R675), with the lines moved in each wing and the instant
at which the line under way there ends (R675). -/
structure MaintJob where
  cmd : Nat
  fill : Bool
  start : Nat
  length : Nat
  writeback : Bool
  pattern : Option Word
  next : List (Nat × Nat × Nat)
  began : Nat
  read : Nat
  invalid : Nat
  corrected : Nat
  uncorrectable : Nat
  outer : Nat
  firstBad : Option Nat
  towersLeft : List Nat
  deriving DecidableEq, Repr

/-- An outer check under way after a corrected read (R234 step 4): wing, block, word, the corrected data, source,
whether a SCRUB asks for the write-back. -/
structure OuterCheck where
  wing : Nat
  block : Nat
  word : Nat
  fixed : Word
  source : Nat
  writeback : Bool
  deriving DecidableEq, Repr

/-- The owner of an attic block (R214): a context, a fold (the contexts of it that are given the block, R131), or the trace
engine. -/
inductive Owner where
  | context (c : Nat)
  | fold (cs : List Nat)
  | trace
  deriving DecidableEq, Repr

/-- Attic memory beside its registers: words by physical place, line CRCs and stale marks, block owners, the mapping,
held and waiting maintenance writes, error tables, checks and jobs under way. -/
structure Attic where
  words : Cells AWord
  lineCrc : Cells Nat
  stale : List Nat
  owner : List (Nat × Owner)
  spareFor : Cells Nat
  fieldRepair : List Nat
  retired : List (Nat × Nat)
  moves : List (Nat × Nat × Bool)
  held : List MaintWrite
  waiting : List (MaintWrite × Option (Nat × Packet))
  table : List (Nat × LogRec)
  frozen : List Nat
  satPosted : List Nat
  checks : List OuterCheck
  jobs : List MaintJob
  deriving DecidableEq, Repr

/-! ### Corridors and hallway -/

/-- A corridor group marked failing (R259-R261), with its failing half if it is one half only. -/
structure Failing where
  dir : Nat
  group : Nat
  half : Option Bool
  deriving DecidableEq, Repr

/-- Where a channel that Tolent placed on a group and slot travels after a re-map (R263). -/
structure Moved where
  ctx : Nat
  dir : Nat
  group : Nat
  slot : Nat
  toGroup : Nat
  toSlot : Nat
  deriving DecidableEq, Repr

/-- Corridors beside their registers: states of the groups (R297), what each spare stands for, groups at half width
until the step ends, failing groups, recent check failures, re-maps, where re-mapped channels travel, the record of
R268, exhausted directions, when a transfer was last pending on each group (R261). -/
structure Corr where
  group : Cells Nat
  standsFor : Cells Nat
  halfNow : List (Nat × Nat × Bool)
  failing : List Failing
  recent : List (Nat × Nat × Bool × Nat)
  remaps : List (Nat × Nat × Nat)
  moved : List Moved
  record : List (Nat × Nat × Nat)
  exhausted : List Nat
  lastXfer : Cells Nat
  deriving DecidableEq, Repr

/-- What a tag's transaction is for, at the initiator. -/
inductive Purpose where
  | bar2 (offset : Nat)
  | wingPort (ctx : Nat)
  | keeper
  | engine (consumer : Nat)
  | trace
  deriving DecidableEq, Repr

/-- A tag in use, or in quarantine since some instant (R284, R285). -/
structure TagUse where
  tag : Nat
  init : Nat
  gen : Nat
  write : Bool
  words : Nat
  target : Nat
  entry : Nat
  purpose : Purpose
  quarantine : Option Nat
  deriving DecidableEq, Repr

/-- A NOC_QUOTA that waits (R298), with the BU that its increase has been granted. -/
structure QuotaJob where
  cmd : Nat
  entries : List (Nat × Nat × Nat × Nat)
  began : Nat
  bu : Nat
  deriving DecidableEq, Repr

/-- The hallway beside its registers: packets held in routers, requests queued at targets, responses at initiators,
requests without a tag, tags and their generations, drains, ports' response buffers, histograms. -/
structure Noc where
  routers : List (Nat × Packet)
  targets : List (Nat × Packet)
  arrived : List (Nat × Packet)
  waiting : List (Nat × Packet × Purpose)
  tags : List TagUse
  gens : Cells Nat
  blocks : Cells Nat
  drains : List (Nat × Nat × Nat)
  resp : List (Nat × Nat × List Word × Nat)
  hist : Cells Nat
  quotas : List QuotaJob
  credit : Cells Nat
  lastTag : Cells Nat
  deriving DecidableEq, Repr

/-! ### GDDR6 and encryption -/

/-- An address map (R309): channel and bank positions, the column position, channel masks, and the bank masks of each
channel. -/
structure G6Map where
  cp : List Nat
  bp : List Nat
  colpos : Nat
  cm : List Nat
  bm : List (List Nat)
  deriving DecidableEq, Repr

/-- The owner of a region of external memory (R332). -/
inductive RegionOwner where
  | state | mirror | ctag | ctree | trace
  deriving DecidableEq, Repr

/-- An entry of the region table (R332). -/
structure Region where
  base : Nat
  size : Nat
  owner : RegionOwner
  deriving DecidableEq, Repr

/-- A real-time port's binding (R329). -/
structure RtPort where
  ctrl : Nat
  port : Nat
  inits : List Nat
  deriving DecidableEq, Repr

/-- A G6_INIT in progress (R319, R320, R335, R336): its command, the map that a full one applies, the requests of each
controller that were queued before it and complete first, the channels that a RETRAIN has still to train, in order, and those
that have failed, as a mask. -/
structure G6Job where
  cmd : Nat
  map : G6Map
  older : Cells Nat
  full : Bool
  word0 : Nat
  channels : Nat
  left : List Nat
  failed : Nat
  sridle : Nat
  trainper : Nat
  deriving DecidableEq, Repr

/-- A saved state image (R111): the copies, landings, banks, bank selects, step count, card positions and digest. -/
structure Image where
  ff : Cells Bool
  landing : Cells Bool
  mac : Cells MacBank
  bsel : Cells Nat
  count : Nat
  pos : List Nat
  digest : BitVec 384
  deriving DecidableEq, Repr

/-- An initialisation of protection units (R352-R357, R370): the number of the key, the units initialised, the protected units,
the TREE units, the first unit of the window and its units, the high-water mark of each channel from which the leaves of a unit
start (keyed `64 * channel + unit`), the address map. -/
structure Seal where
  key : Nat
  units : List Nat
  prot : List Nat
  tree : List Nat
  first : Nat
  count : Nat
  base : Cells Nat
  map : G6Map
  deriving DecidableEq, Repr

/-- What gave many words of the memory their contents at once: an initialisation of protection units, or the state image of a
STATE_SAVE at a base, with its number. -/
inductive FillKind where
  | sealed (x : Seal)
  | image (base id : Nat)
  deriving DecidableEq, Repr

/-- A fill of the memory, with the losses that each unit and channel had had before it. -/
structure Fill where
  kind : FillKind
  epochs : Cells Nat
  deriving DecidableEq, Repr

/-- GDDR6 beside its registers: maps, settings of G6_INIT, the stored words (keyed by hallway word address; ciphertext and metadata
as they lie in the devices), where unlisted what the newest fill gives, else an open value (`epochs` counts the losses of contents
of a unit and channel), inverted code positions, regions, saved images, real-time ports, logs, the G6_INIT in progress, the last
access, retraining and refresh of each channel, retrainings owed with their ends, the code bursts cached (R323), queued writes
that are answered (R315), refreshes, the save in progress. -/
structure G6 where
  pend : G6Map
  active : Option G6Map
  eccwb : Bool
  sridle : Nat
  trainper : Nat
  refmode : Bool
  ref2x : Bool
  epochs : Cells Nat
  words : Cells (Option Word)
  fills : List Fill
  flips : Cells (List Nat)
  codeCache : List (Nat × Nat)
  answered : List Packet
  regions : List (Nat × Region)
  images : List (Nat × Image)
  rt : List RtPort
  rtTurn : Cells Nat
  log : List (Nat × LogRec)
  frozen : List Nat
  downLogged : List Nat
  job : Option G6Job
  lastAccess : Cells Nat
  lastTrain : Cells Nat
  trainOwed : List (Nat × Bool)
  refreshes : Cells Nat
  refreshAt : Cells Nat
  save : Option (Nat × Nat × Image)
  deriving DecidableEq, Repr

/-- A blocked-list entry (R363, R364). -/
structure Blocked where
  channel : Nat
  level : Nat
  node : Nat
  firstUnit : Nat
  lastUnit : Nat
  deriving DecidableEq, Repr

/-- A node of a counter tree in its porch's node cache (R358, R359): its 64 bytes, byte 0 in bits [7:0], and whether it is dirty. -/
structure CacheNode where
  channel : Nat
  level : Nat
  node : Nat
  data : BitVec 512
  dirty : Bool
  deriving DecidableEq, Repr

/-- Encryption beside its registers (R340-R366): how many start keys have been drawn, high-water marks, the roots of the channels
(the hashes of their top-level nodes), the node caches, oldest node first, blocked subtrees, groups whose major counter is exhausted
(channel and leaf, R361), units that refuse accesses (R367), logs, the SET or REINIT in progress. -/
structure Crypt where
  keys : Nat
  highwater : Cells Nat
  roots : List (Nat × List Nat)
  cache : List CacheNode
  blocked : List Blocked
  stuck : List (Nat × Nat)
  refuse : List Nat
  log : List (Nat × LogRec)
  frozen : List Nat
  job : Option (Nat × List Nat × Bool)
  deriving DecidableEq, Repr

/-! ### Lanes and time -/

/-- A Reel link frame (R386, R387). -/
structure LFrame where
  kind : Nat
  fseq : Nat
  expseq : Nat
  credit : Nat
  word : Word
  payload : List Word
  pos : Nat
  again : Bool
  deriving DecidableEq, Repr

/-- A fabric lane bond group (R380-R404) and its Reel link state (R390-R393): the partner, whether the link has not come up
since its setup, whether the partner's next CREDIT recounts, frames held and queued, go-backs in a row, the landing
buffer, the test loop (lane, kind, the PRBS command, its end), sync numbers and stamps in units of 2^-16 ns. -/
structure Group where
  first : Nat
  wlog : Nat
  pseat : Nat
  pfirst : Nat
  fresh : Bool
  recount : Bool
  txHeld : List LFrame
  txQueue : List LFrame
  goBacks : Nat
  ackedAt : Nat
  nackUntil : Option Nat
  unacked : Bool
  startAt : Nat
  landing : List (Nat × Nat × List Word)
  freed : Nat
  loop : Option (Nat × Nat × Option Nat × Nat)
  syncNo : Nat
  syncAt : Nat
  syncTxs : List (Nat × Nat)
  syncRx : Nat
  partnerSync : Nat
  meas : Option (Int × Int)
  wakeUntil : Option Nat
  downAt : Nat
  sent : List LFrame
  unsent : Nat
  deriving DecidableEq, Repr

/-- A time domain (R420-R424): times are in units of 2^-32 ns. -/
structure Domain where
  time : Nat
  rate : Nat
  good : Nat
  lane : Nat
  delayPeer : Bool
  transport : Nat
  synclog : Nat
  serve : Nat
  timed : Bool
  asym : Int
  pathDelay : Int
  heardAt : Nat
  frameCues : List (Nat × Nat)
  deriving DecidableEq, Repr

/-- A joined reel (R444, R453): times in ns times 2^16, periods in 0.125 ns.  `closed` is the last step whose promise
window has closed, with its L_m, and `late` that step's late channels (R450). -/
structure Reel where
  t0 : Nat
  period : Nat
  guard : Nat
  m0 : Nat
  slip : Nat
  hold : Int
  groups : List Nat
  stopAt : Option (Nat × Nat)
  closed : Option (Nat × Nat)
  late : List Nat
  deriving DecidableEq, Repr

/-- A stamp of a capture FIFO (R442): seconds, nanoseconds, fraction, edge. -/
structure Stamp where
  sec : Nat
  ns : Nat
  frac : Nat
  rising : Bool
  deriving DecidableEq, Repr

/-- The time unit beside its registers: the output time in units of 2^-32 ns since the epoch, the phase of the time clock
(in thousandths of a femtosecond of the nominal clock, so that a coasting loop's slower ticks add exactly), the domains, the capture FIFOs, the reel, whether ML1 has started. -/
structure TimeU where
  out : Nat
  phase : Nat
  domA : Domain
  domB : Domain
  caps : List (List Stamp)
  capLast : List (Option Nat)
  reel : Option Reel
  ml1 : Bool
  ethTx : List Nat
  ethRx : List Nat
  ethBusy : List Nat
  deriving DecidableEq, Repr

/-! ### Clocks, power, firmware, debug, pins -/

/-- The current ledger (R569-R572): BU held by each holder code, the host pool, BU set aside for each code, and those of
them that are lent to the tests of an exit from PATROL (R39). -/
structure Ledger where
  held : Cells Nat
  pool : Nat
  aside : Cells Nat
  lent : Nat
  deriving DecidableEq, Repr

/-- A CLK_MEASURE in progress (R582): its command, clock and gate in ms, when it began, whether the clock's loop relocked
during it (R580). -/
structure Measuring where
  cmd : Nat
  clock : Nat
  gate : Nat
  began : Nat
  relocked : Bool
  deriving DecidableEq, Repr

/-- Clocks beside their registers: requested frequencies and references of ML9 to ML11, switches pending since when and
for which command, measurements in progress, clocks forced lost (R620 kind 8), when each periodic measurement last ran, by series
(R70, R559, R573, R574, R668). -/
structure Clocks where
  loopRef : Cells Nat
  freq : Cells Nat
  outDepth : Cells Nat
  outRate : Cells Nat
  pend : List (Nat × Nat × Option Nat × Bool)
  measures : List Measuring
  forced : List Nat
  sampledAt : Cells Nat
  deriving DecidableEq, Repr

/-- Power beside its registers: the change of state under way (its target, its command, when it began) and the cause of a
wake that comes during an entry, the patrol sampler's settings (R582), measurements above the cap in a row, when the
current fell below it, sensors at 110 °C or more at the last reading, layers and porches in THERMAL_HIGH, THERMTRIP_N,
the instant up to which the output time stands in PATROL, the last patrol sample, the thermal levels of each tower's cellar and
floor, when the domains that woke in HOLD had their last access, the groups that
NAP put to sleep (first lane, transmitters, receivers), whether an exit from NAP waits for its refills alone (R121). -/
structure Power where
  target : Option (Nat × Option Nat × Nat)
  wake : Option Nat
  interval : Nat
  action : Bool
  limits : List (Nat × Nat × Bool)
  alarmEn : Nat
  alarmHigh : Nat
  overCnt : Nat
  belowSince : Option Nat
  hot : List Nat
  high : List Nat
  tripLow : Bool
  entryAt : Nat
  sampled : Nat
  cellarLvl : Cells Nat
  floorLvl : Cells Nat
  domIdle : List (Nat × Nat)
  napSlept : List (Nat × Bool × Bool)
  napBack : Bool
  deriving DecidableEq, Repr

/-- A slot image of the flash (R629, R632). -/
structure SlotImg where
  bytes : List Byte
  staged : Bool
  deriving DecidableEq, Repr

/-- One copy of the boot record (R630). -/
structure BootRec where
  seq : Nat
  slot : Nat
  prev : Nat
  state : Nat
  deriving DecidableEq, Repr

/-- A settings store (R640): SETVER, the history of the last 16 updates, counts of start-ups, fallbacks and trips. -/
structure Store where
  setver : Nat
  history : List (Word × Word)
  starts : Nat
  fallbacks : Nat
  trips : Nat
  deriving DecidableEq, Repr

/-- An open firmware staging (R635): the header's numbers and digest, body received, image built. -/
structure FwStage where
  full : Bool
  targetLen : Nat
  bodyLen : Nat
  digest : BitVec 384
  body : List Byte
  built : List Byte
  deriving DecidableEq, Repr

/-- The firmware flash and update (R629-R642): slot images, boot record copies, settings stores, the rollback floor, an
open staging, the cue of a pending activation, the instant of the match whose restart is under way, the instant since which
Keeper runs from ROM, the match since which the image is on trial, whether its first start is still to come and FW_FALLBACK
still owed, the routers in service before the restart. -/
structure Fw where
  slots : List (Option SlotImg)
  boot : List (Option BootRec)
  stores : List Store
  floor : Nat
  stage : Option FwStage
  pending : Option Nat
  restart : Option Nat
  romAt : Option Nat
  trialFrom : Option Nat
  firstStart : Bool
  fallbackOwed : Bool
  routersBefore : Nat
  deriving DecidableEq, Repr

/-- An entry of the OTP repair ledger (R599) or of the manufacturing record: kind 0 bond repair, 1 condemned room, 2 wing
whose memory bundle failed, 3 block move, 4 block retirement, 5 wing whose channel bundle failed; wing, item (for kind 0
the crossing's key) and, for kind 0, the bonds or TSVs that spares stand in for. -/
structure Repair where
  kind : Nat
  wing : Nat
  item : Nat
  bonds : List Nat
  deriving DecidableEq, Repr

/-- Which start-up check of a tower fails beyond its spares (R605, SELFTEST_FAIL). -/
inductive CheckFail where
  | beatLoop | calibration | bonds | su | timeout
  deriving DecidableEq, Repr

/-- A reset that RESET has asked for (R591): its scope and unit (tower, 64 * tower + wing, or porch), the BU of the test
grants that the request took (R592), whether it has begun, which it does once its reply is written, and whether what it reset is
back and only the refills of its latch loads are outstanding (R121, R595). -/
structure ResetJob where
  scope : Nat
  unit : Nat
  bu : Nat
  begun : Bool
  back : Bool
  deriving DecidableEq, Repr

/-- One-time programmable memory, retention memory, and the resets and start-ups under way (R586-R600): what manufacturing
test recorded (R26, R211), the repair ledger,
the repairs held beside it, avoid map entries that are not from the ledger, whether REPAIR_LEDGER_FULL is posted, the seat,
the release of DEV_RST_N, the towers that run R38 (since when, and the BU of their test grants once they hold them), the
resets under way, whether the towers start when Keeper runs, whether the start-up follows DEV_RST_N, whether a check of
it has failed. -/
structure Dev where
  made : List Repair
  ledger : List Repair
  retainedRepairs : List Repair
  avoidOther : List (Nat × Nat × Nat × Nat × Nat)
  fullPosted : Bool
  seat : Nat
  releasedAt : Nat
  startup : List (Nat × Nat × Option Nat)
  resets : List ResetJob
  towersOwed : Bool
  cold : Bool
  bad : Bool
  deriving DecidableEq, Repr

/-- A selected probe tap (R608): wing, tap, cell, output, context, mode, and its committed value. -/
structure Tap where
  wing : Nat
  tap : Nat
  room : Nat
  cell : Nat
  output : Nat
  ctx : Nat
  live : Bool
  dest : Nat
  bank : Nat
  pin : Nat
  value : Bool
  pend : Option Bool
  deriving DecidableEq, Repr

/-- A trace record (R614, R615): step number, the tap words, GAP. -/
structure TraceRec where
  step : Nat
  taps : List Word
  gap : Bool
  deriving DecidableEq, Repr

/-- The trace engine (R613-R618). -/
structure Trace where
  qual : Bool
  trigsel : Nat
  cue : Nat
  tval : Bool
  bfirst : Nat
  blast : Nat
  post : Nat
  tstep : Nat
  trigTap : Nat
  qualTap : Nat
  wings : List Nat
  base : Nat
  size : Nat
  recs : List TraceRec
  trigAt : Option Nat
  postLeft : Option Nat
  buffered : Nat
  cueHit : Bool
  gap : Bool
  count : Nat
  held : Bool
  deriving DecidableEq, Repr

/-- A perturbation slot (R620): kind and payload words 1 to 3, and whether it acts yet. -/
structure Pert where
  slot : Nat
  kind : Nat
  w1 : Word
  w2 : Word
  w3 : Word
  acts : Bool
  ending : Bool
  deriving DecidableEq, Repr

/-- Probes, trace and perturbation beside their registers. -/
structure Dbg where
  taps : List Tap
  trace : Option Trace
  perts : List Pert
  challenge : Option (Half × Nat)
  deriving DecidableEq, Repr

/-- A bank FIFO (R105): entries with the instant from which each may be seen, and the overflow flag. -/
structure BankFifo where
  bank : Nat
  fifo : Nat
  output : Bool
  entries : List (Word × Nat)
  ovf : Bool
  deriving DecidableEq, Repr

/-- Pins (R658-R673): levels the board drives on user inputs, levels the device drives, the last level seen by a keeper,
bank setups, timed outputs waiting, bank FIFOs, probe pins, the TAP instruction. -/
structure Pins where
  input : Cells Bool
  driven : List Nat
  output : List (Nat × Bool)
  keeper : List (Nat × Bool)
  pinWord : Cells Word
  timed : List (Nat × Bool)
  fifos : List BankFifo
  probe : List (Nat × Bool)
  tap : TapInstr
  deriving DecidableEq, Repr

/-- The state of the block.  `now` counts femtoseconds, `free` counts the free values taken, `inReset` is 1 while
DEV_RST_N is low, `out` is what the device has sent over PCIe and the service port, `pending` is the queue of commands
that wait, first in, first out. -/
structure State where
  now : Nat
  free : Nat
  inReset : Bool
  regs : Cells Word
  out : List PcieMsg
  hif : Hif
  step : StepEng
  fab : Fabric
  cfg : Cfg
  attic : Attic
  corr : Corr
  noc : Noc
  g6 : G6
  crypt : Crypt
  groups : List Group
  time : TimeU
  ledger : Ledger
  clk : Clocks
  pwr : Power
  fw : Fw
  dev : Dev
  dbg : Dbg
  pins : Pins
  pending : List Instr
  deriving DecidableEq, Repr

/-! ### The state after reset -/

/-- The plain interleave that the pending map is after DEV_RST_N (R312). -/
def G6Map.plain : G6Map :=
  { cp := [9, 10, 11, 12], bp := [13, 14, 15, 16], colpos := 5,
    cm := [2 ^ 9, 2 ^ 10, 2 ^ 11, 2 ^ 12],
    bm := List.replicate 16 [2 ^ 13, 2 ^ 14, 2 ^ 15, 2 ^ 16] }

/-- A time domain that is OFF (R422), at the nominal rate word of R417. -/
def Domain.off : Domain :=
  { time := 0, rate := 0x2_0000_0000, good := 0, lane := 0, delayPeer := false, transport := 0, synclog := 0,
    serve := 0, timed := false, asym := 0, pathDelay := 0, heardAt := 0, frameCues := [] }

/-- A settings store that holds nothing. -/
def Store.empty : Store := { setver := 0, history := [], starts := 0, fallbacks := 0, trips := 0 }

/-- The host link after DEV_RST_N (R505): rings disabled, no command in progress, ESEQ 0 (R498). -/
def Hif.reset : Hif :=
  { nextId := 0, gen := 0, fetched := [], tailWait := none, running := [], replies := [], svcReplies := [], eseq := 0,
    dropTotal := 0, drops := [], droppedSince := false, retained := [], windows := [], heldEvents := [],
    holding := false, irqLast := [none, none], irqWant := [false, false], msixOn := true, msixTable := List.replicate 4 (0, 0), autoBw := false, bme := false, d3hot := false,
    perst := false }

/-- The step engine after DEV_RST_N (R112). -/
def StepEng.reset : StepEng :=
  { op := none, strict := false, run := none, cur := none, saved := none, atRisk := false, haltReq := false, haltCmds := [], lastLaunch := none,
    closingOwed := false, faultOwed := false, aheadBad := false, ret := none, lastEnd := 0, startWait := none, overdraw := 0,
    loadUntil := 0 }

/-- The fabric after DEV_RST_N: every wing off (R29), nothing captured, nothing isolated for a fault. -/
def Fabric.reset : Fabric :=
  { ff := [], ffPend := [], landing := [], landingCopy := [], mac := [], macPend := [], bsel := [], bselPend := [],
    inVal := [], inCommitted := [], srcIso := [], porchVal := [], porchCommitted := [], tokenStep := [],
    atticPend := [], poisonClrPend := [], nocPend := [], fifoPend := [], powered := [], isoJob := [], isoReset := [],
    condemned := [], failed := [], memFailed := [], chanFailed := [], active := [], next := [], su := [], trim := [], poison := [],
    poisonRaise := [], spared := [], tuned := [], taps := [], refills := [] }

/-- Configuration loading after DEV_RST_N: nothing loaded. -/
def Cfg.reset : Cfg :=
  { ctxs := [.empty, .empty, .empty, .empty], planes := [],
    stream := none, staging := none, jobs := [], nextJob := 1, lock := [], scanAt := 0, scanBegan := 0, repairs := [],
    brokenWc := [], mirrorCmd := none, endCmd := none, lanesetGroups := [], channels := [], sha := 0,
    toRepair := [] }

/-- Attic memory after DEV_RST_N: contents lost (R594), every word invalid. -/
def Attic.reset : Attic :=
  { words := [], lineCrc := [], stale := [], owner := [], spareFor := [], fieldRepair := [], retired := [],
    moves := [], held := [], waiting := [], table := [], frozen := [], satPosted := [], checks := [], jobs := [] }

/-- Corridors after DEV_RST_N: every group working, the record of R268 cleared. -/
def Corr.reset : Corr :=
  { group := [], standsFor := [], halfNow := [], failing := [], recent := [], remaps := [], moved := [], record := [],
    exhausted := [], lastXfer := [] }

/-- The hallway after DEV_RST_N: no packet, no tag in use. -/
def Noc.reset : Noc :=
  { routers := [], targets := [], arrived := [], waiting := [], tags := [], gens := [], blocks := [], drains := [],
    resp := [], hist := [], quotas := [], credit := [], lastTag := [] }

/-- GDDR6 after DEV_RST_N: uninitialised, the plain interleave pending (R312). -/
def G6.reset : G6 :=
  { pend := .plain, active := none, eccwb := false, sridle := 0, trainper := 0, refmode := false, ref2x := false,
    epochs := [], words := [], fills := [], flips := [], codeCache := [], answered := [], regions := [], images := [], rt := [], rtTurn := [], log := [], frozen := [], downLogged := [],
    job := none, lastAccess := [], lastTrain := [], trainOwed := [], refreshes := [], refreshAt := [], save := none }

/-- Encryption after DEV_RST_N: no key (R343), every unit OFF. -/
def Crypt.reset : Crypt :=
  { keys := 0, highwater := [], roots := [], cache := [], blocked := [], stuck := [], refuse := [], log := [], frozen := [],
    job := none }

/-- The time unit after DEV_RST_N: both domains OFF, nominal rate (R428). -/
def TimeU.reset : TimeU :=
  { out := 0, phase := 0, domA := .off, domB := .off, caps := List.replicate 8 [], capLast := List.replicate 8 none,
    reel := none, ml1 := false, ethTx := List.replicate 4 0, ethRx := List.replicate 4 0,
    ethBusy := List.replicate 4 0 }

/-- The ledger after DEV_RST_N: nothing granted until Brynivit runs (R586). -/
def Ledger.reset : Ledger := { held := [], pool := 0, aside := [], lent := 0 }

/-- Clocks after DEV_RST_N. -/
def Clocks.reset : Clocks :=
  { loopRef := [], freq := [], outDepth := [], outRate := [], pend := [], measures := [], forced := [], sampledAt := [] }

/-- Power after DEV_RST_N: ACTIVE, the patrol sampler at the settings PATROL_SETUP names for that moment (R582). -/
def Power.reset : Power :=
  { target := none, wake := none, interval := 1000, action := true,
    limits := [(0, 100, true), (0, 0, false), (0, 0, false), (0, 0, false), (0, 0, false)], alarmEn := 0,
    alarmHigh := 0, overCnt := 0, belowSince := none, hot := [], high := [], tripLow := false,
    entryAt := 0, sampled := 0, cellarLvl := [], floorLvl := [], domIdle := [], napSlept := [], napBack := false }

/-- The firmware flash of a device whose slots are empty: both boot record copies and both slots invalid. -/
def Fw.blank : Fw :=
  { slots := [none, none], boot := [none, none], stores := [.empty, .empty], floor := 0, stage := none,
    pending := none, restart := none, romAt := none, trialFrom := none, firstStart := false, fallbackOwed := false,
    routersBefore := 0 }

/-- A device whose OTP ledgers are empty, held in reset. -/
def Dev.reset : Dev :=
  { made := [], ledger := [], retainedRepairs := [], avoidOther := [], fullPosted := false, seat := 0, releasedAt := 0,
    startup := [], resets := [], towersOwed := false, cold := false, bad := false }

/-- Probes and perturbation after DEV_RST_N. -/
def Dbg.reset : Dbg := { taps := [], trace := none, perts := [], challenge := none }

/-- Pins after DEV_RST_N: user I/O, probes and CLK_OUT at high impedance (R658). -/
def Pins.reset : Pins :=
  { input := [], driven := [], output := [], keeper := [],
    pinWord := [], timed := [], fifos := [], probe := [], tap := .bypass }

/-- The machine right after reset: DEV_RST_N is low, every register field reads its Reset column (R16), nothing is
granted, loaded or in progress, and no command waits. -/
def State.reset : State :=
  { now := 0, free := 0, inReset := true, regs := [], out := [], hif := .reset, step := .reset, fab := .reset,
    cfg := .reset, attic := .reset, corr := .reset, noc := .reset, g6 := .reset, crypt := .reset, groups := [],
    time := .reset, ledger := .reset, clk := .reset, pwr := .reset, fw := .blank, dev := .reset, dbg := .reset,
    pins := .reset, pending := [] }

end Sys2Proof.Machine
end

