-- ==== Sys2Proof/Machine/Bits.lean ====
section
/-! DEFINITION. Bit fields of words (00_scope.md, numbers and units), byte orders, the three cyclic redundancy checks of
the manual (R231 and R272, R388, R510) and the SEC-DED code of R230. -/

namespace Sys2Proof.Machine

/-- Bits `[hi:lo]` of a number. -/
def bits (n hi lo : Nat) : Nat := n / 2 ^ lo % 2 ^ (hi + 1 - lo)

/-- One bit of a number. -/
def bit (n i : Nat) : Bool := n / 2 ^ i % 2 == 1

/-- A number with bits `[hi:lo]` replaced. -/
def setBits (n hi lo v : Nat) : Nat :=
  n - bits n hi lo * 2 ^ lo + v % 2 ^ (hi + 1 - lo) * 2 ^ lo

/-- A flag as a number. -/
def b2n (b : Bool) : Nat := if b then 1 else 0

/-- Bits `[hi:lo]` of a word. -/
def fieldOf (w : Word) (hi lo : Nat) : Nat := bits w.toNat hi lo

/-- Bit `i` of a word. -/
def flagOf (w : Word) (i : Nat) : Bool := bit w.toNat i

/-- A number as a word. -/
def toWord (n : Nat) : Word := BitVec.ofNat 64 n

/-- A saturating sum at `w` bits (R17). -/
def satAdd (w a b : Nat) : Nat := min (a + b) (2 ^ w - 1)

/-- The signed value of the low `w` bits of a number. -/
def signed (w n : Nat) : Int := if n % 2 ^ w < 2 ^ (w - 1) then (n % 2 ^ w : Nat) else (n % 2 ^ w : Nat) - (2 ^ w : Nat)

/-- The low `w` bits of an integer in two's complement. -/
def unsigned (w : Nat) (i : Int) : Nat := (i % (2 ^ w : Nat)).toNat

/-- The number that bytes spell, byte 0 least significant (R9, R508). -/
def leNat : List Byte → Nat
  | [] => 0
  | b :: bs => b.toNat + 256 * leNat bs

/-- The number that bytes spell, byte 0 most significant. -/
def beNat (bs : List Byte) : Nat := leNat bs.reverse

/-- The `k` low bytes of a number, least significant first. -/
def leBytes : Nat → Nat → List Byte
  | 0, _ => []
  | k + 1, n => BitVec.ofNat 8 n :: leBytes k (n / 256)

/-- The bytes of words, in little-endian order (R508). -/
def wordBytes (ws : List Word) : List Byte := ws.flatMap fun w => leBytes 8 w.toNat

/-- The words that bytes spell; a short last group is padded with zero bytes. -/
def bytesWordsFuel : Nat → List Byte → List Word
  | 0, _ => []
  | _ + 1, [] => []
  | k + 1, bs => toWord (leNat (bs.take 8)) :: bytesWordsFuel k (bs.drop 8)

/-- The 64-bit words of a byte string. -/
def bytesWords (bs : List Byte) : List Word := bytesWordsFuel bs.length bs

/-- `n` bytes from offset `o`. -/
def slice (bs : List Byte) (o n : Nat) : List Byte := (bs.drop o).take n

/-- Whether every byte is zero. -/
def allZero (bs : List Byte) : Bool := bs.all fun b => b == 0

/-- One bit of a non-reflected CRC of `w` bits. -/
def crcBit (w poly : Nat) (reg : Nat) (b : Bool) : Nat :=
  let top := bit reg (w - 1)
  let shifted := reg * 2 % 2 ^ w
  if top != b then Nat.xor shifted poly else shifted

/-- CRC-16 over bits, most significant first, generator 0x1021, initial value 0xFFFF (R231, R272).  The manual states no
bit order for this code; the model takes the bits of each byte or header from its most significant end (DESIGN CHOICE,
assumption 9). -/
def crc16 (bs : List Bool) : Nat := bs.foldl (crcBit 16 0x1021) 0xFFFF

/-- One byte of a reflected CRC-32 whose reflected generator is `poly`. -/
def crcByteLoop (poly : Nat) : Nat → Nat → Nat
  | 0, r => r
  | k + 1, r => crcByteLoop poly k (if bit r 0 then Nat.xor (r / 2) poly else r / 2)

/-- A reflected CRC-32 with initial value all ones and final inversion. -/
def crcReflected (poly : Nat) (bs : List Byte) : Nat :=
  Nat.xor (bs.foldl (fun r b => crcByteLoop poly 8 (Nat.xor r b.toNat)) 0xFFFFFFFF) 0xFFFFFFFF

/-- The CRC-32 of R388, generator 0x04C1_1DB7, reflected. -/
def crc32 (bs : List Byte) : Nat := crcReflected 0xEDB88320 bs

/-- The CRC-32C of R510, generator 0x1EDC_6F41, reflected. -/
def crc32c (bs : List Byte) : Nat := crcReflected 0x82F63B78 bs

/-- The bits of a number, most significant first. -/
def bitsMsb : Nat → Nat → List Bool
  | 0, _ => []
  | k + 1, n => bit n k :: bitsMsb k n

/-- How many ones the low `k` bits of a number hold. -/
def popcount : Nat → Nat → Nat
  | 0, _ => 0
  | k + 1, n => b2n (bit n k) + popcount k n

/-- The columns of the data bits of R230: the 8-bit values with three bits set, in increasing order, then the eight
smallest with five. -/
def dataColumns : List Nat :=
  (List.range 256).filter (fun v => popcount 8 v = 3) ++ ((List.range 256).filter fun v => popcount 8 v = 5).take 8

/-- The column of code position `i` (R230). -/
def column (i : Nat) : Nat := if i < 64 then dataColumns.getD i 0 else 2 ^ (i - 64)

/-- The code byte of 64 data bits (R230). -/
def secded (data : Nat) : Nat :=
  dataColumns.zipIdx.foldl (fun acc ci => if bit data ci.2 then Nat.xor acc ci.1 else acc) 0

/-- What a check of a stored word finds (R230). -/
inductive CodeCheck where
  | clean
  | single (position syndrome : Nat)
  | uncorrectable (syndrome : Nat)
  deriving DecidableEq, Repr

/-- The inner-code check of R230 on stored data and code. -/
def checkCode (data code : Nat) : CodeCheck :=
  let syn := Nat.xor code (secded data)
  if syn = 0 then .clean
  else match (List.range 72).find? (fun i => column i = syn) with
    | some i => .single i syn
    | none => .uncorrectable syn

/-- The data of a word with the bit at a code position inverted; a check bit's position leaves the data as it is. -/
def flipData (data position : Nat) : Nat := if position < 64 then Nat.xor data (2 ^ position) else data

/-- The code byte with the bit at a code position inverted. -/
def flipCode (code position : Nat) : Nat := if position < 64 then code else Nat.xor code (2 ^ (position - 64))

/-- `max` over a list, 0 for none. -/
def maxList (l : List Nat) : Nat := l.foldl max 0

/-- The smallest number of a range that a test accepts. -/
def firstFree (n : Nat) (ok : Nat → Bool) : Option Nat := (List.range n).find? ok

/-- `⌈a / b⌉`. -/
def ceilDiv (a b : Nat) : Nat := (a + b - 1) / b

end Sys2Proof.Machine
end

