-- ==== Sys2Proof/Machine/Cells.lean ====
section
/-! DEFINITION. Sparse stores: reading and writing `Cells` (`Machine/State.lean`).  The default is a function of the key,
so that a register file's unlisted registers read as their reset values. -/

namespace Sys2Proof.Machine

/-- What key `a` reads as: its entry, or the default. -/
def Cells.get {V : Type} (d : Nat → V) : Cells V → Nat → V
  | [], a => d a
  | (k, v) :: m, a => if a = k then v else Cells.get d m a

/-- The store without key `a`. -/
def Cells.drop {V : Type} : Cells V → Nat → Cells V
  | [], _ => []
  | (k, v) :: m, a => if k = a then Cells.drop m a else (k, v) :: Cells.drop m a

/-- The store with an entry put in its place among rising keys. -/
def Cells.put {V : Type} : Cells V → Nat → V → Cells V
  | [], a, v => [(a, v)]
  | (k, w) :: m, a, v => if a < k then (a, v) :: (k, w) :: m else (k, w) :: Cells.put m a v

/-- The store in which `a` reads as `v`; writing the default removes the entry. -/
def Cells.set {V : Type} [DecidableEq V] (d : Nat → V) (m : Cells V) (a : Nat) (v : V) : Cells V :=
  if v = d a then m.drop a else (m.drop a).put a v

/-- Every key of the store is above `a`. -/
def Cells.above {V : Type} (a : Nat) : Cells V → Bool
  | [] => true
  | (k, _) :: _ => decide (a < k)

/-- The canonical form: keys strictly rising, no entry equal to the default. -/
def Cells.wf {V : Type} [DecidableEq V] (d : Nat → V) : Cells V → Bool
  | [] => true
  | (k, v) :: m => decide (v ≠ d k) && Cells.above k m && Cells.wf d m

/-- A store read with one default for every key. -/
def Cells.at {V : Type} (d : V) (m : Cells V) (a : Nat) : V := m.get (fun _ => d) a

/-- A store written with one default for every key. -/
def Cells.upd {V : Type} [DecidableEq V] (d : V) (m : Cells V) (a : Nat) (v : V) : Cells V := m.set (fun _ => d) a v

end Sys2Proof.Machine
end

