-- ==== Sys2Proof/Machine/Flags.lean ====
section
/-! DEFINITION. Status codes (R494), severities and sources of events (R497), step engine states and stop causes (R82,
R112), and the fields of the register file: reading and writing a field, counters that saturate (R17), and `State.view`,
the registers whose value follows other state. -/

namespace Sys2Proof.Machine

/-! ### Codes -/

/-- STATUS OK (R494). -/
def stOk : Nat := 0x00
/-- STATUS BUSY (R494). -/
def stBusy : Nat := 0x01
/-- STATUS BAD_OPCODE (R494). -/
def stBadOpcode : Nat := 0x02
/-- STATUS LENGTH_ERROR (R494). -/
def stLength : Nat := 0x03
/-- STATUS BAD_PARAM (R494). -/
def stBadParam : Nat := 0x04
/-- STATUS REFUSED_STATE (R494). -/
def stState : Nat := 0x05
/-- STATUS REFUSED_LOCK (R494). -/
def stLock : Nat := 0x06
/-- STATUS REFUSED_BUDGET (R494). -/
def stBudget : Nat := 0x07
/-- STATUS AUTH_FAIL (R494). -/
def stAuth : Nat := 0x08
/-- STATUS WRONG_DEVICE (R494). -/
def stWrongDevice : Nat := 0x09
/-- STATUS TRUNCATED (R494). -/
def stTruncated : Nat := 0x0A
/-- STATUS TIMEOUT (R494). -/
def stTimeout : Nat := 0x0B
/-- STATUS HW_FAULT (R494). -/
def stHwFault : Nat := 0x0C
/-- STATUS ABORTED (R494). -/
def stAborted : Nat := 0x0D
/-- STATUS RESOURCE_TAKEN (R494). -/
def stTaken : Nat := 0x0E
/-- STATUS SERVICE_PORT_ONLY (R494). -/
def stServiceOnly : Nat := 0x0F

/-- SEVERITY INFO (R497). -/
def sevInfo : Nat := 0
/-- SEVERITY WARN (R497). -/
def sevWarn : Nat := 1
/-- SEVERITY ERROR (R497). -/
def sevError : Nat := 2
/-- SEVERITY FATAL (R497). -/
def sevFatal : Nat := 3

/-- SOURCE PN (R497). -/
def srcPn : Nat := 8
/-- SOURCE PS (R497). -/
def srcPs : Nat := 9
/-- SOURCE, the device as a whole (R497). -/
def srcDevice : Nat := 15

/-- Step engine state UNCONFIGURED (R82). -/
def seUnconfigured : Nat := 0
/-- Step engine state HALTED (R82). -/
def seHalted : Nat := 1
/-- Step engine state RUNNING (R82). -/
def seRunning : Nat := 2
/-- Step engine state HUNG (R82). -/
def seHung : Nat := 3
/-- Step engine state FAULT (R82). -/
def seFault : Nat := 4

/-- Femtoseconds of one tick of 0.125 ns (R76). -/
def fsTick : Nat := 125000
/-- Femtoseconds of 1 ns.  In a proof, compare times by rewriting (`Option.any_some`, `decide_eq_true`), not by `show`
or `exact` across a `decide`: the kernel would count to the constant. -/
def fsNs : Nat := 1000000
/-- Femtoseconds of 1 µs. -/
def fsUs : Nat := 1000000000
/-- Femtoseconds of 1 ms. -/
def fsMs : Nat := 1000000000000
/-- Femtoseconds of one period of the 500 MHz time clock (R31, R417). -/
def fsClock : Nat := 2000000

/-! ### The register file -/

/-- The stored value of the register at offset `a`. -/
def State.stored (s : State) (a : Nat) : Word := s.regs.get regReset a

/-- The state with the register at offset `a` storing `w`. -/
def State.store (s : State) (a : Nat) (w : Word) : State := { s with regs := s.regs.set regReset a w }

/-- The value a register field holds. -/
def State.rd (s : State) (f : Field) : Nat := bits (s.stored f.addr).toNat f.hi f.lo

/-- The state with a register field holding `v`. -/
def State.wr (s : State) (f : Field) (v : Nat) : State :=
  s.store f.addr (toWord (setBits (s.stored f.addr).toNat f.hi f.lo v))

/-- A one-bit field as a flag. -/
def State.rdb (s : State) (f : Field) : Bool := s.rd f != 0

/-- A one-bit field written from a flag. -/
def State.wrb (s : State) (f : Field) (b : Bool) : State := s.wr f (b2n b)

/-- A saturating counter field increased by `n` (R17). -/
def State.count (s : State) (f : Field) (n : Nat) : State := s.wr f (satAdd (f.hi + 1 - f.lo) (s.rd f) n)

/-- A field raised to `v` if it holds less. -/
def State.raise (s : State) (f : Field) (v : Nat) : State :=
  s.wr f (max (s.rd f) (min v (2 ^ (f.hi + 1 - f.lo) - 1)))

/-- Every register from offset `lo` up to, and without, `hi` at its reset value (R16). -/
def State.resetRegs (s : State) (lo hi : Nat) : State :=
  { s with regs := s.regs.filter fun kv => kv.1 < lo || hi ≤ kv.1 }

/-- The state of the step engine (R82). -/
def State.engine (s : State) : Nat := s.rd Reg.STEP.STAT.STATE

/-- Steps run or one hangs: RUNNING or HUNG. -/
def State.stepping (s : State) : Bool := s.engine == seRunning || s.engine == seHung

/-- An operation holds the step engine: CTX_MODE or CTX_SELECT, a run that waits for a closing SWITCH (R124), the end of
an activation (R121), or refills that serve an operation. -/
def State.engineBusy (s : State) : Bool :=
  s.step.op.isSome || s.step.startWait.isSome || (s.cfg.endCmd.isSome && s.cfg.stream.isNone) ||
    s.fab.refills.any fun r => r.serves == 2

/-! ### The ledger's counts (R570) -/

/-- GRANTED: the BU held by the holders other than the host pool and the set-aside. -/
def Ledger.granted (l : Ledger) : Nat := (l.held.map Prod.snd).sum

/-- SETASIDE: the BU set aside under R571 and the host pool. -/
def Ledger.setAside (l : Ledger) : Nat := (l.aside.map Prod.snd).sum - l.lent + l.pool

/-- The cap in force (R569). -/
def State.cap (s : State) : Nat := s.rd Reg.PWR.LEDGER.CAP

/-- FREE: the rest of the cap. -/
def State.freeBu (s : State) : Nat := s.cap - (s.ledger.granted + s.ledger.setAside)

/-! ### Registers whose value follows other state -/

/-- Entries of the avoid map (R600, R604): kind, tower, wing, item, direction, and 1 for an entry that is not from the
ledger. -/
def State.avoidMap (s : State) : List (Nat × Nat × Nat × Nat × Nat × Nat) :=
  let own := fun (r : Repair) =>
    if r.kind = 1 then some (1, r.wing / 64, r.wing % 64, r.item, 0, 0)
    else if r.kind = 2 ∨ r.kind = 5 then some (2, r.wing / 64, r.wing % 64, 0, 0, 0)
    else if r.kind = 4 then some (3, r.wing / 64, r.wing % 64, r.item, 0, 0)
    else none
  (s.dev.made ++ s.dev.ledger).filterMap own ++
    s.dev.avoidOther.map (fun e => (e.1, e.2.1, e.2.2.1, e.2.2.2.1, e.2.2.2.2, 1))

/-- The lock entry in force (R521). -/
def State.lockEntry (s : State) : Option LockEntry := s.cfg.lock.getLast?

/-- A policy bit of the owner lock in force (R520). -/
def State.lockPolicy (s : State) (i : Nat) : Bool :=
  match s.lockEntry with
  | some e => e.locked && bit e.policy i
  | none => false

/-- The ECDSA-signed header fields of a slot image (R632): VERSION. -/
def slotVersion : Option SlotImg → Nat
  | some g => leNat (slice g.bytes 0 4)
  | none => 0

/-- Commands in progress (R485, R488). -/
def State.inProgress (s : State) : Nat := s.hif.running.length + s.hif.replies.length

/-- Keeper has not run since DEV_RST_N: what it alone writes still reads as DEV_RST_N left it (R16, R586). -/
def State.beforeKeeper (s : State) : Bool := s.inReset || (s.dev.cold && s.fw.romAt.isSome)

/-- The value of a computed register; `none` for a register that is only stored.  The word that a computed register
stores beside its computed fields is `w`. -/
def State.view (s : State) (a : Nat) (w : Word) : Option Word :=
  let put := fun (n : Nat) (fs : List (Field × Nat)) =>
    toWord (fs.foldl (fun acc fv => setBits acc fv.1.hi fv.1.lo fv.2) n)
  if a = Reg.PWR.LEDGER.CAP.addr then
    some (put w.toNat [(Reg.PWR.LEDGER.GRANTED, s.ledger.granted), (Reg.PWR.LEDGER.FREE, if s.beforeKeeper then 0 else s.freeBu),
      (Reg.PWR.LEDGER.SETASIDE, s.ledger.setAside)])
  else if a = Reg.TIME.NOWNS.NS.addr then
    some (put 0 [(Reg.TIME.NOWNS.FRAC, s.time.out / 2 ^ 16 % 2 ^ 16),
      (Reg.TIME.NOWNS.NS, s.time.out / 2 ^ 32 % 1000000000)])
  else if a = Reg.TIME.ABOFF.OFFSET.addr then
    some (BitVec.ofInt 64 (((s.time.domA.time : Int) - s.time.domB.time) / 65536))
  else if a = Reg.TIME.SLEWREM.OFFSET.addr then
    let d := if s.rd Reg.TIME.STAT.SEL = 0 then s.time.domA else s.time.domB
    some (BitVec.ofInt 64 (((d.time : Int) - s.time.out) / 65536))
  else if a = Reg.HIF.QSTAT.INPROG.addr then
    some (put w.toNat [(Reg.HIF.QSTAT.INPROG, min s.inProgress 64)])
  else if a = Reg.DEV.ID.SEAT.addr then
    some (put w.toNat [(Reg.DEV.ID.SEAT, s.dev.seat), (Reg.DEV.ID.STEPPING, Config.stepping.toNat)])
  else if a = Reg.DEV.SERIAL.SERIAL.addr then some Config.serial
  else if a = Reg.DEV.LEDGER.USED.addr then
    some (put 0 [(Reg.DEV.LEDGER.USED, s.dev.ledger.length), (Reg.DEV.LEDGER.FULL, b2n (s.dev.ledger.length ≥ 256)),
      (Reg.DEV.LEDGER.RETAINED, s.dev.retainedRepairs.length), (Reg.DEV.LEDGER.AVOID, if s.beforeKeeper then 0 else s.avoidMap.length)])
  else if a = Reg.CFG.SEAT.SEAT.addr then some (toWord s.dev.seat)
  else if a = Reg.CFG.LOCK.LOCKED.addr then
    some (match s.lockEntry with
      | some e => put 0 [(Reg.CFG.LOCK.LOCKED, b2n e.locked), (Reg.CFG.LOCK.POLICY, if e.locked then e.policy else 0),
          (Reg.CFG.LOCK.USED, s.cfg.lock.length)]
      | none => 0)
  else if 0xF0100 ≤ a && a < 0xF0140 then
    some (match s.cfg.jobs.find? (fun j => j.slot = (a - 0xF0100) / 8) with
      | some j => put 0 [(Reg.CFG.JOB.JOBID 0, j.id), (Reg.CFG.JOB.TOWER 0, j.wing / 64),
          (Reg.CFG.JOB.WING 0, j.wing % 64), (Reg.CFG.JOB.CTX 0, j.ctx),
          (Reg.CFG.JOB.STATE 0, if j.verified then 2 else if j.isolated then 1 else 0)]
      | none => 0)
  else if 0x40400 ≤ a && a < 0x40480 then
    let i := (a - 0x40400) / 16
    let q := s.time.caps.getD i []
    let st := q.head?.getD { sec := 0, ns := 0, frac := 0, rising := false }
    if a % 16 = 0 then
      some (put 0 [(Reg.TIME.CAP.LO.FRAC 0, st.frac), (Reg.TIME.CAP.LO.NS 0, st.ns),
        (Reg.TIME.CAP.LO.EDGE 0, b2n st.rising), (Reg.TIME.CAP.LO.VALID 0, b2n (!q.isEmpty))])
    else
      some (put w.toNat [(Reg.TIME.CAP.HI.SEC 0, st.sec), (Reg.TIME.CAP.HI.DEPTH 0, q.length)])
  else if 0xE0000 ≤ a && a < 0xE8000 && a % 0x1000 = 8 then
    let t := (a - 0xE0000) / 0x1000
    some (put w.toNat [((Reg.ATC.STAT.ENTRIES 0), (s.attic.table.filter fun r => r.1 = t).length),
      ((Reg.ATC.STAT.OVERFLOW 0), b2n (s.attic.frozen.contains t)),
      ((Reg.ATC.STAT.SCRUBBUSY 0), b2n (s.attic.jobs.any fun j => j.towersLeft.contains t)),
      ((Reg.ATC.STAT.REMAPPEND 0), b2n (s.attic.moves.any fun m => m.1 / 64 = t))])
  else if 0xE0000 ≤ a && a < 0xE8000 && 0x40 ≤ a % 0x1000 && a % 0x1000 < 0x240 then
    let t := (a - 0xE0000) / 0x1000
    let w := 64 * t + (a % 0x1000 - 0x40) / 8
    some (put 0 [(Reg.ATC.MAP.SPAREFOR 0 0, s.attic.spareFor.at 31 w),
      (Reg.ATC.MAP.FIELD 0 0, b2n (s.attic.fieldRepair.contains w)),
      (Reg.ATC.MAP.PENDING 0 0, ((s.attic.moves.find? fun m => m.1 = w).map fun m => m.2.1).getD 31),
      (Reg.ATC.MAP.POISON 0 0, b2n (s.fab.poison.contains w)),
      (Reg.ATC.MAP.RETIRED 0 0, ((s.attic.retired.filter fun r => r.1 = w).map fun r => 2 ^ r.2).sum)])
  else if a = (Reg.MEM.LOGSTAT.ENTRIES 0).addr || a = (Reg.MEM.LOGSTAT.ENTRIES 1).addr then
    let p := (a - 0xB8000) / 0x10000
    some (put 0 [(Reg.MEM.LOGSTAT.ENTRIES 0, (s.g6.log.filter fun r => r.1 = p).length),
      (Reg.MEM.LOGSTAT.OVERFLOW 0, b2n (s.g6.frozen.contains p))])
  else if a = (Reg.CRYPT.LOGSTAT.ENTRIES 0).addr || a = (Reg.CRYPT.LOGSTAT.ENTRIES 1).addr then
    let p := (a - 0xD0110) / 8
    some (put 0 [(Reg.CRYPT.LOGSTAT.ENTRIES 0, (s.crypt.log.filter fun r => r.1 = p).length),
      (Reg.CRYPT.LOGSTAT.OVERFLOW 0, b2n (s.crypt.frozen.contains p))])
  else if a = Reg.IOB.CTLPINS.SEAT.addr then
    some (put w.toNat [(Reg.IOB.CTLPINS.SEAT, s.dev.seat), (Reg.IOB.CTLPINS.TRIP, b2n s.pwr.tripLow)])
  else if a = Reg.FWU.STAT.SLOT.addr then
    some (put w.toNat [(Reg.FWU.STAT.SVCREPLY, min 4 s.hif.svcReplies.length), (Reg.FWU.STAT.PENDING, b2n (s.fw.pending.any fun k => s.rdb (Reg.TIME.CUE.THI.ARMED k))),
      (Reg.FWU.STAT.SLOT, s.rd Reg.DEV.BOOT.SLOT)])
  else if a = Reg.FWU.VERSION.SLOTA.addr then
    some (if s.beforeKeeper then 0 else put 0 [(Reg.FWU.VERSION.SLOTA, slotVersion (s.fw.slots.getD 0 none)),
      (Reg.FWU.VERSION.SLOTB, slotVersion (s.fw.slots.getD 1 none))])
  else if a = Reg.FWU.STAGEBYTES.BODY.addr then
    some (match s.fw.stage with
      | some g => put 0 [(Reg.FWU.STAGEBYTES.BODY, g.body.length), (Reg.FWU.STAGEBYTES.BUILT, g.built.length)]
      | none => w)
  else none

/-- The bits of a register that its table's row defines. -/
def RegSpec.mask (r : RegSpec) : Nat :=
  r.fields.foldl (fun m f => Nat.lor m ((2 ^ (f.hi + 1 - f.lo) - 1) * 2 ^ f.lo)) 0

/-- What a read of the register at offset `a` returns: its computed value or what it stores; reserved bits, and an offset at
which no table defines a register, read as zero (R12). -/
def State.readReg (s : State) (a : Nat) : Word :=
  match findReg a with
  | none => 0
  | some r => toWord (Nat.land ((s.view a (s.stored a)).getD (s.stored a)).toNat r.mask)

end Sys2Proof.Machine
end

