-- ==== Sys2Proof/Machine/Ops.lean ====
section
/-! DEFINITION. The named operations that every command's meaning is written with: time passing, free values, what the
device sends over PCIe, events (R497-R499, R674), interrupts (R502), the current ledger (R570), commands and their replies
(R485-R490). -/

namespace Sys2Proof.Machine

/-- The answer of a meaning. -/
abbrev Answer := Host.Outcome State Fault Refusal

/-! ### Free values and time -/

/-- A 64-bit value that the manual leaves open, and the state with the supply advanced. -/
def State.drawWord (s : State) : Word × State := (Config.freeWord s.free, { s with free := s.free + 1 })

/-- An open bit, and the state with the supply advanced. -/
def State.drawBit (s : State) : Bool × State := (Config.freeBit s.free, { s with free := s.free + 1 })

/-- Whether loop `l` coasts (R553). -/
def State.coasts (s : State) (l : Nat) : Bool := bit (s.rd Reg.CLK.STAT.COAST) l

/-- Whether loop `l` has in truth lost its reference: one only shown as lost keeps its lock (R620 kind 8). -/
def State.coastsTruly (s : State) (l : Nat) : Bool :=
  s.coasts l && !(s.clk.forced.contains (5 + l) && bit (s.rd Reg.CLK.STAT.LOCKED) l)

/-- The power state (R560): 0 ACTIVE, 1 HOLD, 2 NAP, 3 PATROL. -/
def State.power (s : State) : Nat := s.rd Reg.PWR.STATE.STATE

/-- Whether a loop filters the spread that REFCLK_SYS carries and runs at the mean frequency (R550). -/
def filtersSpread (l : Nat) : Bool := l == 0 || l == 2 || l == 3 || l == 4

/-- The rate of a loop in parts of 4,000,000 of its set frequency: a coasting loop runs at its lowest frequency, from 60% to 70% and open
within them (R553), at once (R553 gives it 20 µs; DESIGN CHOICE, assumption 121); a loop that is only shown as lost does not
change (R620 kind 8); a declared spread of `d` steps of 0.05% lowers the mean by half of it (R550). -/
def State.loopRate (s : State) (l : Nat) : Nat :=
  (if s.coastsTruly l then 600 + Config.coastRate l % 101 else 1000) *
    (4000 - if filtersSpread l then s.rd Reg.CLK.SYSSPREAD.DEPTH else 0)

/-- The loop that the output time runs on (R421, R429). -/
def State.timeLoop (s : State) : Nat := s.rd Reg.TIME.STAT.PATH

/-- A domain whose time has advanced by `n` ticks. -/
def Domain.advance (n : Nat) (d : Domain) : Domain := { d with time := d.time + n * d.rate }

/-- A period of the time clock at its set frequency, in the units of `TimeU.phase`: femtoseconds in parts of 4,000,000. -/
def phaseClock : Nat := fsClock * 4000000

/-- `dt` femtoseconds pass: the output time and the domains advance by their rate words at each tick of the time clock
(R417, R418), whose loop may coast (R554) or run at a mean below its set frequency (R550); in PATROL the time unit is off (R563). -/
def State.elapse (dt : Nat) (s : State) : State :=
  let phase := s.time.phase + if s.power = 3 then 0 else dt * s.loopRate s.timeLoop
  let n := phase / phaseClock - s.time.phase / phaseClock
  { s with
    now := s.now + dt
    time := { s.time with
      phase := phase
      out := s.time.out + n * s.rd Reg.TIME.RATE.RATE
      domA := s.time.domA.advance n
      domB := s.time.domB.advance n } }

/-- The shape of every meaning: `dt` passes, the command's effect follows, the queue and the clock stay with the block.
While DEV_RST_N is low the device does nothing (R591): only the instant moves; no row but those of DEV_RST_N changes
that pin. -/
def State.event (s : State) (dt : Nat) (effect : State → State) : Answer :=
  if s.inReset then .next { s with now := s.now + dt }
  else .next { effect (s.elapse dt) with now := s.now + dt, pending := s.pending, inReset := false }

/-- The shape of a meaning that acts while DEV_RST_N is low too: pins, boundary scan and DEV_RST_N itself. -/
def State.always (s : State) (dt : Nat) (effect : State → State) : Answer :=
  .next { effect (if s.inReset then { s with now := s.now + dt } else s.elapse dt)
    with now := s.now + dt, pending := s.pending }

/-- `effect` where the condition of an event row holds; otherwise the row's event cannot happen and changes nothing
(DESIGN CHOICE, assumption 3). -/
def State.whenever (s : State) (c : Bool) (effect : State → State) : State := if c then effect s else s

/-- A measurement that the device makes once in every period (R70, R559, R573, R574, R668): it runs where its period has passed since its
series last ran, and starts the next one. -/
def State.periodic (s : State) (series period : Nat) (effect : State → State) : State :=
  s.whenever (decide (s.clk.sampledAt.at 0 series + period ≤ s.now)) fun s =>
    effect { s with clk := { s.clk with sampledAt := s.clk.sampledAt.upd 0 series s.now } }

/-- A domain that HOLD stops wakes on an access (R567): towers are units 0 to 7, controllers 8 to 15. -/
def State.touch (s : State) (unit : Nat) : State :=
  if s.power = 1 then
    { s with pwr := { s.pwr with domIdle := (unit, s.now) :: s.pwr.domIdle.filter (·.1 ≠ unit) } }
  else s

/-- Units of 2^-32 ns in a second. -/
def unitsPerSec : Nat := 1000000000 * 2 ^ 32

/-- The seconds of the output time (R416). -/
def TimeU.secs (t : TimeU) : Nat := t.out / unitsPerSec % 2 ^ 48

/-- The nanoseconds of the output time (R416). -/
def TimeU.nanos (t : TimeU) : Nat := t.out / 2 ^ 32 % 1000000000

/-- The visible fraction of the output time, in units of 2^-16 ns (R416). -/
def TimeU.frac (t : TimeU) : Nat := t.out / 2 ^ 16 % 2 ^ 16

/-! ### What the device sends -/

/-- The device sends a message. -/
def State.send (s : State) (m : PcieMsg) : State := { s with out := s.out ++ [m] }

/-- Whether Keeper may write host memory (R472): not in D3hot, not while Bus Master Enable is clear, not during
PERST_N. -/
def State.hostWrites (s : State) : Bool := s.hif.bme && !s.hif.d3hot && !s.hif.perst

/-- Whether the rings are stalled by a failed write-back, after which nothing more is posted (R481). -/
def State.wbFailed (s : State) : Bool := s.rdb Reg.HIF.QSTAT.STALLED && s.rd Reg.HIF.QSTAT.STALLCAUSE == 3

/-- Words written to host memory from an address on. -/
def State.writeHost (s : State) (addr : Nat) (ws : List Word) : State :=
  ws.zipIdx.foldl (fun s wi => s.send (.memWrite (addr + 8 * wi.2) wi.1)) s

/-- The write-back block (R481): CMDHEAD, RPLTAIL, EVTTAIL and the next ESEQ. -/
def State.writeBack (s : State) : State :=
  s.writeHost (s.rd Reg.HIF.WBADDR.ADDR * 32)
    [toWord (s.rd Reg.HIF.CMDHEAD.COUNT), toWord (s.rd Reg.HIF.RPLTAIL.COUNT), toWord (s.rd Reg.HIF.EVTTAIL.COUNT),
      toWord s.hif.eseq]

/-- Whether a vector is masked by its entry of the MSI-X table in BAR4 (R474, R502): bit 0 of the entry's vector control word. -/
def Hif.masked (h : Hif) (v : Nat) : Bool := flagOf (h.msixTable.getD v (0, 0)).2 32

/-- An MSI-X message, unless MSI-X is off, the vector masked, or host memory may not be written (R502, R472). -/
def State.sendMsix (s : State) (v : Nat) : State :=
  if s.hif.msixOn && !s.hif.masked v && s.hostWrites then s.send (.msix v) else s

/-- The place of a moderated vector in the moderation lists. -/
def modIndex (v : Nat) : Nat := if v = 0 then 0 else 1

/-- Vector `v` is signalled, under the moderation interval for vectors 0 and 2 (R502). -/
def State.msix (s : State) (v : Nat) : State :=
  let i := modIndex v
  let iv := s.rd Reg.HIF.IRQMOD.INTERVAL * fsUs
  if v = 1 || v = 3 || iv = 0 then s.sendMsix v
  else match s.hif.irqLast.getD i none with
    | some t =>
      if s.now < t + iv then { s with hif := { s.hif with irqWant := s.hif.irqWant.set i true } }
      else { s.sendMsix v with hif := { s.hif with irqLast := s.hif.irqLast.set i (some s.now) } }
    | none => { s.sendMsix v with hif := { s.hif with irqLast := s.hif.irqLast.set i (some s.now) } }

/-! ### Events -/

/-- The size of a ring of 2^log entries, and the entries between two counters of it (R479). -/
def ringHolds (tail head : Nat) : Nat := (tail + 2 ^ 32 - head) % 2 ^ 32

/-- Whether the event ring can take a record (R499). -/
def State.eventRoom (s : State) : Bool :=
  s.rdb Reg.HIF.QCTRL.ENABLE && s.hostWrites && !s.wbFailed &&
    decide (ringHolds (s.rd Reg.HIF.EVTTAIL.COUNT) (s.rd Reg.HIF.EVTHEAD.COUNT) < 2 ^ s.rd Reg.HIF.RINGSIZE.EVTLOG)

/-- The record of an event that arises now (R497). -/
def State.eventRec (s : State) (code sev src detail : Nat) (dropped : Bool) : EventRec :=
  { w0 := toWord (code % 2 ^ 16 + sev % 4 * 2 ^ 16 + b2n dropped * 2 ^ 18 + src % 16 * 2 ^ 20 +
      s.dev.seat % 1024 * 2 ^ 24)
    w1 := toWord (s.time.nanos + s.time.secs % 2 ^ 32 * 2 ^ 32)
    w2 := s.stored Reg.STEP.COUNT.COUNT.addr
    w3 := toWord detail }

/-- An ERROR or FATAL record is kept among the last 64 (R499). -/
def Hif.retain (h : Hif) (sev : Nat) (r : EventRec) : Hif :=
  if sev < 2 then h else { h with retained := (h.retained ++ [r]).drop (h.retained.length - 63) }

/-- An event takes the next ESEQ and is written to the event ring, or dropped (R498, R499). -/
def State.postNow (s : State) (code sev src detail : Nat) : State :=
  let r := s.eventRec code sev src detail s.hif.droppedSince
  if s.eventRoom then
    let tail := s.rd Reg.HIF.EVTTAIL.COUNT
    let s := s.writeHost (s.rd Reg.HIF.EVTBASE.BASE * 4096 + 32 * (tail % 2 ^ s.rd Reg.HIF.RINGSIZE.EVTLOG))
      [r.w0, r.w1, r.w2, r.w3]
    let s := s.wr Reg.HIF.EVTTAIL.COUNT (tail + 1)
    let s := { s with hif := { s.hif.retain sev r with eseq := (s.hif.eseq + 1) % 2 ^ 32, droppedSince := false } }
    s.writeBack.msix (if sev < 2 then 2 else 1)
  else
    let s := s.count Reg.HIF.EVTDROP.COUNT 1
    { s with hif := { s.hif.retain sev r with
        eseq := (s.hif.eseq + 1) % 2 ^ 32
        dropTotal := (s.hif.dropTotal + 1) % 2 ^ 32
        drops := s.hif.drops.upd 0 code ((s.hif.drops.at 0 code + 1) % 2 ^ 32)
        droppedSince := true } }

/-- An event is posted.  The ROM minimal image posts none (R590); while Keeper restarts into new firmware, events wait
for it (R639). -/
def State.post (s : State) (code sev src detail : Nat) : State :=
  if !s.rdb Reg.DEV.BOOT.IMAGE && !s.hif.holding then s
  else if s.hif.holding then { s with hif := { s.hif with heldEvents := s.hif.heldEvents ++ [(code, sev, src, detail)] } }
  else s.postNow code sev src detail

/-- Where the detail of a limited event holds its count, and what is taken off it: the events of R239 carry REPEAT, the
occurrences after the first. -/
def limitedCount (code : Nat) : Option (Nat × Nat × Nat) :=
  if code = 0x0102 then some (31, 0, 0)
  else if code = 0x0409 then none
  else if code / 256 = 3 then some (51, 44, 1)
  else some (47, 32, 0)

/-- A detail with the count of occurrences that an event of a limited code reports, saturated at its width. -/
def limitedDetail (code detail n : Nat) : Nat :=
  match limitedCount code with
  | none => detail
  | some (hi, lo, less) => setBits detail hi lo (min (n - less) (2 ^ (hi + 1 - lo) - 1))

/-- The detail of a window after another occurrence: the latest one's, but for OVERRUN the largest excess (R87). -/
def mergeDetail (code old new : Nat) : Nat :=
  if code = 0x0102 then setBits new 54 32 (max (bits old 54 32) (bits new 54 32)) else new

/-- An occurrence of a limited event (R674): posted at once where no window is open for its code and key, else held. -/
def State.postLimited (s : State) (code key sev src detail : Nat) : State :=
  match s.hif.windows.find? fun w => w.code = code ∧ w.key = key with
  | some _ =>
    { s with hif := { s.hif with windows := s.hif.windows.map fun w =>
        if w.code = code ∧ w.key = key then
          { w with held := w.held + 1, sev := sev, src := src,
                   detail := if w.held = 0 then detail else mergeDetail code w.detail detail }
        else w } }
  | none =>
    let s := s.post code sev src (limitedDetail code detail 1)
    { s with hif := { s.hif with windows := s.hif.windows ++
        [{ code := code, key := key, opened := s.now, held := 0, sev := sev, src := src, detail := detail }] } }

/-! ### The current ledger -/

/-- The BU that a holder holds (R572). -/
def State.holds (s : State) (h : Nat) : Nat := s.ledger.held.at 0 h

/-- The state in which a holder holds `n` BU. -/
def State.setHeld (s : State) (h n : Nat) : State :=
  { s with ledger := { s.ledger with held := s.ledger.held.upd 0 h n } }

/-- BU granted to a holder in full, or `none` where they do not fit (R570). -/
def State.grant (s : State) (h n : Nat) : Option State :=
  if n ≤ s.freeBu then
    some (s.setHeld h (s.holds h + n))
  else none

/-- BU granted by Keeper at start-up or exit, which no request precedes (R572). -/
def State.grantAlways (s : State) (h n : Nat) : State := s.setHeld h (s.holds h + n)

/-- BU that a holder returns (R570). -/
def State.ungrant (s : State) (h n : Nat) : State := s.setHeld h (s.holds h - n)

/-- Whether a holder's holding can become `n` BU: the increase, if any, fits (R570). -/
def State.fits (s : State) (h n : Nat) : Bool := decide (n ≤ s.holds h + s.freeBu)

/-! ### Hallway errors of BAR accesses -/

/-- An access to BAR0 or BAR2 that ends in a hallway status other than OK (R476). -/
def State.hallwayError (s : State) (b2 : Bool) (status offset : Nat) : State :=
  let s := if b2 then s.wr Reg.HIF.ERR.B2ERR 1 else s.wr Reg.HIF.ERR.TGTERR 1
  (s.wr Reg.HIF.ERR.LASTSTAT status).wr Reg.HIF.ERRADDR.OFFSET offset

/-! ### Commands and replies -/

/-- The header words of a reply and the payload it carries in the ring (R489), with `room` payload words of space where
no reply buffer is named. -/
def Reply.packet (r : Reply) (room : Nat) : List Word :=
  let n := r.payload.length
  let cap := match r.rbuf with
    | some b => b.2
    | none => room
  let w0 := r.opcode % 2 ^ 16 + r.seq % 2 ^ 16 * 2 ^ 16 + r.epoch % 256 * 2 ^ 32 + r.status % 256 * 2 ^ 40
  let w1 := n % 2 ^ 20 + b2n r.rbuf.isSome * 2 ^ 20 + b2n (decide (cap < n)) * 2 ^ 21 + r.detail % 2 ^ 32 * 2 ^ 32
  toWord w0 :: toWord w1 :: (if r.rbuf.isSome then [] else r.payload.take cap)

/-- The payload of a reply that goes to its reply buffer (R489). -/
def State.writeRbuf (s : State) (r : Reply) : State :=
  match r.rbuf with
  | some b => s.writeHost b.1 (r.payload.take b.2)
  | none => s

/-- A mailbox reply is written to the mailbox registers, DONE is set, BUSY clears, vector 0 is signalled (R491,
R502). -/
def State.mailboxReply (s : State) (r : Reply) : State :=
  let s := s.writeRbuf r
  let ws := r.packet 6
  let s := ws.zipIdx.foldl (fun s wi => s.store (Reg.HIF.MBOXR.WORD wi.2).addr wi.1) s
  ((s.wr Reg.HIF.MBOXCTL.DONE 1).wr Reg.HIF.MBOXCTL.BUSY 0).msix 0

/-- A completed reply goes to its path: it waits for the reply ring (R488), for the release of PERST_N (R503), or among
the replies of the service port, whose queue holds four (R628). -/
def State.deliver (s : State) (r : Reply) : State :=
  match r.path with
  | .ring => { s with hif := { s.hif with replies := s.hif.replies ++ [r] } }
  | .mailbox =>
    if s.hif.perst then { s with hif := { s.hif with replies := s.hif.replies ++ [r] } } else s.mailboxReply r
  | .service => { s with hif := { s.hif with svcReplies := s.hif.svcReplies ++ [r] } }

/-- The reply of a command. -/
def Cmd.reply (c : Cmd) (status detail : Nat) (payload : List Word) : Reply :=
  { gen := c.gen, path := c.path, opcode := c.opcode, seq := c.seq, epoch := c.epoch, rbuf := c.rbuf,
    status := status, detail := detail, payload := payload }

/-- A command ends with a status, a detail and a payload (R485, R489). -/
def State.answer (s : State) (c : Cmd) (status detail : Nat) (payload : List Word) : State :=
  { s with hif := { s.hif with running := s.hif.running.filter fun d => d.id ≠ c.id } }.deliver
    (c.reply status detail payload)

/-- A command ends with OK and a payload. -/
def State.ok (s : State) (c : Cmd) (payload : List Word) : State := s.answer c stOk 0 payload

/-- The command in progress of an identity. -/
def State.running (s : State) (id : Nat) : Option Cmd := s.hif.running.find? fun c => c.id = id

/-- A command in progress, named by its identity, ends. -/
def State.complete (s : State) (id status detail : Nat) (payload : List Word) : State :=
  match s.running id with
  | some c => s.answer c status detail payload
  | none => s

/-- The first refusal that applies: status and detail. -/
def firstRefusal : List (Bool × Nat × Nat) → Option (Nat × Nat)
  | [] => none
  | (c, r) :: rest => if c then some r else firstRefusal rest

/-- A command's effect after its refusals, which stand in the order of R495; a reserved header bit or a bad reply buffer
(R482, R484) is BAD_PARAM, after REFUSED_LOCK. -/
def State.checked (s : State) (c : Cmd) (refusals : List (Bool × Nat × Nat)) (effect : State → State) : State :=
  let lock := refusals.filter fun r => r.2.1 = stLock
  let rest := refusals.filter fun r => r.2.1 ≠ stLock
  match firstRefusal (lock ++ [(c.fail.isSome, stBadParam, 0)] ++ rest) with
  | some r => s.answer c r.1 r.2 []
  | none => effect s

end Sys2Proof.Machine
end

