-- ==== Sys2Proof/Machine/AtticOps.lean ====
section
/-! DEFINITION. Attic memory (06_attic_memory.md): places, the two codes, reading and writing a word, held maintenance
writes, the error table and the error flows.  A wing is `64 * tower + wing`. -/

namespace Sys2Proof.Machine

/-! ### Places -/

/-- The physical block that a logical block lies on (R211). -/
def Attic.phys (m : Attic) (wing ab : Nat) : Nat := if m.spareFor.at 31 wing = ab then 24 else ab

/-- Whether a logical block is retired (R241, R243). -/
def Attic.isRetired (m : Attic) (wing ab : Nat) : Bool := m.retired.contains (wing, ab)

/-- The key of a word by its physical place. -/
def Attic.key (m : Attic) (wing ab word : Nat) : Nat := (wing * 25 + m.phys wing ab) * 4096 + word

/-- The key of the line that holds a word. -/
def Attic.lineKey (m : Attic) (wing ab word : Nat) : Nat := m.key wing ab word / 8

/-- The attic address of a word (R213). -/
def atticAddr (wing ab word : Nat) : Nat :=
  wing / 64 * 0x3000000 + ((wing % 64 * 24 + ab) * 4096 + word) * 8

/-- Attic addresses end here (R213). -/
def atticEnd : Nat := 0x18000000

/-- The wing, logical block and word of an attic address (R213). -/
def atticPlace (a : Nat) : Nat × Nat × Nat :=
  let b := a % 0x3000000 / 8 / 4096
  (a / 0x3000000 * 64 + b / 24, b % 24, a / 8 % 4096)

/-- The tower block number of a logical block (R213). -/
def towerBlock (wing ab : Nat) : Nat := wing % 64 * 24 + ab

/-- Whether a context has an owner's blocks (R131). -/
def Owner.has (o : Owner) (c : Nat) : Bool :=
  match o with
  | .context d => d == c
  | .fold ds => ds.contains c
  | .trace => false

/-- Contexts as an owner: one alone, or a fold. -/
def Owner.ofCtxs (cs : List Nat) : Owner :=
  match cs with
  | [c] => .context c
  | _ => .fold cs

/-- An owner without a context, where any is left. -/
def Owner.without (o : Owner) (c : Nat) : Option Owner :=
  match o with
  | .context d => if d = c then none else some o
  | .fold ds => if (ds.filter (· ≠ c)).isEmpty then none else some (.ofCtxs (ds.filter (· ≠ c)))
  | .trace => some .trace

/-- The owner of a block (R214), numbered `24 * wing + block`. -/
def Attic.ownerOf (m : Attic) (wing ab : Nat) : Option Owner :=
  (m.owner.find? fun o => o.1 = 24 * wing + ab).map Prod.snd

/-! ### Codes -/

/-- A stored word. -/
def Attic.word (m : Attic) (wing ab word : Nat) : AWord := m.words.at AWord.clear (m.key wing ab word)

/-- A word written: all three copies of each bit alike (R227). -/
def AWord.of (d : Word) (valid poison : Bool) : AWord :=
  { data := d, code := BitVec.ofNat 8 (secded d.toNat), valids := copiesOf valid, poisons := copiesOf poison }

/-- What a read delivers (R229, R236): data, RVALID, RPOISON. -/
def AWord.read (w : AWord) : Word × Bool × Bool :=
  if !w.valid then (0, false, false)
  else if w.poison then (w.data, true, true)
  else match checkCode w.data.toNat w.code.toNat with
    | .clean => (w.data, true, false)
    | .single p _ => (toWord (flipData w.data.toNat p), true, false)
    | .uncorrectable _ => (w.data, true, true)

/-- What a word contributes to the line CRC: zero where its valid bit is clear (R231). -/
def AWord.crcData (w : AWord) : Nat := if w.valid then w.read.1.toNat else 0

/-- The outer code of eight words (R231). -/
def outerCode (ds : List Nat) : Nat := crc16 (ds.flatMap fun d => bitsMsb 64 d)

/-- The outer code of a line of zeros (R240). -/
def zeroLineCrc : Nat := outerCode (List.replicate 8 0)

/-- The change of a line CRC when word `i` of the line changes (R231): the code is linear over its initial value. -/
def outerDelta (i old new : Nat) : Nat :=
  let line := fun d => (List.range 8).map fun j => if j = i then d else 0
  Nat.xor (outerCode (line old)) (outerCode (line new))

/-- The stored CRC of the line that holds a word. -/
def Attic.crcOf (m : Attic) (wing ab word : Nat) : Nat := m.lineCrc.at zeroLineCrc (m.lineKey wing ab word)

/-- The words of a line as the outer check takes them. -/
def Attic.lineData (m : Attic) (wing ab word : Nat) : List Nat :=
  (List.range 8).map fun j => (m.word wing ab (word / 8 * 8 + j)).crcData

/-- Whether the line that holds a word passes its outer check (R233). -/
def Attic.outerOk (m : Attic) (wing ab word : Nat) : Bool :=
  m.crcOf wing ab word == outerCode (m.lineData wing ab word)

/-- Whether a word is uncorrectable or poisoned (R236). -/
def AWord.bad (w : AWord) : Bool := w.valid && w.read.2.2

/-! ### Writing -/

/-- The line of a word marked stale (R232). -/
def Attic.markStale (m : Attic) (wing ab word : Nat) : Attic :=
  let k := m.lineKey wing ab word
  if m.stale.contains k then m else { m with stale := k :: m.stale }

/-- Whether a stored word is valid and uncorrectable by the inner code (R230). -/
def AWord.broken (w : AWord) : Bool :=
  w.valid && match checkCode w.data.toNat w.code.toNat with
    | .uncorrectable _ => true
    | _ => false

/-- A word replaced: the line CRC takes the change (R231), and the line is marked stale where the old value is uncorrectable
(R232). -/
def Attic.replace (m : Attic) (wing ab word : Nat) (new : AWord) : Attic :=
  let old := m.word wing ab word
  let m := if old.broken then m.markStale wing ab word else m
  let crc := Nat.xor (m.crcOf wing ab word) (outerDelta (word % 8) old.crcData new.crcData)
  { m with
    words := m.words.upd AWord.clear (m.key wing ab word) new
    lineCrc := m.lineCrc.upd zeroLineCrc (m.lineKey wing ab word) crc }

/-- A write of a whole word: valid set, poison cleared (R228), the inner code computed (R230), the line CRC updated from
the old and the new data (R231), the line marked stale where the old value is uncorrectable (R232). -/
def Attic.write (m : Attic) (wing ab word : Nat) (d : Word) : Attic := m.replace wing ab word (.of d true false)

/-- A word cleared: ATC_FILL with MODE = CLEAR (R228). -/
def Attic.clearWord (m : Attic) (wing ab word : Nat) : Attic := m.replace wing ab word .clear

/-- Every word of a block cleared (R228). -/
def Attic.clearBlock (m : Attic) (wing ab : Nat) : Attic :=
  let b := wing * 25 + m.phys wing ab
  { m with words := m.words.filter fun kv => kv.1 / 4096 ≠ b
           lineCrc := m.lineCrc.filter fun kv => kv.1 / 512 ≠ b
           stale := m.stale.filter fun k => k / 512 ≠ b }

/-- A stored word with code positions inverted (R620 kind 6). -/
def Attic.invert (m : Attic) (wing ab word : Nat) (positions : List Nat) : Attic :=
  let w := m.word wing ab word
  let w := { w with
    data := toWord (positions.foldl flipData w.data.toNat)
    code := BitVec.ofNat 8 (positions.foldl flipCode w.code.toNat) }
  { m with words := m.words.upd AWord.clear (m.key wing ab word) w }

/-- A line's CRC recomputed from its eight words and the stale mark cleared, unless a word of it is uncorrectable or poisoned:
what the first maintenance read of the whole line does, and an ATC_FILL of it (R232, R246). -/
def Attic.freshen (m : Attic) (wing ab word : Nat) : Attic :=
  if (List.range 8).any fun j => (m.word wing ab (word / 8 * 8 + j)).bad then m
  else { m with
    lineCrc := m.lineCrc.upd zeroLineCrc (m.lineKey wing ab word) (outerCode (m.lineData wing ab word))
    stale := m.stale.filter (· ≠ m.lineKey wing ab word) }

/-- A maintenance write takes effect. -/
def Attic.applyMaint (m : Attic) (w : MaintWrite) : Attic :=
  let m := if !w.inv.isEmpty then m.invert w.wing w.block w.word w.inv
    else if w.clear then m.clearWord w.wing w.block w.word
    else m.write w.wing w.block w.word w.data
  if w.crc then m.freshen w.wing w.block w.word else m

/-! ### The maintenance path -/

/-- Whether maintenance writes are held until a COMMIT (R224). -/
def State.holdsMaint (s : State) : Bool := s.stepping

/-- Held maintenance writes of a wing. -/
def Attic.heldOf (m : Attic) (wing : Nat) : List MaintWrite := m.held.filter fun w => w.wing = wing

/-- What a maintenance read of a word finds: a held write's data, or the word (R223). -/
def Attic.maintWord (m : Attic) (wing ab word : Nat) : AWord :=
  match (m.held.reverse.find? fun w => w.wing = wing ∧ w.block = ab ∧ w.word = word ∧ w.inv = []) with
  | some w => if w.clear then .clear else .of w.data true false
  | none => m.word wing ab word

/-- Whether the steward can accept a write for a wing now (R225). -/
def State.maintRoom (s : State) (wing : Nat) : Bool := !s.holdsMaint || decide ((s.attic.heldOf wing).length < 16)

/-- A maintenance write accepted by the steward: it takes effect at once, or is held (R224). -/
def State.acceptMaint (s : State) (w : MaintWrite) : State :=
  if s.holdsMaint then { s with attic := { s.attic with held := s.attic.held ++ [w] } }
  else { s with attic := s.attic.applyMaint w }

/-- A maintenance write reaches the steward: it waits while 16 are held, or behind an earlier write for its wing (R225);
`reply` is the request that its acceptance answers. -/
def State.maintWriteFor (s : State) (w : MaintWrite) (reply : Option (Nat × Packet)) : State :=
  if !s.maintRoom w.wing || (s.attic.waiting.any fun x => x.1.wing = w.wing) then
    { s with attic := { s.attic with waiting := s.attic.waiting ++ [(w, reply)] } }
  else s.acceptMaint w

/-- A maintenance write of the device's own. -/
def State.maintWrite (s : State) (w : MaintWrite) : State := s.maintWriteFor w none

/-- Every held write takes effect, in the order in which the steward accepted them (R224). -/
def State.flushHeld (s : State) : State :=
  { s with attic := { s.attic.held.foldl Attic.applyMaint s.attic with held := [] } }

/-! ### The error table -/

/-- Word 0 of a record without REPEAT (R238); `kind` 0 corrected, 1 uncorrectable, 2 OUTER, 3 CRCFIX. -/
def Attic.recordWord (m : Attic) (kind source wing ab word syndrome : Nat) : Nat :=
  1 + kind * 2 + source * 8 + wing / 64 * 32 + wing % 64 * 2 ^ 8 + ab * 2 ^ 14 + m.phys wing ab * 2 ^ 19 +
    word * 2 ^ 24 + syndrome * 2 ^ 36

/-- Whether an error matches a record: tower block, word, KIND and syndrome (R238). -/
def sameAtticError (a b : Nat) : Bool :=
  bits a 2 1 == bits b 2 1 && bits a 18 8 == bits b 18 8 && bits a 35 24 == bits b 35 24 && bits a 43 36 == bits b 43 36

/-- The attic event of a kind (R239); CRCFIX has none. -/
def atticEvent (kind : Nat) : Option (Nat × Nat) :=
  if kind = 0 then some (0x0301, sevInfo) else if kind = 1 then some (0x0302, sevError)
  else if kind = 2 then some (0x0303, sevError) else none

/-- An error enters its tower's table: a new record and its event, a REPEAT, or a limited event while the table is
frozen (R238, R239). -/
def State.atticError (s : State) (kind source wing ab word syndrome : Nat) : State :=
  let t := wing / 64
  let w0 := s.attic.recordWord kind source wing ab word syndrome
  let used := s.attic.table.filter fun r => r.1 = t
  let known := used.any fun r => sameAtticError r.2.w0 w0
  if s.attic.frozen.contains t then
    if known then s
    else match atticEvent kind with
      | some (code, sev) => s.postLimited code (kind * 8 + t) sev t w0
      | none => s
  else if known then
    let bump := fun (r : Nat × LogRec) =>
      if r.1 = t ∧ sameAtticError r.2.w0 w0 then (r.1, { r.2 with rep := satAdd 8 r.2.rep 1 }) else r
    { s with attic := { s.attic with table := s.attic.table.map bump } }
  else if used.length < 32 then
    let s := { s with attic := { s.attic with table := s.attic.table ++
      [(t, { w0 := w0, rep := 0, w1 := s.rd Reg.STEP.COUNT.COUNT })] } }
    match atticEvent kind with
    | some (code, sev) => s.post code sev t w0
    | none => s
  else
    let s := { s with attic := { s.attic with frozen := t :: s.attic.frozen } }
    let s := s.post 0x0304 sevWarn t w0
    match atticEvent kind with
    | some (code, sev) => s.postLimited code (kind * 8 + t) sev t w0
    | none => s

/-- The correctable-error counter of a block increments, saturating at 65,535 (R234 step 2, R239). -/
def State.atticCount (s : State) (wing ab : Nat) : State :=
  let t := wing / 64
  let b := towerBlock wing ab
  let f : Field := ⟨0xE0400 + 0x1000 * t + 8 * (b / 4), 16 * (b % 4) + 15, 16 * (b % 4)⟩
  let before := s.rd f
  let s := (s.count f 1).count (Reg.ATC.TOTALS.CE t) 1
  if before = 65534 then s.post 0x0305 sevWarn t b else s

/-- The wing's poison signal is raised (R236, R237). -/
def State.raisePoison (s : State) (wing : Nat) : State :=
  if s.fab.poison.contains wing then s else { s with fab := { s.fab with poison := wing :: s.fab.poison } }

/-- The first steps of the flows of R234 and R236 for a read of a word: `design` for a design port, `writeback` for a
SCRUB that writes back; `queue` says whether the outer check runs later, as OUTER_CHECK_COMPLETE.  An error that the poison bit alone
caused makes no record (R236). -/
def State.atticRead (s : State) (design : Bool) (source wing ab word : Nat) (writeback queue : Bool) : State :=
  let w := if design then s.attic.word wing ab word else s.attic.maintWord wing ab word
  if !w.valid then s
  else match w.poison, checkCode w.data.toNat w.code.toNat with
    | false, .clean => s
    | true, .clean | true, .single _ _ => if design then s.raisePoison wing else s
    | false, .single p syn =>
      let s := (s.atticCount wing ab).atticError 0 source wing ab word syn
      if queue then
        { s with attic := { s.attic with checks := s.attic.checks ++
            [{ wing := wing, block := ab, word := word, fixed := toWord (flipData w.data.toNat p), source := source,
               writeback := writeback }] } }
      else s
    | _, .uncorrectable syn =>
      let s := if design then s.raisePoison wing else s
      (s.count (Reg.ATC.TOTALS.UE (wing / 64)) 1).atticError 1 source wing ab word syn

/-- A word's poison bit set and its line marked stale (R234 step 6). -/
def Attic.poisonWord (m : Attic) (wing ab word : Nat) : Attic :=
  let w := m.word wing ab word
  { m with words := m.words.upd AWord.clear (m.key wing ab word) { w with poisons := copiesOf true } }.markStale wing ab word

/-- The outer check of R233 fails after a corrected read: R234 step 6. -/
def State.outerFails (s : State) (source wing ab word : Nat) : State :=
  let s := { s with attic := s.attic.poisonWord wing ab word }
  let s := { s with fab := { s.fab with poisonRaise := wing :: s.fab.poisonRaise } }
  (s.count (Reg.ATC.TOTALS.OUTER (wing / 64)) 1).atticError 2 source wing ab word 0

/-- A CRC entry in error, found by a check in which no word was corrected or uncorrectable (R235). -/
def State.crcFix (s : State) (source wing ab word : Nat) : State :=
  let m := s.attic
  let crcs := m.lineCrc.upd zeroLineCrc (m.lineKey wing ab word) (outerCode (m.lineData wing ab word))
  let s := { s with attic := { m with lineCrc := crcs } }
  (s.count (Reg.ATC.TOTALS.OUTER (wing / 64)) 1).atticError 3 source wing ab (word / 8 * 8) 0

end Sys2Proof.Machine
end

