-- ==== Sys2Proof/Machine/Netlist.lean ====
section
/-! DEFINITION. What the combinational logic of a wing settles to: cells and carry (R157-R167), MAC slices (R186-R199),
attic read ports (R217, R218), inbound ports (R62, R177).  A net that never settles (a combinational loop, which the
manual forbids Tolent to make) has an open value. -/

namespace Sys2Proof.Machine

/-! ### MAC slices -/

/-- Lanes, operand width, lane width in ACC and lane width in P of a mode (R186). -/
def MulMode.lanes : MulMode → Nat × Nat × Nat × Nat
  | .m64 => (1, 64, 160, 128)
  | .m32 => (2, 32, 80, 64)
  | .m16 => (4, 16, 40, 32)
  | .off => (0, 64, 160, 128)
  | .div => (0, 64, 160, 128)

/-- The lane `i` of width `w` of a packed value. -/
def lane (w i v : Nat) : Nat := v / 2 ^ (w * i) % 2 ^ w

/-- Lanes of width `w` packed into one value. -/
def packLanes (w n : Nat) (f : Nat → Nat) : Nat :=
  ((List.range n).map fun i => f i % 2 ^ w * 2 ^ (w * i)).sum

/-- The value of `w` bits, signed or unsigned. -/
def asInt (s : Bool) (w n : Nat) : Int := if s then signed w n else (n % 2 ^ w : Nat)

/-- Whether an exact value lies outside the range of `w` bits. -/
def outOfRange (s : Bool) (w : Nat) (x : Int) : Bool :=
  if s then decide (x < -(2 ^ (w - 1) : Nat)) || decide ((2 ^ (w - 1) : Nat) ≤ x)
  else decide (x < 0) || decide ((2 ^ w : Nat) ≤ x)

/-- A lane is signed when either operand is (R187). -/
def MacCfg.laneSigned (m : MacCfg) : Bool := m.asign || m.bsign

/-- The exact pre-adder result of a lane (R188). -/
def MacCfg.preExact (m : MacCfg) (w a d : Nat) : Int :=
  match m.pre with
  | .none => asInt m.asign w a
  | .add => asInt m.asign w d + asInt m.asign w a
  | .sub => asInt m.asign w d - asInt m.asign w a

/-- The packed products of the lanes (R186, R187), with the pre-adder in front. -/
def MacCfg.product (m : MacCfg) (a b d : Nat) : Nat :=
  let l := m.mulmode.lanes
  packLanes (2 * l.2.1) l.1 fun i =>
    let x := asInt m.asign l.2.1 (unsigned l.2.1 (m.preExact l.2.1 (lane l.2.1 i a) (lane l.2.1 i d)))
    unsigned (2 * l.2.1) (x * asInt m.bsign l.2.1 (lane l.2.1 i b))

/-- PREOVF (R188). -/
def MacCfg.preOvf (m : MacCfg) (a d : Nat) : Nat :=
  let l := m.mulmode.lanes
  packLanes 1 l.1 fun i => b2n (outOfRange m.asign l.2.1 (m.preExact l.2.1 (lane l.2.1 i a) (lane l.2.1 i d)))

/-- C, or ACCINIT, sign-extended to the accumulator (R190, R202). -/
def loadC (c : Nat) : Nat := unsigned 160 (signed 64 c)

/-- The exact sum of a lane under an operation (R190). -/
def MacCfg.sumExact (m : MacCfg) (op : AccOp) (i addend p c : Nat) : Int :=
  let l := m.mulmode.lanes
  let x := asInt m.laneSigned (2 * l.2.1) (lane (2 * l.2.1) i p)
  let acc := asInt m.laneSigned l.2.2.1 (lane l.2.2.1 i addend)
  match op with
  | .loadP => x
  | .add => acc + x
  | .sub => acc - x
  | .loadC => asInt m.laneSigned l.2.2.1 (lane l.2.2.1 i (loadC c))

/-- The packed SUM of the lanes, wrapped (R190). -/
def MacCfg.sum (m : MacCfg) (op : AccOp) (addend p c : Nat) : Nat :=
  let l := m.mulmode.lanes
  packLanes l.2.2.1 l.1 fun i => unsigned l.2.2.1 (m.sumExact op i addend p c)

/-- The lanes whose exact sum lies outside the lane's range (R190). -/
def MacCfg.sumOvf (m : MacCfg) (op : AccOp) (addend p c : Nat) : Nat :=
  let l := m.mulmode.lanes
  packLanes 1 l.1 fun i => b2n (outOfRange m.laneSigned l.2.2.1 (m.sumExact op i addend p c))

/-- Rounding half up (R193). -/
def roundHalfUp (r : Nat) (x : Int) : Int := if r = 0 then x else (x + 2 ^ (r - 1)) / 2 ^ r

/-- Saturation (R194): the result and whether the clamp changed it. -/
def saturate (mode : SatMode) (w : Nat) (y : Int) : Int × Bool :=
  match mode with
  | .wrap => ((unsigned w y : Nat), false)
  | .signed =>
    let half : Int := 2 ^ (w - 1)
    let z := max (-half) (min (half - 1) y)
    (z, z != y)
  | .unsigned =>
    let top : Int := 2 ^ w
    let z := max 0 (min (top - 1) y)
    (z, z != y)

/-- The result of lane `i` of the output path before extension, and its SATF bit (R192-R194). -/
def MacCfg.laneOut (m : MacCfg) (i x : Nat) : Int × Bool :=
  let l := m.mulmode.lanes
  saturate m.satmode m.owidth (roundHalfUp m.rpos (asInt m.laneSigned l.2.2.1 (lane l.2.2.1 i x)))

/-- P from the output path's input (R195). -/
def MacCfg.outP (m : MacCfg) (x : Nat) : Nat :=
  let l := m.mulmode.lanes
  packLanes l.2.2.2 l.1 fun i =>
    let low := unsigned m.owidth (m.laneOut i x).1
    if m.laneSigned && m.satmode != .unsigned then unsigned l.2.2.2 (signed m.owidth low) else low

/-- SATF from the output path's input (R194). -/
def MacCfg.outSatf (m : MacCfg) (x : Nat) : Nat :=
  packLanes 1 m.mulmode.lanes.1 fun i => b2n (m.laneOut i x).2

/-- The working state of a division: remainder, quotient, count (R196). -/
structure DivState where
  rem : Int
  q : Nat
  cnt : Nat
  deriving DecidableEq, Repr

/-- One iteration of the non-restoring division (R197). -/
def DivState.iterate (m : Nat) (d : DivState) : DivState :=
  if d.cnt < 64 then
    let shifted := d.rem * 2 + (b2n (bit d.q 63) : Nat)
    let rem := if d.rem ≥ 0 then shifted - m else shifted + m
    let q := d.q * 2 % 2 ^ 64 + b2n (decide (rem ≥ 0))
    { rem := if d.cnt = 63 ∧ rem < 0 then rem + m else rem, q := q, cnt := d.cnt + 1 }
  else d

/-- `n` iterations. -/
def DivState.run (m : Nat) : Nat → DivState → DivState
  | 0, d => d
  | n + 1, d => DivState.run m n (d.iterate m)

/-- The inputs of a slice in one evaluation, each computed only where it is read. -/
structure MacIn where
  a : Nat
  b : Nat
  c : Nat
  d : Nat
  casin : Nat
  op : AccOp
  sr : Bool
  en : Bool
  divgo : Bool
  deriving DecidableEq, Repr

/-- The operation that OPSEL names (R190). -/
def opOf (sel : Nat) : AccOp := if sel = 0 then .loadP else if sel = 1 then .add else if sel = 2 then .sub else .loadC

/-- The A operand after its stage register (R189). -/
def MacCfg.aSide (m : MacCfg) (k : MacBank) (a : Unit → Nat) : Nat := if m.areg then k.ar else a ()

/-- The product after its stage register. -/
def MacCfg.mSide (m : MacCfg) (k : MacBank) (a b d : Unit → Nat) : Nat :=
  if m.mreg then k.mr
  else m.product (m.aSide k a) (if m.breg then k.br else b ()) (if m.dreg then k.dr else d ())

/-- What a bank takes at a COMMIT in whose step its domain has an edge (R191, R196, R197).  DIV mode with BREG = BYPASS, which
R196 forbids, divides by the bank's BR all the same (DESIGN CHOICE, assumption 98). -/
def MacCfg.nextBank (m : MacCfg) (k : MacBank) (i : MacIn) : MacBank :=
  let a := if m.areg then k.ar else i.a
  let b := if m.breg then k.br else i.b
  let c := if m.creg then k.cr else i.c
  let d := if m.dreg then k.dr else i.d
  let p := if m.mreg then k.mr else m.product a b d
  let addend := if m.addendCas then i.casin else k.acc
  let sum := m.sum i.op addend p c
  let x := if m.osrcSum then sum else k.acc
  if i.sr then
    { MacBank.zero with acc := loadC m.accinit.toNat }
  else if !i.en then k
  else if m.mulmode = .div then
    let d0 : DivState := if i.divgo then { rem := 0, q := a, cnt := 0 }
      else { rem := signed 66 (k.acc / 2 ^ 64), q := k.acc % 2 ^ 64, cnt := k.divcnt }
    let d1 := d0.run k.br m.diviter
    { k with
      ar := if m.areg then i.a else k.ar
      br := if m.breg then i.b else k.br
      cr := if m.creg then i.c else k.cr
      dr := if m.dreg then i.d else k.dr
      acc := unsigned 66 d1.rem * 2 ^ 64 + d1.q
      divcnt := d1.cnt }
  else
    { k with
      ar := if m.areg then i.a else k.ar
      br := if m.breg then i.b else k.br
      cr := if m.creg then i.c else k.cr
      dr := if m.dreg then i.d else k.dr
      mr := if m.mreg then m.product a b d else k.mr
      acc := sum
      oreg := if m.oreg then m.outP x else k.oreg
      satf := if m.oreg then m.outSatf x else k.satf
      accovf := Nat.lor k.accovf (m.sumOvf i.op addend p c) }

/-! ### Lookups -/

/-- A cell that a context does not configure: its plane bits are zero. -/
def CellCfg.blank : CellCfg :=
  let ff : FfCfg := { dsel := .a, ensel := .always, srmode := .none, domain := 0, init := false, follow := none }
  { split := false, truth := 0, cmode := .off, cinsel := .zero, gselBx := false, srinv := false, landsel := .none,
    ins := [], bx := .zero, bys := .zero, ce := .zero, sr := .zero, fa := ff, fb := ff }

/-- A slice that is OFF (R185). -/
def MacCfg.blank : MacCfg :=
  { mulmode := .off, asign := false, bsign := false, pre := .none, ainAcas := false, areg := false, breg := false,
    creg := false, dreg := false, mreg := false, accop := some .loadP, addendCas := false, accinit := 0,
    osrcSum := false, oreg := false, rpos := 0, owidth := 1, satmode := .wrap, diviter := 1, domain := 0,
    cesel := .always, srinv := false, bankDesign := false, bselinit := 0, a := [], b := [], c := [], d := [],
    ce := .zero, sr := .zero, opsel := [], divgo := .zero, bselin := [], bse := .zero }

/-- The configuration of a cell in a wing-context. -/
def WingCfg.cell (w : WingCfg) (n : Nat) : CellCfg := ((w.cells.find? fun c => c.1 = n).map Prod.snd).getD CellCfg.blank

/-- The configuration of a slice in a wing-context. -/
def WingCfg.mac (w : WingCfg) (n : Nat) : MacCfg := ((w.macs.find? fun c => c.1 = n).map Prod.snd).getD MacCfg.blank

/-- The configuration of a context. -/
def State.ctx (s : State) (c : Nat) : CtxCfg := s.cfg.ctxs.getD c .empty

/-- A wing as a context configures it, where the context uses it. -/
def State.wing (s : State) (c w : Nat) : Option WingCfg := ((s.ctx c).wings.find? fun x => x.1 = w).map Prod.snd

/-- The key of a flip-flop copy: `half` 0 for FA, 1 for FB (R128). -/
def ffKey (wing cell half ctx : Nat) : Nat := (wing * 65536 + cell) * 8 + half * 4 + ctx

/-- The key of a landing bit (R130). -/
def landKey (wing room bit : Nat) : Nat := (wing * 1024 + room) * 64 + bit

/-- The key of a MAC bank (R202). -/
def bankKey (wing slice bank : Nat) : Nat := (wing * 128 + slice) * 4 + bank

/-- The key of an inbound port of a context. -/
def portKey (wing port ctx : Nat) : Nat := (wing * 256 + port) * 4 + ctx

/-- The bank that a slice has selected in a phase of context `c` (R203, R204). -/
def State.bankOf (s : State) (m : MacCfg) (wing slice c : Nat) : Nat :=
  if m.bankDesign then s.fab.bsel.at 0 (wing * 128 + slice) else c

/-- The selected bank's contents. -/
def State.macBank (s : State) (m : MacCfg) (wing slice c : Nat) : MacBank :=
  s.fab.mac.at MacBank.zero (bankKey wing slice (s.bankOf m wing slice c))

/-- An enable (R160, R184). -/
def EnSel.value (e : EnSel) (ce : Unit → Bool) : Bool :=
  match e with
  | .always => true
  | .ce => ce ()
  | .ceN => !ce ()

/-! ### Settling -/

/-- The number that nets spell, bit 0 first. -/
def netsNat (ev : Net → Bool) : List Net → Nat
  | [] => 0
  | n :: ns => b2n (ev n) + 2 * netsNat ev ns

/-- The A operand after AR and the SUM of a slice whose northern neighbour's are `prev` (R199); both are zero for a slice that is
OFF (R185).  A PCAS path between slices of different MULMODE, which R200 forbids, is read under the receiver's lanes (DESIGN
CHOICE, assumption 100). -/
def macLink (ev : Net → Bool) (m : MacCfg) (k : MacBank) (prev : Unit → Nat × Nat) : Nat × Nat :=
  let a := fun (_ : Unit) => if m.ainAcas then (prev ()).1 else netsNat ev m.a
  let prod := m.mSide k a (fun _ => netsNat ev m.b) (fun _ => netsNat ev m.d)
  let op := m.accop.getD (opOf (netsNat ev m.opsel))
  let addend := if m.addendCas then (prev ()).2 else k.acc
  let c := if m.creg then k.cr else netsNat ev m.c
  if m.mulmode = .off then (0, 0) else (m.aSide k a, m.sum op addend prod c)

/-- The A operand after AR and the SUM of the slice at a position of the slice column that begins at slice `base`, through
the cascades (R199).  The first slice of a column has no neighbour to the north: CASIN and ACAS read 0 there (DESIGN CHOICE,
assumption 97). -/
def macChain (ev : Net → Bool) (cfg : Nat → MacCfg) (bank : Nat → MacBank) (base : Nat) : Nat → Nat × Nat
  | 0 => macLink ev (cfg base) (bank base) fun _ => (0, 0)
  | q + 1 => macLink ev (cfg (base + q + 1)) (bank (base + q + 1)) fun _ => macChain ev cfg bank base q

/-- The inputs of a slice (R183), read through `ev`. -/
def macInputs (ev : Net → Bool) (cfg : Nat → MacCfg) (bank : Nat → MacBank) (slice : Nat) : MacIn :=
  let m := cfg slice
  let prev : Unit → Nat × Nat := fun _ =>
    if slice % 16 = 0 then (0, 0) else macChain ev cfg bank (slice / 16 * 16) (slice % 16 - 1)
  { a := if m.ainAcas then (prev ()).1 else netsNat ev m.a
    b := netsNat ev m.b
    c := netsNat ev m.c
    d := netsNat ev m.d
    casin := if m.addendCas then (prev ()).2 else 0
    op := m.accop.getD (opOf (netsNat ev m.opsel))
    sr := ev m.sr != m.srinv
    en := m.cesel.value fun _ => ev m.ce
    divgo := ev m.divgo }

/-- P of a slice (R192, R195, R198).  OREG and MREG are without effect in DIV mode (DESIGN CHOICE, assumption 99). -/
def macOutP (ev : Net → Bool) (cfg : Nat → MacCfg) (bank : Nat → MacBank) (slice : Nat) : Nat :=
  let m := cfg slice
  let k := bank slice
  if m.mulmode = .off then 0
  else if m.mulmode = .div then k.acc % 2 ^ 128
  else if m.oreg then k.oreg
  else m.outP (if m.osrcSum then (macChain ev cfg bank (slice / 16 * 16) (slice % 16)).2 else k.acc)

/-- SATF of a slice. -/
def macOutSatf (ev : Net → Bool) (cfg : Nat → MacCfg) (bank : Nat → MacBank) (slice : Nat) : Nat :=
  let m := cfg slice
  let k := bank slice
  if m.mulmode = .off ∨ m.mulmode = .div then 0
  else if m.oreg then k.satf
  else m.outSatf (if m.osrcSum then (macChain ev cfg bank (slice / 16 * 16) (slice % 16)).2 else k.acc)

/-- A stage register output (R183, R189): 0 AR, 1 BR, 2 CR, 3 DR, 4 MR, 5 ACC. -/
def macStage (ev : Net → Bool) (cfg : Nat → MacCfg) (bank : Nat → MacBank) (slice stage : Nat) : Nat :=
  let m := cfg slice
  let k := bank slice
  if m.mulmode = .off then 0
  else if stage = 0 then (if m.areg then k.ar else (macInputs ev cfg bank slice).a)
  else if stage = 1 then (if m.breg then k.br else netsNat ev m.b)
  else if stage = 2 then (if m.creg then k.cr else netsNat ev m.c)
  else if stage = 3 then (if m.dreg then k.dr else netsNat ev m.d)
  else if stage = 4 then
    m.mSide k (fun _ => (macInputs ev cfg bank slice).a) (fun _ => netsNat ev m.b) (fun _ => netsNat ev m.d)
  else k.acc

/-- The word an attic port reads (R218): data, RVALID, RPOISON; an isolated or unused port reads nothing. -/
def State.atticPort (s : State) (wc : WingCfg) (ev : Net → Bool) (wing block : Nat) (portB : Bool) :
    Word × Bool × Bool :=
  match wc.attic.find? fun p => p.block = block ∧ p.portB = portB with
  | some p => (s.attic.word wing block (netsNat ev (p.addr.take 12))).read
  | none => (0, false, false)

/-- The settled value of a net of a wing in a phase of context `c`; the first argument bounds the depth of logic, beyond
which the net is taken to lie on a loop and has an open value. -/
def State.net (s : State) (c w : Nat) (wc : WingCfg) : Nat → Net → Bool
  | 0, _ => Config.freeBit (s.free + w)
  | k + 1, n =>
    let ev := s.net c w wc k
    let carryOf := fun (cell : Nat) =>
      let g := wc.cell cell
      match g.cinsel with
      | .zero => if g.cmode = .start then false else ev (.carry cell)
      | .one => if g.cmode = .start then true else ev (.carry cell)
      | .bx => if g.cmode = .start then ev g.bx else ev (.carry cell)
    let carryOut := fun (cell : Nat) =>
      let g := wc.cell cell
      if g.cmode = .off then ev (.carry cell)
      else if ev (.lutA cell) then carryOf cell
      else if g.gselBx then ev g.bx else ev (.lutB cell)
    match n with
    | .zero => false
    | .one => true
    | .lutA cell =>
      let g := wc.cell cell
      flagOf g.truth (netsNat ev (g.ins.take (if g.split then 5 else 6)))
    | .lutB cell =>
      let g := wc.cell cell
      flagOf g.truth (32 + netsNat ev (g.ins.take 5))
    | .sum cell => ev (.lutA cell) != carryOf cell
    | .qa cell => s.fab.ff.at false (ffKey w cell 0 c)
    | .qb cell => s.fab.ff.at false (ffKey w cell 1 c)
    | .cout room => carryOut (64 * room + 63)
    | .carry cell =>
      if cell % 64 ≠ 0 then carryOut (cell - 1)
      else if cell / 64 < 32 then false
      else ev (.cout (cell / 64 - 32))
    | .landing room b => s.fab.landing.at false (landKey w room b)
    | .inBit port b => flagOf (s.fab.inVal.at 0 (portKey w port c)) b
    | .srcIso port => s.fab.srcIso.contains (portKey w port c)
    | .rd block portB b => flagOf (s.atticPort wc ev w block portB).1 b
    | .rvalid block portB => (s.atticPort wc ev w block portB).2.1
    | .rpoison block portB => (s.atticPort wc ev w block portB).2.2
    | .macP slice b => bit (macOutP ev wc.mac (fun i => s.macBank (wc.mac i) w i c) slice) b
    | .macStage slice stage b => bit (macStage ev wc.mac (fun i => s.macBank (wc.mac i) w i c) slice stage) b
    | .macSatf slice i => bit (macOutSatf ev wc.mac (fun i => s.macBank (wc.mac i) w i c) slice) i
    | .macPreovf slice i =>
      let m := wc.mac slice
      let b := s.macBank m w slice c
      let x := macInputs ev wc.mac (fun i => s.macBank (wc.mac i) w i c) slice
      bit (m.preOvf (if m.areg then b.ar else x.a) (if m.dreg then b.dr else x.d)) i
    | .macAccovf slice i =>
      decide (i < (wc.mac slice).mulmode.lanes.1) && bit (s.macBank (wc.mac slice) w slice c).accovf i
    | .macDivdone slice =>
      (wc.mac slice).mulmode != .off && (s.macBank (wc.mac slice) w slice c).divcnt == 64
    | .poison => s.fab.poison.contains w
    | .nocFree port =>
      match s.step.cur with
      | some r => (r.nocIn.find? fun x => x.init = 2 * w + port ∧ x.ctx = c).any fun x => x.free
      | none => false
    | .nocResp port b =>
      match s.step.cur with
      | some r =>
        match r.nocIn.find? fun x => x.init = 2 * w + port ∧ x.ctx = c with
        | some x => flagOf (x.resp.getD (b / 64) 0) (b % 64)
        | none => false
      | none => false
    | .nocTag port b =>
      match s.step.cur with
      | some r => (r.nocIn.find? fun x => x.init = 2 * w + port ∧ x.ctx = c).any fun x => bit x.tag b
      | none => false

/-- The depth of logic within which a net must settle. -/
def settleFuel : Nat := 65536

/-- The settled value of a net. -/
def State.settle (s : State) (c w : Nat) (wc : WingCfg) (n : Net) : Bool := s.net c w wc settleFuel n

end Sys2Proof.Machine
end

