-- ==== Sys2Proof/Machine/Corridors.lean ====
section
/-! DEFINITION. Corridors (R255-R268): their ends, the group that carries a channel, failing groups and their repair by a
spare, half width or retirement, and the registers that show them. -/

namespace Sys2Proof.Machine

/-- The dies a corridor joins (R255): 0 to 7 the towers, 8 PN, 9 PS. -/
def corridorEnds : List (Nat × Nat) :=
  [(8, 0), (8, 4), (0, 1), (1, 2), (2, 3), (4, 5), (5, 6), (6, 7), (0, 4), (1, 5), (2, 6), (3, 7), (3, 9), (7, 9)]

/-- Corridor directions (R255). -/
def dirCount : Nat := 28

/-- The dies at the ends of a direction index. -/
def dirEnds (dir : Nat) : Nat × Nat := corridorEnds.getD (dir / 2) (15, 15)

/-- The key of a group. -/
def groupKey (dir g : Nat) : Nat := dir * 34 + g

/-- The state of a group that nothing has changed (R297): working, or a free spare. -/
def groupFresh (k : Nat) : Nat := if k % 34 < 32 then 0 else 5

/-- The state of a group (R297). -/
def Corr.state (c : Corr) (dir g : Nat) : Nat := c.group.get groupFresh (groupKey dir g)

/-- A group's state changed. -/
def Corr.setState (c : Corr) (dir g v : Nat) : Corr := { c with group := c.group.set groupFresh (groupKey dir g) v }

/-- Whether a group carries transfers: working, half width or a spare in service. -/
def Corr.usable (c : Corr) (dir g : Nat) : Bool :=
  let st := c.state dir g
  st = 0 || st = 2 || st = 3 || st = 6

/-- Whether a group runs at half width, by its state or until the step ends (R259). -/
def Corr.atHalf (c : Corr) (dir g : Nat) : Bool :=
  let st := c.state dir g
  st = 2 || st = 3 || c.halfNow.any fun h => h.1 = dir ∧ h.2.1 = g

/-- The spare that stands for a group, or the group itself (R262). -/
def Corr.standIn (c : Corr) (dir g : Nat) : Nat :=
  if c.state dir g = 1 then
    if c.standsFor.at 63 (groupKey dir 32) = g then 32
    else if c.standsFor.at 63 (groupKey dir 33) = g then 33 else g
  else g

/-- Where a channel of a context travels on a corridor: a re-map, and then the spare of its group, if any (R262, R263,
R676). -/
def Corr.place (c : Corr) (ctx : Nat) (h : Hop) : Nat × Nat :=
  match c.moved.find? fun m => m.ctx = ctx ∧ m.dir = h.dir ∧ m.group = h.group ∧ m.slot = h.slot with
  | some m => (c.standIn h.dir m.toGroup, m.toSlot)
  | none => (c.standIn h.dir h.group, h.slot)

/-- A transfer was pending until now on the group that carries a hop (R261). -/
def Corr.used (c : Corr) (ctx : Nat) (h : Hop) (now : Nat) : Corr :=
  { c with lastXfer := c.lastXfer.upd 0 (groupKey h.dir (c.place ctx h).1) now }

/-- Every corridor hop of every channel of a context, as Tolent placed it. -/
def State.hopsOf (s : State) (ctx : Nat) : List Hop :=
  ((s.ctx ctx).wings.flatMap fun w => w.2.outs.flatMap OutPort.route) ++ (s.ctx ctx).porchIns.flatMap PorchIn.route

/-- Hops of a context on one direction. -/
def State.dirHops (s : State) (ctx dir : Nat) : List Hop := (s.hopsOf ctx).filter fun h => h.dir = dir

/-- Corridor directions that a set of contexts uses (R299). -/
def State.dirsOf (s : State) (cs : List Nat) : List Nat :=
  (List.range dirCount).filter fun d => cs.any fun c => !(s.dirHops c d).isEmpty

/-- Channels that a group carries in a context. -/
def State.groupLoad (s : State) (ctx dir g : Nat) : Nat :=
  ((s.dirHops ctx dir).filter fun h => (s.corr.place ctx h).1 = g).length

/-- The field of `CTX.PLANES` that shows a context's plane state (R118). -/
def planeStateF (c : Nat) : Field := ⟨0x30010, 8 * c + 2, 8 * c⟩

/-- The FRESH bit of a context (R118). -/
def planeFreshF (c : Nat) : Field := ⟨0x30010, 8 * c + 3, 8 * c + 3⟩

/-- The plane state of a context (R118): 0 EMPTY, 1 STAGING, 2 STAGED, 3 IN_USE, 4 FAILED. -/
def State.plane (s : State) (c : Nat) : Nat := s.rd (planeStateF c)

/-- The contexts in use (R119). -/
def State.ctxsInUse (s : State) : List Nat := (List.range 4).filter fun c => s.plane c = 3

/-- The registers of one direction follow its groups (R302). -/
def State.corrDirSync (s : State) (dir : Nat) : State :=
  let st := fun g => s.corr.state dir g
  let used := s.ctxsInUse.any fun c => !(s.dirHops c dir).isEmpty
  let load := maxList (s.ctxsInUse.flatMap fun c => (List.range 34).map fun g => s.groupLoad c dir g)
  let cnt := fun (p : Nat → Bool) => ((List.range 34).filter fun g => p (st g)).length
  let s := s.wr (Reg.CORR.DIR.SPAREFREE dir) (cnt fun v => v = 5)
  let s := s.wr (Reg.CORR.DIR.HALF dir) (cnt fun v => v = 2 || v = 3)
  let s := s.wr (Reg.CORR.DIR.RETIRED dir) (cnt fun v => v = 4)
  let s := s.wrb (Reg.CORR.DIR.EXHAUSTED dir) (s.corr.exhausted.contains dir)
  (s.wrb (Reg.CORR.DIR.INUSE dir) used).wr (Reg.CORR.DIR.MAXLOAD dir) load

/-- The CORR registers follow the groups. -/
def State.corrSync (s : State) : State :=
  let s := (List.range dirCount).foldl State.corrDirSync s
  let bad := fun dir => (List.range 34).any fun g => let v := s.corr.state dir g; v = 2 || v = 3 || v = 4
  (s.wr Reg.CORR.SUMMARY.DEGRADED (((List.range dirCount).filter bad).map fun d => 2 ^ d).sum).wrb
    Reg.CORR.SUMMARY.EXHAUSTED !s.corr.exhausted.isEmpty

/-- PROMISE_AT_RISK with a corridor cause: 2 half width, 3 retirement (R265, R266). -/
def State.corrAtRisk (s : State) (cause dir g : Nat) : State :=
  (s.wr Reg.STEP.STAT.AT_RISK 1).post 0x0104 sevWarn srcDevice (cause + dir * 2 ^ 16 + g * 2 ^ 24)

/-- The group that takes one re-mapped channel of a context: the least loaded of the full-width groups with room, else
of the half-width ones (R263); the lowest number among equals. -/
def State.remapTarget (s : State) (ctx dir : Nat) : Option Nat :=
  let room := (List.range 34).filter fun g => s.corr.usable dir g && decide (s.groupLoad ctx dir g < 16)
  let full := room.filter fun g => s.corr.state dir g = 0 || s.corr.state dir g = 6
  let pool := if full.isEmpty then room else full
  pool.foldl (fun best g =>
    match best with
    | none => some g
    | some b => if s.groupLoad ctx dir g < s.groupLoad ctx dir b then some g else best) none

/-- The lowest slot free on a group in a context. -/
def State.freeSlot (s : State) (ctx dir g : Nat) : Nat :=
  (firstFree 16 fun n => !(s.dirHops ctx dir).any fun h => s.corr.place ctx h = (g, n)).getD 15

/-- One channel of a context moved off a retired group; `none` where no group has room (R263, R264). -/
def State.remapHop (s : State) (ctx : Nat) (h : Hop) : Option State :=
  match s.remapTarget ctx h.dir with
  | some g =>
    let m : Moved := { ctx := ctx, dir := h.dir, group := h.group, slot := h.slot, toGroup := g,
                       toSlot := s.freeSlot ctx h.dir g }
    let rest := s.corr.moved.filter fun x =>
      !(x.ctx = ctx ∧ x.dir = h.dir ∧ x.group = h.group ∧ x.slot = h.slot)
    some { s with corr := { s.corr with moved := m :: rest } }
  | none => none

/-- Every channel on a retired group of a direction moved, in the contexts given. -/
def State.remapAll (s : State) (ctxs : List Nat) (dir : Nat) : Option State :=
  ctxs.foldl (fun acc c =>
    acc.bind fun s =>
      (s.dirHops c dir).foldl (fun acc h => acc.bind fun s =>
        if s.corr.state dir (s.corr.place c h).1 = 4 then s.remapHop c h else some s) (some s)) (some s)

/-- Whether some channel of the contexts given lies on a retired group of a direction. -/
def State.needsRemap (s : State) (ctxs : List Nat) (dir : Nat) : Bool :=
  ctxs.any fun c => (s.dirHops c dir).any fun h => s.corr.state dir (s.corr.place c h).1 = 4

/-- Keeper's record of a group that left service (R268). -/
def Corr.note (c : Corr) (dir g v : Nat) : Corr :=
  { c with record := (c.record.filter fun r => !(r.1 = dir ∧ r.2.1 = g)) ++ [(dir, g, v)] }

/-- An exhausted direction (R264): no re-map is made, the avoid map takes it, CORR_EXHAUSTED is posted.  The caller
brings the step engine to FAULT. -/
def State.exhaust (s : State) (dir : Nat) : State :=
  if s.corr.exhausted.contains dir then s
  else
    let s := { s with
      corr := { s.corr with exhausted := s.corr.exhausted ++ [dir] }
      dev := { s.dev with avoidOther := s.dev.avoidOther ++ [(5, 0, 0, 0, dir)] } }
    s.post 0x0404 sevFatal srcDevice dir

/-- A group is retired (R263): its channels are re-mapped by REMAP_COMPLETE, unless it carries none; the result says
whether the direction is exhausted (R264). -/
def State.retireGroup (s : State) (dir g : Nat) : State × Bool :=
  let c := { s.corr.setState dir g 4 with failing := s.corr.failing.filter fun f => !(f.dir = dir ∧ f.group = g) }
  let s := { s with
    corr := c.note dir g 4
    dev := { s.dev with avoidOther := s.dev.avoidOther ++ [(4, 0, 0, g, dir)] } }
  if !s.needsRemap [0, 1, 2, 3] dir then
    ((s.post 0x0403 sevError srcDevice (dir + g * 2 ^ 8)).corrAtRisk 3 dir g, false)
  else
    match s.remapAll [0, 1, 2, 3] dir with
    | some _ => ({ s with corr := { s.corr with remaps := s.corr.remaps ++ [(dir, g, s.now)] } }, false)
    | none => (((s.post 0x0403 sevError srcDevice (dir + g * 2 ^ 8)).corrAtRisk 3 dir g).exhaust dir, true)

/-- A failing group is repaired by the first action of R262 that applies; the result says whether its direction is
exhausted. -/
def State.repairGroup (s : State) (f : Failing) : State × Bool :=
  let dir := f.dir
  let g := f.group
  let c0 := { s.corr with failing := s.corr.failing.filter fun x => !(x.dir = dir ∧ x.group = g) }
  let st := c0.state dir g
  let freeSpare := if c0.state dir 32 = 5 then some 32 else if c0.state dir 33 = 5 then some 33 else none
  if st = 5 then ({ s with corr := (c0.setState dir g 7).note dir g 7 }, false)
  else if st = 1 ∨ st = 4 ∨ st = 7 then ({ s with corr := c0 }, false)
  else match freeSpare with
    | some sp =>
      let served := if st = 6 then c0.standsFor.at 63 (groupKey dir g) else g
      let c := (c0.setState dir g 1).setState dir sp 6
      let c := { c with standsFor := (c.standsFor.upd 63 (groupKey dir g) 63).upd 63 (groupKey dir sp) served }
      let c := (c.note dir g (c.state dir g)).note dir sp 6
      ({ s with corr := c }.post 0x0401 sevInfo srcDevice (dir + g * 2 ^ 8 + sp * 2 ^ 16), false)
    | none =>
      match f.half with
      | some high =>
        if st = 0 ∨ st = 6 ∨ (st = 2 ∧ high) ∨ (st = 3 ∧ !high) then
          let v := if high then 2 else 3
          let s := { s with corr := (c0.setState dir g v).note dir g v }
          ((s.post 0x0402 sevWarn srcDevice (dir + g * 2 ^ 8 + b2n (!high) * 2 ^ 16)).corrAtRisk 2 dir g, false)
        else { s with corr := c0 }.retireGroup dir g
      | none => { s with corr := c0 }.retireGroup dir g

/-- Failing groups in the order of direction and group (R294). -/
def sortFailing (l : List Failing) : List Failing :=
  (List.range (dirCount * 34)).filterMap fun k => l.find? fun f => groupKey f.dir f.group = k

/-- Every failing group repaired at a step end, and the groups at half width for the step at full width again
(R259, R262); the result says whether a direction is exhausted. -/
def State.repairAll (s : State) : State × Bool :=
  let r := (sortFailing s.corr.failing).foldl (fun (acc : State × Bool) f =>
    let x := acc.1.repairGroup f
    (x.1, acc.2 || x.2)) ({ s with corr := { s.corr with halfNow := [] } }, false)
  (r.1.corrSync, r.2)

/-- A group is marked failing (R259-R261). -/
def State.markFailing (s : State) (dir g : Nat) (half : Option Bool) : State :=
  match s.corr.failing.find? fun f => f.dir = dir ∧ f.group = g with
  | some f =>
    let merged := if f.half = half then half else none
    let upd := fun (x : Failing) => if x.dir = dir ∧ x.group = g then { x with half := merged } else x
    { s with corr := { s.corr with failing := s.corr.failing.map upd } }
  | none => { s with corr := { s.corr with failing := s.corr.failing ++ [{ dir := dir, group := g, half := half }] } }

end Sys2Proof.Machine
end

