-- ==== Sys2Proof/Machine/Pins.lean ====
section
/-! DEFINITION. User pins (R104-R110, R610-R612, R658-R678): what an input presents, bank FIFOs, what an output drives.
A pin is numbered `48 * bank + pin`. -/

namespace Sys2Proof.Machine

/-- The number of a user pin. -/
def pinKey (bank pin : Nat) : Nat := bank * 48 + pin

/-- The pin word of R665 in force on a pin. -/
def State.pinWord (s : State) (bank pin : Nat) : Nat := (s.pins.pinWord.at 0 (pinKey bank pin)).toNat

/-- Whether a bank's measured VCCIO is too low (R668). -/
def State.bankLow (s : State) (bank : Nat) : Bool := s.rdb (Reg.IOB.CFG.VLOW bank)

/-- The board drives pins to levels: `pins.input` holds them and the keeper remembers them (R678). -/
def State.drivePins (s : State) (levels : List (Nat × Bool)) : State :=
  let put := fun (p : Pins) (kv : Nat × Bool) =>
    { p with
      input := p.input.upd false kv.1 kv.2
      driven := if p.driven.contains kv.1 then p.driven else kv.1 :: p.driven
      keeper := kv :: p.keeper.filter (·.1 ≠ kv.1) }
  let undriven := { s.pins with driven := [] }
  { s with pins := levels.foldl put undriven }

/-- `IOB.LEVEL` follows the input levels (R672). -/
def State.levelSync (s : State) : State :=
  (List.range 16).foldl (fun s b =>
    s.wr (Reg.IOB.LEVEL.PIN b)
      (((List.range 48).filter fun n => s.pins.input.at false (pinKey b n)).map fun n => 2 ^ n).sum) s

/-- What an input pin presents through its capture (R104, R668, R678). -/
def State.pinIn (s : State) (bank pin : Nat) : Bool × State :=
  let w := s.pinWord bank pin
  let k := pinKey bank pin
  let inv := bit w 29
  let diff := bits w 3 0 = 5 ∨ bits w 3 0 = 6
  if s.bankLow bank then (false, s)
  else if s.pins.driven.contains k then (s.pins.input.at false k != inv, s)
  else if !diff && bits w 20 19 = 2 then (!inv, s)
  else if !diff && bits w 20 19 = 1 then (inv, s)
  else if !diff && bits w 20 19 = 3 && s.pins.keeper.any (·.1 = k) then
    (((s.pins.keeper.find? fun kv => kv.1 = k).map Prod.snd).getD false != inv, s)
  else
    let d := s.drawBit
    (d.1 != inv, d.2)

/-- A bank FIFO, empty where nothing has been written (R105). -/
def State.fifo (s : State) (bank fifo : Nat) (output : Bool) : BankFifo :=
  (s.pins.fifos.find? fun f => f.bank = bank ∧ f.fifo = fifo ∧ f.output = output).getD
    { bank := bank, fifo := fifo, output := output, entries := [], ovf := false }

/-- A bank FIFO changed. -/
def State.setFifo (s : State) (f : BankFifo) : State :=
  { s with pins := { s.pins with fifos := f :: s.pins.fifos.filter fun g =>
    !(g.bank = f.bank ∧ g.fifo = f.fifo ∧ g.output = f.output) } }

/-- The head entry of an input FIFO that a LAUNCH issued now sees (R106). -/
def State.fifoHead (s : State) (bank fifo : Nat) : Option Word :=
  match (s.fifo bank fifo false).entries with
  | [] => none
  | e :: _ => if e.2 ≤ s.now then some e.1 else none

/-- The value of one bit of a porch input channel at a LAUNCH issued now (R104, R106, R107). -/
def State.inSrc (s : State) : InSrc → Bool × State
  | .pin b p => s.pinIn b p
  | .fifoHead b f i => (flagOf ((s.fifoHead b f).getD 0) i, s)
  | .fifoEmpty b f => ((s.fifoHead b f).isNone, s)
  | .fifoInOvf b f => ((s.fifo b f false).ovf, s)
  | .fifoFull b f => (decide (64 ≤ (s.fifo b f true).entries.length), s)
  | .fifoOutOvf b f => ((s.fifo b f true).ovf, s)

/-- The value of a porch input channel at a LAUNCH issued now. -/
def State.captureChan (s : State) (srcs : List InSrc) : Nat × State :=
  srcs.foldr (fun src acc =>
    let r := acc.2.inSrc src
    (b2n r.1 + 2 * acc.1, r.2)) (0, s)

/-- Every porch input channel of the contexts given that is not a cross-seat channel, captured (R104). -/
def State.captureInputs (s : State) (ctxs : List Nat) : List (Nat × Nat × Word) × State :=
  ((ctxs.flatMap fun c => (s.ctx c).porchIns).filter fun p => p.cross.isNone).foldl (fun acc p =>
    if acc.1.any fun v => v.1 = p.porch ∧ v.2.1 = p.chan then acc
    else
      let r := acc.2.captureChan p.bits
      (acc.1 ++ [(p.porch, p.chan, toWord r.1)], r.2)) ([], s)

/-- A pin takes an output level; in a bank whose VCCIO is low it waits for the next COMMIT after it returns (R668). -/
def State.setPin (s : State) (bank pin : Nat) (v : Bool) : State :=
  let k := pinKey bank pin
  { s with pins := { s.pins with output := (k, v != bit (s.pinWord bank pin) 29) :: s.pins.output.filter (·.1 ≠ k) } }

/-- A pin at high impedance. -/
def State.floatPin (s : State) (bank pin : Nat) : State :=
  { s with pins := { s.pins with output := s.pins.output.filter (·.1 ≠ pinKey bank pin) } }

/-- A cue's match time, in units of 2^-32 ns (R437). -/
def cueTime (s : State) (k : Nat) : Nat :=
  s.rd (Reg.TIME.CUE.THI.SEC k) * unitsPerSec + s.rd (Reg.TIME.CUE.TLO.NS k) * 2 ^ 32 +
    s.rd (Reg.TIME.CUE.TLO.FRAC k) * 2 ^ 16

/-- The output time at an instant not long past, in units of 2^-32 ns: what the ticks of the time clock since then have added is
taken off (R417). -/
def State.outAt (s : State) (t : Nat) : Nat :=
  let phase := s.time.phase - (s.now - t) * s.loopRate s.timeLoop
  s.time.out - (s.time.phase / phaseClock - phase / phaseClock) * s.rd Reg.TIME.RATE.RATE

/-- A user output takes a value committed by a COMMIT issued at `issue`: at once on the step path unless the bank's VCCIO is low
(R668); as a timed output at the next match of its bank's cue after the COMMIT issue (R108, R109), at once where that match has
come meanwhile.  A cue that has never been armed has match time 0, which has passed (DESIGN CHOICE, assumption 92). -/
def State.commitPin (s : State) (bank pin : Nat) (v : Bool) (issue : Nat) : State :=
  let k := pinKey bank pin
  if bits (s.pinWord bank pin) 7 6 = 2 then
    let cue := s.rd (Reg.IOB.CFG.OUTCUE bank)
    let late := decide (cueTime s cue < s.outAt issue)
    let met := !late && decide (cueTime s cue ≤ s.time.out) && !s.rdb (Reg.TIME.CUE.THI.ARMED cue)
    let s := if late then s.count Reg.STEP.IOLATE.COUNT 1 else s
    if met then (if s.bankLow bank then s else s.setPin bank pin v)
    else { s with pins := { s.pins with timed := (k, v) :: s.pins.timed.filter (·.1 ≠ k) } }
  else if s.bankLow bank then s
  else s.setPin bank pin v

/-- The waiting timed outputs of the banks that name a cue take effect (R109). -/
def State.applyTimed (s : State) (cue : Nat) : State :=
  let mine := fun (k : Nat) => s.rdb (Reg.IOB.CFG.CUEEN (k / 48)) && s.rd (Reg.IOB.CFG.OUTCUE (k / 48)) == cue
  let s' := (s.pins.timed.filter fun t => mine t.1 ∧ !s.bankLow (t.1 / 48)).foldl
    (fun s t => s.setPin (t.1 / 48) (t.1 % 48) t.2) s
  { s' with pins := { s'.pins with timed := s'.pins.timed.filter fun t => !mine t.1 } }

end Sys2Proof.Machine
end

