-- ==== Sys2Proof/Machine/Fabric.lean ====
section
/-! DEFINITION. Wings, contexts and latch sets: isolation (R175-R178), initial values (R164, R174, R202), floor supplies
(R179, R180), refill and SWITCH (R114-R129), and the capture and commit of a phase (R99, R135-R138, R161, R162, R191). -/

namespace Sys2Proof.Machine

/-! ### Modes and contexts -/

/-- Context mode (R132): 0 SOLO, 1 QUADRILLE, 2 ROTATION. -/
def State.ctxMode (s : State) : Nat := s.rd Reg.CTX.MODE.MODE

/-- The context in a slot of the rotation table. -/
def State.rotSlot (s : State) (i : Nat) : Nat := bits (s.rd Reg.CTX.ROTATION.SLOTS) (2 * i + 1) (2 * i)

/-- The first context of the next step. -/
def State.nextCtx (s : State) : Nat :=
  if s.ctxMode = 1 then 0
  else if s.ctxMode = 2 then s.rotSlot (s.rd Reg.CTX.ROTATION.POS)
  else s.rd Reg.CTX.MODE.ACTCTX

/-- The contexts whose phases make up a step that begins under context `c`. -/
def State.stepCtxs (s : State) (c : Nat) : List Nat :=
  if s.ctxMode = 1 then List.range (s.rd Reg.CTX.MODE.QCOUNT) else [c]

/-- The wings that some of the contexts given use. -/
def State.wingsOf (s : State) (cs : List Nat) : List Nat :=
  (cs.flatMap fun c => (s.ctx c).wings.map Prod.fst).eraseDups

/-- The towers that the contexts given use. -/
def State.towersOf (s : State) (cs : List Nat) : List Nat := ((s.wingsOf cs).map (· / 64)).eraseDups

/-- Whether a step that begins under context `c` runs in device scope (R53, R141). -/
def State.deviceScope (s : State) (c : Nat) : Bool :=
  let cs := s.stepCtxs c
  cs.any (fun c => (s.ctx c).device) || decide (1 < (s.towersOf cs).length)

/-- The step engine shows the context and scope of the next step (R112). -/
def State.showNext (s : State) : State :=
  (s.wr Reg.STEP.STAT.CTX s.nextCtx).wrb Reg.STEP.STAT.SCOPE (s.deviceScope s.nextCtx)

/-! ### Isolation -/

/-- Whether a tower has reported ready (R38). -/
def State.towerReady (s : State) (t : Nat) : Bool := bit (s.rd Reg.DEV.READY.TOWER) t

/-- Whether a wing has failed or a room of it is condemned (R91, R598). -/
def State.wingBad (s : State) (w : Nat) : Bool := s.fab.failed.contains w || s.fab.condemned.any fun x => x.1 = w

/-- Whether a wing is isolated in a phase under context `c` (R175). -/
def State.isolated (s : State) (c w : Nat) : Bool :=
  (s.wing c w).isNone || !s.fab.powered.contains w || s.fab.isoReset.contains w || s.wingBad w ||
    s.fab.isoJob.contains (w, c)

/-- Whether a channel's route passes through a tower under reset (R291). -/
def State.routeCut (s : State) (route : List Hop) : Bool :=
  route.any fun h =>
    let e := dirEnds h.dir
    (e.1 < 8 && !s.towerReady e.1) || (e.2 < 8 && !s.towerReady e.2)

/-- The outbound port of a wing that a receiver names as its source. -/
def State.outPort (s : State) (c w i : Nat) : Option OutPort :=
  (s.wing c w).bind fun wc => wc.outs.find? fun o => o.idx = i

/-- Whether the source of a channel counts as isolated (R177, R178, R291). -/
def State.sourceOut (s : State) (c : Nat) : Peer → Bool
  | .wing w i =>
    s.isolated c w || (match s.outPort c w i with
      | some o => s.routeCut o.route
      | none => true)
  | .porch p ch => ((s.ctx c).porchIns.find? fun x => x.porch = p ∧ x.chan = ch).any fun x => s.routeCut x.route

/-- An inbound port released under R177: it presents the value its ISO field selects and sets SRCISO. -/
def State.releasePort (s : State) (c w : Nat) (p : InPort) : State :=
  let k := portKey w p.idx c
  let v := if p.isoFixed then p.initval else s.fab.inCommitted.at 0 k
  { s with fab := { s.fab with
    inVal := s.fab.inVal.upd 0 k v
    srcIso := if s.fab.srcIso.contains k then s.fab.srcIso else k :: s.fab.srcIso } }

/-- The key of a porch output channel of a context. -/
def porchKey (porch chan ctx : Nat) : Nat := (porch * 4096 + chan) * 4 + ctx

/-! ### Initial values -/

/-- Whether another context than `c` owns a slice's banks (R206). -/
def State.sliceOwnedElsewhere (s : State) (c w slice : Nat) : Bool :=
  [0, 1, 2, 3].any fun d => d ≠ c && (match s.wing d w with
    | some wc => (wc.mac slice).bankDesign
    | none => false)

/-- A wing's state of context `c` cleared: flip-flop copies, banks it may touch, inbound ports. -/
def State.clearWingCtx (s : State) (c w : Nat) : State :=
  let ffOut := fun (kv : Nat × Bool) => kv.1 / 8 / 65536 = w && kv.1 % 4 = c
  let bankOut := fun (kv : Nat × MacBank) =>
    kv.1 / 4 / 128 = w && kv.1 % 4 = c && !s.sliceOwnedElsewhere c w (kv.1 / 4 % 128)
  let portOut := fun (kv : Nat × Word) => kv.1 / 4 / 256 = w && kv.1 % 4 = c
  { s with fab := { s.fab with
    ff := s.fab.ff.filter fun kv => !ffOut kv
    mac := s.fab.mac.filter fun kv => !bankOut kv
    inVal := s.fab.inVal.filter fun kv => !portOut kv
    inCommitted := s.fab.inCommitted.filter fun kv => !portOut kv
    srcIso := s.fab.srcIso.filter fun k => !(k / 4 / 256 = w && k % 4 = c) } }

/-- A slice's banks and BSEL take their initial values (R202). -/
def Fabric.initMac (f : Fabric) (c w : Nat) (sm : Nat × MacCfg) : Fabric :=
  let b := { MacBank.zero with acc := loadC sm.2.accinit.toNat }
  let bs := if sm.2.bankDesign then [0, 1, 2, 3] else [c]
  { f with
    mac := bs.foldl (fun m k => m.upd MacBank.zero (bankKey w sm.1 k) b) f.mac
    bsel := f.bsel.upd 0 (w * 128 + sm.1) sm.2.bselinit }

/-- A wing's copies of context `c` take their INIT values, its banks theirs, its inbound ports INITVAL (R164, R174,
R202). -/
def State.initWing (s : State) (c w : Nat) : State :=
  match s.wing c w with
  | none => s
  | some wc =>
    let s := s.clearWingCtx c w
    let ff := wc.cells.foldl (fun m cc =>
      (m.upd false (ffKey w cc.1 0 c) cc.2.fa.init).upd false (ffKey w cc.1 1 c) cc.2.fb.init) s.fab.ff
    let inVal := wc.inps.foldl (fun m p => m.upd 0 (portKey w p.idx c) p.initval) s.fab.inVal
    let inCommitted := wc.inps.foldl (fun m p => m.upd 0 (portKey w p.idx c) p.initval) s.fab.inCommitted
    let f := (wc.macs.filter fun sm => !s.sliceOwnedElsewhere c w sm.1).foldl (fun f sm => f.initMac c w sm) s.fab
    { s with fab := { f with ff := ff, inVal := inVal, inCommitted := inCommitted } }

/-- Every wing of a context takes its initial values; its porch output channels take theirs (R152, R154). -/
def State.initCtx (s : State) (c : Nat) : State :=
  let s := ((s.ctx c).wings.map Prod.fst).foldl (fun s w => s.initWing c w) s
  (s.ctx c).porchOuts.foldl (fun s p =>
    let k := porchKey p.porch p.chan c
    { s with fab := { s.fab with
      porchVal := s.fab.porchVal.upd 0 k p.initval
      porchCommitted := s.fab.porchCommitted.upd 0 k p.initval } }) s

/-! ### Floor supplies -/

/-- Wings of the contexts given whose floor supply is off (R180). -/
def State.wingsOff (s : State) (cs : List Nat) : List Nat :=
  (s.wingsOf cs).filter fun w => !s.fab.powered.contains w

/-- Floor supplies switched on, with the copies of every context in use loaded in each wing (R164, R180); the caller has
the grant. -/
def State.powerOn (s : State) (ws : List Nat) : State :=
  let s := { s with fab := { s.fab with powered := s.fab.powered ++ ws.filter fun w => !s.fab.powered.contains w } }
  ws.foldl (fun s w => s.ctxsInUse.foldl (fun s c => s.initWing c w) s) s

/-- A MAC bank whose contents are lost: open values of its widths (R184, R189). -/
def MacBank.lost (n : Nat) : MacBank :=
  let w := fun (i : Nat) => (Config.freeWord (n + i)).toNat
  { ar := w 0, br := w 1, cr := w 2, dr := w 3, mr := w 4 + w 5 * 2 ^ 64, acc := w 6 + w 7 * 2 ^ 64 + w 8 % 4 * 2 ^ 128,
    oreg := w 9 + w 10 * 2 ^ 64, satf := w 11 % 16, accovf := w 12 % 16, divcnt := w 13 % 128 }

/-- A wing's flip-flop copies and banks lost (R29, R561): open values, until an event of R164 loads them again. -/
def State.loseWing (s : State) (w : Nat) : State :=
  (List.range 4).foldl (fun s c => match s.wing c w with
    | none => s
    | some wc =>
      let cells := wc.cells.map Prod.fst
      let ff := cells.zipIdx.foldl (fun m x => (m.upd false (ffKey w x.1 0 c) (Config.freeBit (s.free + 2 * x.2))).upd false
        (ffKey w x.1 1 c) (Config.freeBit (s.free + 2 * x.2 + 1))) s.fab.ff
      let base := s.free + 2 * cells.length
      let mac := wc.macs.zipIdx.foldl (fun m x =>
        m.upd MacBank.zero (bankKey w x.1.1 c) (MacBank.lost (base + 14 * x.2))) s.fab.mac
      { s with free := base + 14 * wc.macs.length, fab := { s.fab with ff := ff, mac := mac } }) s

/-- Floor supplies switched off: the wings' flip-flops, banks and latch sets are lost, and their grant returns (R29). -/
def State.powerOff (s : State) (ws : List Nat) : State :=
  let on := ws.filter fun w => s.fab.powered.contains w
  let s := on.foldl State.loseWing s
  { s.ungrant 0x09 on.length with fab := { s.fab with
    powered := s.fab.powered.filter fun w => !ws.contains w
    active := on.foldl (fun m w => m.upd .empty w .empty) s.fab.active
    next := on.foldl (fun m w => m.upd .empty w .empty) s.fab.next
    refills := s.fab.refills.filter fun r => !ws.contains r.wing } }

/-! ### Latch sets -/

/-- The tag of a wing's active set (R116): a context plus 1, or 0. -/
def State.activeTag (s : State) (w : Nat) : Nat := (s.fab.active.at .empty w).tag

/-- The tag of a wing's next set (R116). -/
def State.nextTag (s : State) (w : Nat) : Nat := (s.fab.next.at .empty w).tag

/-- What the active set of a wing drives (R115). -/
def State.live (s : State) (w : Nat) : WingCfg := (s.fab.active.at .empty w).cfg.getD WingCfg.empty

/-- A latch set that a refill has brought: the plane of a context in a wing (R116, R120). -/
def State.latchOf (s : State) (c w : Nat) : Latch := { tag := c + 1, cfg := s.wing c w }

/-- The active sets of the wings that context `c` uses hold it (R121, R595). -/
def State.loadActive (s : State) (c : Nat) : State :=
  { s with fab := { s.fab with
    active := ((s.ctx c).wings.map Prod.fst).foldl (fun m w => m.upd .empty w (s.latchOf c w)) s.fab.active } }

/-- Refills of the next sets of some wings for a SWITCH into context `c`: a wing whose next set already holds it is skipped (R120), and
so is one that is isolated for the context (R534).  A refill of another context that is under way gives way, one of `c` goes on and
now serves `serves` (as in `Refill`). -/
def State.startRefillsIn (s : State) (wings : List Nat) (c serves : Nat) : State :=
  let ws := wings.filter fun w => s.nextTag w != c + 1 && !s.isolated c w
  let going := fun (r : Refill) => r.ctx == c && ws.contains r.wing
  let fresh := ws.filter fun w => !(s.fab.refills.any fun r => r.ctx = c ∧ r.wing = w)
  { s with fab := { s.fab with
    next := fresh.foldl (fun m w => m.upd .empty w .empty) s.fab.next
    refills := ((s.fab.refills.filter fun r => going r || !ws.contains r.wing).map fun (r : Refill) =>
        if going r then { r with serves := serves } else r) ++
      fresh.map fun w => { wing := w, ctx := c, main := true, retry := [], serves := serves } } }

/-- Refills of the next sets for a SWITCH into context `c` (R120, R121). -/
def State.startRefills (s : State) (c serves : Nat) : State := s.startRefillsIn ((s.ctx c).wings.map Prod.fst) c serves

/-- Whether every refill that serves `serves` has acknowledged. -/
def State.refilled (s : State) (serves : Nat) : Bool := !s.fab.refills.any fun r => r.serves = serves

/-- The SWITCH strobe: active and next sets and their tags exchanged (R126). -/
def State.exchange (s : State) : State :=
  { s with fab := { s.fab with active := s.fab.next, next := s.fab.active } }

/-- The SWITCH of a return to context `c` (R125): the sets of every wing are exchanged but in those that use `c` and whose active set
holds it already. -/
def State.exchangeBack (s : State) (c : Nat) : State :=
  let keep := fun (w : Nat) => (s.wing c w).isSome && s.activeTag w == c + 1
  let mix := fun (a b : Cells Latch) =>
    ((a.map Prod.fst ++ b.map Prod.fst).eraseDups).foldl (fun m w =>
      Cells.upd .empty m w (if keep w then a.at .empty w else b.at .empty w)) ([] : Cells Latch)
  { s with fab := { s.fab with active := mix s.fab.active s.fab.next, next := mix s.fab.next s.fab.active } }

/-- `CTX.SWCOUNT` counts a SWITCH into context `c`, which is active (R155). -/
def State.countSwitch (s : State) (c : Nat) : State :=
  (s.wr Reg.CTX.MODE.ACTCTX c).wr Reg.CTX.SWCOUNT.COUNT (s.rd Reg.CTX.SWCOUNT.COUNT + 1)

/-- A SWITCH into context `c` completes: the sets are exchanged, the context is active, `CTX.SWCOUNT` counts it. -/
def State.doSwitch (s : State) (c : Nat) : State := s.exchange.countSwitch c

/-- The context of the next SWITCH, if steps go on: in QUADRILLE the second context of the fold, in ROTATION the first
context after the current slot that differs from it (R121, R124, R142). -/
def State.lookahead (s : State) : Option Nat :=
  if s.ctxMode = 1 then some 1
  else if s.ctxMode = 2 then
    let pos := s.rd Reg.CTX.ROTATION.POS
    let n := max 1 (s.rd Reg.CTX.MODE.ROTLEN)
    ((List.range n).map fun i => s.rotSlot ((pos + 1 + i) % n)).find? fun c => c ≠ s.rotSlot pos
  else none

/-- The refill ahead of the next step's first SWITCH starts (R121, R124). -/
def State.refillAhead (s : State) (serves : Nat) : State :=
  match s.lookahead with
  | some c => s.startRefills c serves
  | none => s

/-! ### Capture and commit -/

/-- The D input of a flip-flop (R160). -/
def FfCfg.d (f : FfCfg) (ev : Net → Bool) (g : CellCfg) (cell : Nat) (isB : Bool) : Bool :=
  match f.dsel with
  | .a => ev (.lutA cell)
  | .b => ev (.lutB cell)
  | .s => ev (.sum cell)
  | .byp => if isB then ev g.bys else ev g.bx
  | .other => if isB then ev (.qa cell) else ev (.qb cell)

/-- What a flip-flop copy captures (R161). -/
def FfCfg.capture (f : FfCfg) (ev : Net → Bool) (g : CellCfg) (cell : Nat) (isB old : Bool) : Bool :=
  let srOn := f.srmode != .none && (ev g.sr != g.srinv)
  if srOn then
    match f.srmode with
    | .reset => false
    | .set => true
    | .init => f.init
    | .none => old
  else if f.ensel.value fun _ => ev g.ce then f.d ev g cell isB
  else old

/-- The pending values of a wing's flip-flop copies at the COMMIT of the phase of context `c`. -/
def State.captureFf (s : State) (c w : Nat) (wc : WingCfg) : List (Nat × Bool) :=
  let ev := s.settle c w wc
  wc.cells.flatMap fun cc =>
    let one := fun (f : FfCfg) (isB : Bool) =>
      let k := ffKey w cc.1 (b2n isB) c
      if f.follow.isSome && s.ctxMode = 1 then [] else [(k, f.capture ev cc.2 cc.1 isB (s.fab.ff.at false k))]
    one cc.2.fa false ++ one cc.2.fb true

/-- The pending values of a wing's MAC banks, each with whether its domain has an edge (R191). -/
def State.captureMac (s : State) (c w edge : Nat) (wc : WingCfg) : List (Nat × Bool × MacBank) :=
  let ev := s.settle c w wc
  let bank := fun i => s.macBank (wc.mac i) w i c
  (wc.macs.filter fun sm => sm.2.mulmode != .off).map fun sm =>
    (bankKey w sm.1 (s.bankOf sm.2 w sm.1 c), bit edge sm.2.domain,
      sm.2.nextBank (bank sm.1) (macInputs ev wc.mac bank sm.1))

/-- The pending values of a wing's bank selects (R204). -/
def State.captureBsel (s : State) (c w edge : Nat) (wc : WingCfg) : List (Nat × Nat) :=
  let ev := s.settle c w wc
  (wc.macs.filter fun sm => sm.2.bankDesign && bit edge sm.2.domain && ev sm.2.bse).map fun sm =>
    (w * 128 + sm.1, netsNat ev (sm.2.bselin.take 2))

/-- The attic writes that a wing issues in a phase (R219): place, whether the port is B, data. -/
def State.captureAttic (s : State) (c w edge : Nat) (wc : WingCfg) : List (Nat × Bool × Word) :=
  let ev := s.settle c w wc
  (wc.attic.filter fun p => p.write && bit edge p.domain && ev p.we).map fun p =>
    ((w * 24 + p.block) * 4096 + netsNat ev (p.addr.take 12), p.portB, toWord (netsNat ev (p.wd.take 64)))

/-- The request on the nets of a wing NoC port (R269, R272): 8-byte aligned, up to 64 words. -/
def NocPortCfg.request (p : NocPortCfg) (ev : Net → Bool) : NocReq :=
  let words := netsNat ev (p.len.take 6) + 1
  { write := ev p.write, addr := netsNat ev (p.addr.take 40) / 8 * 8, words := words,
    firstbe := netsNat ev (p.firstbe.take 8), lastbe := netsNat ev (p.lastbe.take 8),
    data := if ev p.write then (List.range words).map fun k => toWord (netsNat ev ((p.data.drop (64 * k)).take 64)) else [] }

/-- The requests that a wing's NoC ports commit, and the pops (R288, R289): the port, the context, and the request or none for a
pop. -/
def State.captureNoc (s : State) (c w : Nat) (wc : WingCfg) : List (Nat × Nat × Option NocReq) :=
  let ev := s.settle c w wc
  wc.nocs.flatMap fun p =>
    (if ev p.valid then [(2 * w + p.port, c, some (p.request ev))] else []) ++
    (if ev p.pop then [(2 * w + p.port, c, none)] else [])

/-- The uses of bank FIFOs that a wing commits (R106, R107): bank, FIFO, output, strobe, clear, data.  They act at every COMMIT,
whatever EDGE holds (DESIGN CHOICE, assumption 92). -/
def State.captureFifo (s : State) (c w : Nat) (wc : WingCfg) : List (Nat × Nat × Bool × Bool × Bool × Word) :=
  let ev := s.settle c w wc
  ((s.ctx c).fifos.filter fun f => f.wing = w).map fun f =>
    (f.bank, f.fifo, f.output, ev f.strobe, ev f.clr, toWord (netsNat ev (f.data.take 64)))

/-- The landings that a room's cells write at the COMMIT of a phase other than the last (R138, R165). -/
def State.captureLandings (s : State) (c w : Nat) (wc : WingCfg) : List (Nat × Bool) :=
  let ev := s.settle c w wc
  wc.cells.filterMap fun cc =>
    let k := landKey w (cc.1 / 64) (cc.1 % 64)
    match cc.2.landsel with
    | .none => none
    | .a => some (k, ev (.lutA cc.1))
    | .b => some (k, ev (.lutB cc.1))
    | .s => some (k, ev (.sum cc.1))
    | .qa => some (k, ev (.qa cc.1))
    | .qb => some (k, ev (.qb cc.1))

/-- The uses of bank FIFOs by an isolated wing (R177): its porch output channels present what their ISO fields select. -/
def State.isolatedFifo (s : State) (c : Nat) : List (Nat × Nat × Bool × Bool × Bool × Word) :=
  ((s.ctx c).fifos.filter fun f => s.isolated c f.wing).map fun f =>
    let v := fun (chan : Nat) => s.fab.porchVal.at 0 (porchKey (f.bank / 8) chan c)
    (f.bank, f.fifo, f.output, flagOf (v f.ctl) 0, flagOf (v f.ctl) 1, v f.chan)

/-- The COMMIT of the phase of context `c` captures what the active set of every wing that takes part makes of it (R115, R137, R161,
R191); `last` says whether it is the step's COMMIT, which writes no landing.  All nets are read before anything changes. -/
def State.capturePhase (s : State) (c edge : Nat) (last : Bool) : State :=
  let part := fun (w : Nat) => !s.isolated c w && (match s.step.cur with
    | some r => r.wings.any fun x => x.wing = w
    | none => true)
  let ws := ((s.ctx c).wings.filter fun x => part x.1).map fun x => (x.1, s.live x.1)
  let f := s.fab
  let lands := if last then [] else ws.flatMap fun x => s.captureLandings c x.1 x.2
  { s with fab := { f with
    ffPend := f.ffPend ++ ws.flatMap fun x => s.captureFf c x.1 x.2
    macPend := f.macPend ++ ws.flatMap fun x => s.captureMac c x.1 edge x.2
    bselPend := f.bselPend ++ ws.flatMap fun x => s.captureBsel c x.1 edge x.2
    atticPend := f.atticPend ++ ws.flatMap fun x => s.captureAttic c x.1 edge x.2
    nocPend := f.nocPend ++ ws.flatMap fun x => s.captureNoc c x.1 x.2
    fifoPend := (f.fifoPend ++ ws.flatMap fun x => s.captureFifo c x.1 x.2) ++ s.isolatedFifo c
    poisonClrPend := f.poisonClrPend ++
      (ws.filter fun x => s.settle c x.1 x.2 x.2.poisonClr).map Prod.fst
    landing := lands.foldl (fun m kv => m.upd false kv.1 kv.2) f.landing } }

/-- The value that a flip-flop copy takes at the step's COMMIT (R162). -/
def State.commitValue (s : State) (key : Nat) (f : FfCfg) : Bool :=
  let src := match f.follow with
    | some q => if s.ctxMode = 1 then key / 4 * 4 + q else key
    | none => key
  match s.fab.ffPend.find? fun kv => kv.1 = src with
  | some kv => kv.2
  | none => s.fab.ff.at false src

/-- The flip-flop copies that change at the step's COMMIT (R99, R162). -/
def State.commitFf (s : State) (cs : List Nat) (edge : Nat) : List (Nat × Bool) :=
  cs.flatMap fun c => (s.ctx c).wings.flatMap fun x => x.2.cells.flatMap fun cc =>
    let one := fun (f : FfCfg) (isB : Bool) =>
      let k := ffKey x.1 cc.1 (b2n isB) c
      if bit edge f.domain then [(k, s.commitValue k f)] else []
    one cc.2.fa false ++ one cc.2.fb true

/-- Nothing pending (R125). -/
def Fabric.noPending (f : Fabric) : Fabric :=
  { f with ffPend := [], macPend := [], bselPend := [], atticPend := [], nocPend := [], fifoPend := [],
           poisonClrPend := [], tokenStep := [] }

/-- The fabric's part of the step's COMMIT (R99, R136, R162, R191, R204): flip-flops, MAC banks, bank selects. -/
def State.commitFabric (s : State) (cs : List Nat) (edge : Nat) : State :=
  let ffs := s.commitFf cs edge
  { s with fab := { s.fab with
    ff := ffs.foldl (fun m kv => m.upd false kv.1 kv.2) s.fab.ff
    mac := (s.fab.macPend.filter fun x => x.2.1).foldl (fun m x => m.upd MacBank.zero x.1 x.2.2) s.fab.mac
    bsel := s.fab.bselPend.foldl (fun m x => m.upd 0 x.1 x.2) s.fab.bsel } }

/-- The attic's part of the step's COMMIT: design writes, port A's where both ports write a word (R219, R221), then held
maintenance writes (R224). -/
def State.commitAttic (s : State) : State :=
  let ws := s.fab.atticPend
  let kept := ws.filter fun x => !(x.2.1 && ws.any fun y => y.1 = x.1 && !y.2.1)
  let put := fun (m : Attic) (x : Nat × Bool × Word) =>
    m.write (x.1 / 4096 / 24) (x.1 / 4096 % 24) (x.1 % 4096) x.2.2
  let hit := fun (h : MaintWrite) => h.scrub && kept.any fun x => x.1 = (h.wing * 24 + h.block) * 4096 + h.word
  let held := s.attic.held.filter fun h => !hit h
  ({ s with attic := { kept.foldl put s.attic with held := held } }).flushHeld

/-- The poison signals at the COMMIT of a step of the contexts given: POISON_CLR first, then the raises of R234 (R237).  A wing that is
isolated in every phase of the step holds its signal (R176). -/
def State.commitPoison (s : State) (cs : List Nat) : State :=
  let kept := s.fab.poison.filter fun w => !s.fab.poisonClrPend.contains w
  let holds := fun (w : Nat) => cs.all fun c => s.isolated c w
  { s with fab := { s.fab with
    poison := kept ++ s.fab.poisonRaise.eraseDups.filter fun w => !kept.contains w && !holds w
    poisonRaise := [] } }

/-- The FIFO uses of the step's COMMIT (R106, R107); `seen` is the instant from which the bank-clock side may read a
pushed entry.  A pop removes the head entry, also one that no LAUNCH has seen yet (DESIGN CHOICE, assumption 92). -/
def State.commitFifos (s : State) (seen : Nat → Nat) : State :=
  s.fab.fifoPend.foldl (fun s u =>
    let f := s.fifo u.1 u.2.1 u.2.2.1
    let f := if u.2.2.2.2.1 then { f with ovf := false } else f
    if !u.2.2.2.1 then s.setFifo f
    else if u.2.2.1 then
      if f.entries.length < 64 then s.setFifo { f with entries := f.entries ++ [(u.2.2.2.2.2, seen u.1)] }
      else (s.setFifo { f with ovf := true }).count (Reg.IOB.DROP.OUTDROP u.1) 1
    else s.setFifo { f with entries := f.entries.drop 1 }) s

/-- What a user output takes at a COMMIT: whether it drives, and the value its source holds after that COMMIT (R108).  While the
source wing is isolated, its porch output channel presents INITVAL with ISO = FIXED, and the output keeps its held value with ISO =
HOLD, which `none` stands for (R177). -/
def State.pinOutValue (s : State) (c : Nat) (p : PinOut) : Option (Bool × Bool) :=
  if s.isolated c p.wing then
    match (s.ctx c).porchOuts.find? fun o => o.porch = p.bank / 8 ∧ o.chan = p.chan with
    | some o => if o.isoFixed then some (p.enable.isNone || flagOf o.initval p.enBit, flagOf o.initval p.bit) else none
    | none => none
  else
    (s.wing c p.wing).map fun wc =>
      ((match p.enable with
        | some e => s.settle c p.wing wc e
        | none => true), s.settle c p.wing wc p.src)

/-- The user outputs of the step's COMMIT, issued at `issue`, take their values (R108, R109, R177). -/
def State.commitPins (s : State) (cs : List Nat) (issue : Nat) : State :=
  cs.foldl (fun s c => (s.ctx c).pinOuts.foldl (fun s p =>
    match s.pinOutValue c p with
    | some v => if v.1 then s.commitPin p.bank p.pin v.2 issue else s.floatPin p.bank p.pin
    | none => s) s) s

end Sys2Proof.Machine
end

