-- ==== Sys2Proof/Machine/NocOps.lean ====
section
/-! DEFINITION. The hallway (R269-R299): targets, routes in the folded torus, tags, issuing a request, answering one, and
what an initiator does with a completed transaction. -/

namespace Sys2Proof.Machine

/-! ### Statuses and places -/

/-- Hallway status OK (R274). -/
def hsOk : Nat := 0
/-- Hallway status ABORT_ROUTE (R274). -/
def hsAbort : Nat := 1
/-- Hallway status TARGET_RESET (R274). -/
def hsReset : Nat := 2
/-- Hallway status DECODE (R274). -/
def hsDecode : Nat := 3
/-- Hallway status DATA_ERROR (R274). -/
def hsData : Nat := 4
/-- Hallway status REFUSED (R274). -/
def hsRefused : Nat := 5
/-- Hallway status TIMEOUT (R274). -/
def hsTimeout : Nat := 6
/-- Hallway status NOROUTE (R274). -/
def hsNoroute : Nat := 7

/-- Initiator PCIe DMA (R271). -/
def iniPcie : Nat := 1024
/-- Initiator Keeper (R271). -/
def iniKeeper : Nat := 1025
/-- Initiator configuration engine (R271). -/
def iniConfig : Nat := 1026
/-- Initiator trace engine (R271). -/
def iniTrace : Nat := 1027

/-- Local time in ns, bits [31:0] (R272).  R49 lets each receiver's copy differ from the time unit by up to 0.5 ns; the model's
copies are equal to it (DESIGN CHOICE, assumption 94). -/
def State.localNs (s : State) : Nat := s.time.out / 2 ^ 32 % 2 ^ 32

/-- The channel that a map gives an address (R310). -/
def G6Map.channel (m : G6Map) (a : Nat) : Nat :=
  ((List.range 4).map fun i => popcount 40 (Nat.land a (m.cm.getD i 0)) % 2 * 2 ^ i).sum

/-- The active map, or the pending one before any G6_INIT. -/
def State.g6map (s : State) : G6Map := s.g6.active.getD s.g6.pend

/-- Which porch a BAR0 offset's register is at home on, or which tower (R477): target numbers of R270. -/
def registerHome (a : Nat) : Nat :=
  if 0x90000 ≤ a ∧ a < 0xA0000 then (if a < 0x98000 then 0x10 else 0x11)
  else if 0xA0000 ≤ a ∧ a < 0xB0000 then (if a % 0x10000 / 0x1000 < 2 then 0x10 else 0x11)
  else if 0xC0000 ≤ a ∧ a < 0xD0000 then 0x11
  else if 0xE0000 ≤ a ∧ a < 0xE8000 then 0x08 + (a - 0xE0000) / 0x1000
  else if 0x120000 ≤ a ∧ a < 0x12F000 then (if a % 0x10000 / 0x800 < 8 then 0x10 else 0x11)
  else 0x10

/-- The target of a hallway address (R269, R270); `none` is DECODE. -/
def State.target (s : State) (a : Nat) : Option Nat :=
  if a < 0x1000000000 then
    if a < s.rd Reg.MEM.CAP.BYTES then some (0x20 + s.g6map.channel a / 2) else none
  else if a < 0x1000000000 + atticEnd then some ((a - 0x1000000000) / 0x3000000)
  else if 0x1100000000 ≤ a ∧ a < 0x1101000000 then some (registerHome (a - 0x1100000000))
  else none

/-! ### Routers -/

/-- The ring position of a torus coordinate (R275). -/
def ringPos (c : Nat) : Nat := if c = 0 then 0 else if c = 2 then 1 else if c = 3 then 2 else 3

/-- The torus coordinate at a ring position (R275). -/
def ringCoord (p : Nat) : Nat := if p % 4 = 0 then 0 else if p % 4 = 1 then 2 else if p % 4 = 2 then 3 else 1

/-- The coordinate one place on around a ring. -/
def ringStep (forward : Bool) (c : Nat) : Nat := ringCoord (ringPos c + (if forward then 1 else 3))

/-- The shorter way around a ring, the positive one between equals (R276). -/
def ringForward (c d : Nat) : Bool := decide ((ringPos d + 4 - ringPos c) % 4 ≤ 2)

/-- Router number of a tower's HA (half 0) or HB (half 1) (R43, R275). -/
def routerOf (tower half : Nat) : Nat := 4 * (tower % 4) + tower / 4 * 2 + half

/-- The tower of a router. -/
def routerTower (r : Nat) : Nat := r % 4 / 2 * 4 + r / 4

/-- Whether a router is in service (R278). -/
def State.routerUp (s : State) (r : Nat) : Bool := bit (s.rd Reg.NOC.STAT.INSERVICE) r

/-- The router of a wing (R47). -/
def wingRouter (w : Nat) : Nat := routerOf (w / 64) (if w % 8 < 4 then 0 else 1)

/-- Steps around a ring between two coordinates. -/
def ringDist (c d : Nat) : Nat := let k := (ringPos d + 4 - ringPos c) % 4; min k (4 - k)

/-- The destination router of a target, for a packet at router `r` (R277). -/
def targetRouter (t r : Nat) : Nat :=
  if t < 0x10 then
    let a := routerOf (t % 8) 0
    let b := routerOf (t % 8) 1
    if ringDist (r % 4) (b % 4) < ringDist (r % 4) (a % 4) then b else a
  else if t = 0x11 ∨ (0x24 ≤ t ∧ t < 0x28) then 12 + r % 4
  else r % 4

/-- The destination router of a packet at router `r`: its target's, or its initiator's for a response. -/
def Packet.goal (p : Packet) (r : Nat) : Nat :=
  if p.type < 8 then targetRouter p.dest r
  else if p.init < 1024 then wingRouter (p.init / 2)
  else r % 4

/-- The next router of the dimension-order route (R276). -/
def orderNext (r d : Nat) : Nat :=
  if r % 4 ≠ d % 4 then r / 4 * 4 + ringStep (ringForward (r % 4) (d % 4)) (r % 4)
  else ringStep (ringForward (r / 4) (d / 4)) (r / 4) * 4 + r % 4

/-- Whether every router on the dimension-order route is in service. -/
def State.orderClear (s : State) : Nat → Nat → Nat → Bool
  | 0, _, _ => true
  | n + 1, r, d => r = d || (s.routerUp (orderNext r d) && s.orderClear n (orderNext r d) d)

/-- The neighbours of a router, row ring first, positive direction first (R278). -/
def neighbours (r : Nat) : List Nat :=
  [r / 4 * 4 + ringStep true (r % 4), r / 4 * 4 + ringStep false (r % 4),
    ringStep true (r / 4) * 4 + r % 4, ringStep false (r / 4) * 4 + r % 4]

/-- The routers in service from which `d` can be reached in `n` hops or fewer. -/
def State.within (s : State) (d : Nat) : Nat → List Nat
  | 0 => if s.routerUp d then [d] else []
  | n + 1 =>
    let near := s.within d n
    (List.range 16).filter fun r => near.contains r || (s.routerUp r && (neighbours r).any near.contains)

/-- Hops from `r` to `d` through routers in service. -/
def State.hopsTo (s : State) (r d : Nat) : Option Nat :=
  (List.range 17).find? fun n => (s.within d n).contains r || (r == d && n == 0) ||
    (decide (0 < n) && (neighbours r).any (s.within d (n - 1)).contains)

/-- The next router of a packet at `r` bound for `d`, and whether it leaves the dimension-order route (R276, R278). -/
def State.nextRouter (s : State) (r d : Nat) : Option (Nat × Bool) :=
  if s.orderClear 8 r d then some (orderNext r d, false)
  else match s.hopsTo r d with
    | none => none
    | some n => ((neighbours r).find? fun x => (s.within d (n - 1)).contains x).map fun x => (x, true)

/-! ### Tags -/

/-- The initiator that a tag block belongs to after DEV_RST_N, plus 1; 0 unassigned (R283). -/
def blockFresh (b : Nat) : Nat :=
  if b < 3072 then b / 3 + 1 else if b < 3584 then 1025 else if b < 3616 then 1026
  else if b < 3744 then 1027 else if b < 3872 then 1028 else 0

/-- The first tag block of an initiator after DEV_RST_N. -/
def firstBlock (i : Nat) : Nat :=
  if i < 1024 then 3 * i else if i = 1024 then 3072 else if i = 1025 then 3584 else if i = 1026 then 3616 else 3744

/-- The holder of a tag block. -/
def Noc.holder (n : Noc) (b : Nat) : Nat := n.blocks.get blockFresh b

/-- Tags in use or in quarantine of an initiator. -/
def Noc.tagsOf (n : Noc) (i : Nat) : List TagUse := n.tags.filter fun t => t.init = i

/-- The first free tag of an initiator (R284). -/
def Noc.freeTag (n : Noc) (i : Nat) : Option Nat :=
  let mine := (List.range 4096).filter fun k => n.holder ((k + firstBlock i) % 4096) = i + 1
  (mine.flatMap fun k => (List.range 16).map fun j => (k + firstBlock i) % 4096 * 16 + j).find? fun t =>
    !n.tags.any fun u => u.tag = t

/-- INUSE of an initiator follows its tags (R300). -/
def State.tagSync (s : State) (i : Nat) : State :=
  s.wr (Reg.NOC.INI.TAGS.INUSE i) (s.noc.tagsOf i).length

/-- Unassigned tags (R300). -/
def State.freeTagSync (s : State) : State :=
  s.wr Reg.NOC.STAT.FREETAGS ((((List.range 4096).filter fun b => s.noc.holder b = 0).length) * 16)

/-- Femtoseconds that the meter of an initiator takes for one byte (R287). -/
def State.bytePeriod (s : State) (i : Nat) : Nat :=
  let r := s.rd (Reg.NOC.INI.TAGS.RESERVE i)
  if r = 0 then 1000000 else 1000000 / (8 * r)

/-- The initiator whose meter has 4 KiB of credit may send so many bytes now: the instant its credit is whole again,
if it may (R287). -/
def State.meter (s : State) (i bytes : Nat) : Option Nat :=
  let full := max s.now (s.noc.credit.at 0 i) + bytes * s.bytePeriod i
  if full ≤ s.now + 4096 * s.bytePeriod i then some full else none

/-- Bytes that an initiator moves without waiting for credit are charged to its meter (R299). -/
def State.charge (s : State) (i bytes : Nat) : State :=
  { s with noc := { s.noc with
    credit := s.noc.credit.upd 0 i (max s.now (s.noc.credit.at 0 i) + bytes * s.bytePeriod i) } }

/-! ### Completing a transaction -/

/-- Whether a wing discards the responses of its NoC ports to a context (R175, R176): isolated for another cause than an unused
phase. -/
def State.dropsResponses (s : State) (w c : Nat) : Bool :=
  !s.fab.powered.contains w || s.fab.isoReset.contains w || s.wingBad w || s.fab.isoJob.contains (w, c)

/-- What an initiator does with a completed transaction (R284, R285, R289, R476, R616): `tag` is presented to a wing
port beside the status. -/
def State.transactionDone (s : State) (p : Purpose) (init tag : Nat) (write : Bool) (status : Nat) (data : List Word) :
    State :=
  match p with
  | .bar2 offset =>
    let s := if status = hsOk then s else s.hallwayError true status offset
    if write then s
    else if status = hsOk ∨ status = hsData then s.send (.bar2Data offset (status != hsOk) data)
    else s.send (.bar2Data offset false (data.map fun _ => toWord (2 ^ 64 - 1)))
  | .wingPort c =>
    if s.dropsResponses (init / 2) c then s
    else { s with noc := { s.noc with
      resp := s.noc.resp ++ [(init, c, toWord (tag + status * 2 ^ 16) :: data, s.now + 4 * fsNs)] } }
  | .trace =>
    match s.dbg.trace with
    | some t => { s with dbg := { s.dbg with trace := some { t with buffered := t.buffered - 1 } } }
    | none => s
  | .keeper => s
  | .engine _ => s

/-- All ones for the words of a failed read (R476). -/
def onesFor (n : Nat) : List Word := List.replicate n (toWord (2 ^ 64 - 1))

/-! ### Issuing and answering -/

/-- The router at which a request enters the hallway (R277); one in service of row 0 where its own is not. -/
def State.entryRouter (s : State) (init t addr : Nat) : Option Nat :=
  if init < 1024 then (if s.routerUp (wingRouter (init / 2)) then some (wingRouter (init / 2)) else none)
  else
    let col := if t < 0x10 then targetRouter t (routerOf (t % 8) 0 % 4) % 4 else addr / 512 % 4
    if s.routerUp col then some col else (List.range 4).find? s.routerUp

/-- The delay that a perturbation gives an initiator's requests, in ns (R620 kind 3). -/
def State.iniDelay (s : State) (i : Nat) : Nat :=
  ((s.dbg.perts.filter fun p => p.acts && p.kind = 3 && bits p.w1.toNat 10 0 = i).map
    fun p => bits p.w2.toNat 15 0).sum

/-- Whether a hallway reset keeps new requests out (R292). -/
def State.hallwayHeld (s : State) : Bool := s.dev.resets.any fun j => j.scope = 4 ∧ j.begun ∧ !j.back

/-- Whether a wing port's buffer of 16 responses has no room for what completes next (R289). -/
def State.bufferFull (s : State) (init : Nat) (p : Purpose) : Bool :=
  match p with
  | .wingPort c => !s.dropsResponses (init / 2) c && decide (16 ≤ (s.noc.resp.filter fun r => r.1 = init).length)
  | _ => false

/-- A transaction that never enters the hallway completes with a status (R270, R278). -/
def State.failsAtOnce (s : State) (q : Packet) (purpose : Purpose) (status : Nat) : State :=
  s.transactionDone purpose q.init 0 (q.type == 2) status (if q.type = 2 then [] else onesFor (q.len + 1))

/-- A request enters the hallway with a tag, if the initiator has one and its meter allows; `none` where it waits
(R284, R287, R292).  A request whose address decodes to nothing completes at once (R270); it waits only for room in the buffer of its
wing port (R289; DESIGN CHOICE, assumption 105).  The ports of a wing that has failed or has a condemned room issue nothing (R293). -/
def State.tryIssue (s : State) (q : Packet) (purpose : Purpose) : Option State :=
  let write := q.type = 2
  match s.target q.addr with
  | none => if s.bufferFull q.init purpose then none else some (s.failsAtOnce q purpose hsDecode)
  | some t =>
    if s.hallwayHeld ∨ (q.init < 1024 ∧ s.wingBad (q.init / 2)) then none
    else match s.entryRouter q.init t q.addr with
    | none =>
      if s.bufferFull q.init purpose then none
      else
      let s := (s.count Reg.NOC.ABORTS.NOROUTE 1).postLimited 0x0409 q.init sevError srcDevice (q.init + t * 2 ^ 16)
      some (s.failsAtOnce q purpose hsNoroute)
    | some r =>
      match s.noc.freeTag q.init, s.meter q.init (32 + 8 * (q.len + 1)) with
      | some tag, some full =>
        let gen := s.noc.gens.at 0 tag
        let pkt := { q with
          dest := t, tag := tag, gen := gen, urg := s.rd (Reg.NOC.INI.TAGS.URG q.init), entry := s.localNs
          ready := s.now + s.iniDelay q.init * fsNs }
        let use : TagUse :=
          { tag := tag, init := q.init, gen := gen, write := write, words := q.len + 1, target := t, entry := s.now,
            purpose := purpose, quarantine := none }
        let s := { s with noc := { s.noc with
          routers := s.noc.routers ++ [(r, pkt)]
          tags := s.noc.tags ++ [use]
          credit := s.noc.credit.upd 0 q.init full
          lastTag := if q.init < 1024 then s.noc.lastTag.upd 0 q.init tag else s.noc.lastTag } }
        some (s.tagSync q.init)
      | _, _ => none

/-- A request packet before its tag (R272). -/
def requestPacket (init : Nat) (write : Bool) (addr words firstbe lastbe : Nat) (data : List Word) : Packet :=
  { type := if write then 2 else 1, dest := 0, init := init, tag := 0, gen := 0, urg := 0, len := words - 1,
    firstbe := firstbe, lastbe := lastbe, status := 0, erridx := 0, addr := addr, entry := 0, alt := false,
    data := data, ready := 0, buf := 0 }

/-- An initiator issues a request, or waits behind its earlier ones (R284); one that is unmapped waits behind none (R270). -/
def State.issue (s : State) (q : Packet) (purpose : Purpose) : State :=
  let wait := { s with noc := { s.noc with waiting := s.noc.waiting ++ [(q.init, q, purpose)] } }
  if (s.target q.addr).isSome ∧ s.noc.waiting.any fun w => w.1 = q.init then wait
  else (s.tryIssue q purpose).getD wait

/-- Waiting requests enter as tags and credit allow, each initiator's in order. -/
def State.pump (s : State) : State :=
  (s.noc.waiting).foldl (fun s w =>
    let first := s.noc.waiting.find? fun x => x.1 = w.1
    if first = some w then
      match s.tryIssue w.2.1 w.2.2 with
      | some s' => { s' with noc := { s'.noc with waiting := s'.noc.waiting.erase w } }
      | none => s
    else s) s

/-- A response to a request (R272, R274): read data with OK or DATA_ERROR, write done, or an error response. -/
def Packet.response (q : Packet) (status erridx : Nat) (data : List Word) : Packet :=
  let ty := if q.type = 1 ∧ (status = hsOk ∨ status = hsData) then 0x8
    else if status = hsOk then 0x9 else 0xA
  { q with type := ty, dest := 0xFF, status := status, erridx := erridx, data := if ty = 0x8 then data else [],
           alt := false, buf := 0 }

/-- Bits [239:0] of a packet's header flit (R272). -/
def Packet.fields (p : Packet) : Nat :=
  p.type % 2 ^ 4 + p.dest % 2 ^ 8 * 2 ^ 8 + p.init % 2 ^ 11 * 2 ^ 16 + p.tag % 2 ^ 16 * 2 ^ 32 + p.gen % 4 * 2 ^ 48 +
    p.urg % 8 * 2 ^ 50 + p.len % 64 * 2 ^ 56 + p.firstbe % 256 * 2 ^ 64 + p.lastbe % 256 * 2 ^ 72 +
    p.status % 256 * 2 ^ 80 + p.erridx % 256 * 2 ^ 88 + p.addr % 2 ^ 40 * 2 ^ 96 + p.entry % 2 ^ 32 * 2 ^ 136 +
    b2n p.alt * 2 ^ 168

/-- HCHK of bits [239:0] of a header (R272). -/
def hchk (fields : Nat) : Nat := crc16 (bitsMsb 240 fields)

/-- The header flit of a packet (R272). -/
def Packet.header (p : Packet) : Nat := p.fields + hchk p.fields * 2 ^ 240

/-- The data flits of a packet (R272, R273): flit `f` carries word `4f + j` in bits [64j+63:64j]. -/
def Packet.dataFlits (p : Packet) : List Nat :=
  if p.type = 2 ∨ p.type = 8 then
    (List.range ((p.len + 4) / 4)).map fun f =>
      ((List.range 4).map fun j => if 4 * f + j ≤ p.len then (p.data.getD (4 * f + j) 0).toNat * 2 ^ (64 * j) else 0).sum
  else []

/-- Whether a header flit passes HCHK (R273). -/
def headerOk (h : Nat) : Bool := hchk (h % 2 ^ 240) == h / 2 ^ 240

/-- A packet as its header flit arrives (R272). -/
def Packet.withHeader (p : Packet) (h : Nat) : Packet :=
  { p with
    type := bits h 3 0, dest := bits h 15 8, init := bits h 26 16, tag := bits h 47 32, gen := bits h 49 48
    urg := bits h 52 50, len := bits h 61 56, firstbe := bits h 71 64, lastbe := bits h 79 72, status := bits h 87 80
    erridx := bits h 95 88, addr := bits h 135 96, entry := bits h 167 136, alt := bit h 168 }

/-- The buffer that a packet takes on the link from router `r` to router `n` (R279).  The dateline of a ring lies on the link between
its positions 3 and 0 (DESIGN CHOICE, assumption 108). -/
def Packet.onLink (p : Packet) (r n : Nat) : Packet :=
  let ring := if n / 4 = r / 4 then 0 else 1
  let a := ringPos (if ring = 0 then r % 4 else r / 4)
  let b := ringPos (if ring = 0 then n % 4 else n / 4)
  let crosses := (a == 3 && b == 0) || (a == 0 && b == 3)
  let before := p.buf / 2 == ring && p.buf % 2 == 1
  { p with buf := 2 * ring + b2n (before || crosses) }

/-- A packet put into a router. -/
def State.enterRouter (s : State) (r : Nat) (p : Packet) : State :=
  { s with noc := { s.noc with routers := s.noc.routers ++ [(r, p)] } }

/-- The router at which a target's response enters the hallway: its tower's, or its porch's row in the column of the
initiator, or the next one in service (R46, R277, R290). -/
def State.responseRouter (s : State) (t : Nat) (q : Packet) : Nat :=
  if t < 0x10 then
    let a := routerOf (t % 8) 0
    if s.routerUp a then a else routerOf (t % 8) 1
  else
    let col := if q.init < 1024 then wingRouter (q.init / 2) % 4 else q.addr / 512 % 4
    let row := if t = 0x11 ∨ (0x24 ≤ t ∧ t < 0x28) then 12 else 0
    if s.routerUp (row + col) then row + col
    else row + ((List.range 4).find? fun c => s.routerUp (row + c)).getD col

/-- A packet leaves its target, served or discarded; those that a full G6_INIT waits for are counted down (R335). -/
def State.leaveTarget (s : State) (x : Nat × Packet) : State :=
  let k := x.1 - 0x20
  let place := (s.noc.targets.filter fun y => y.1 = x.1).findIdx fun y => y == x
  let older := fun (j : G6Job) =>
    if 0x20 ≤ x.1 ∧ place < j.older.at 0 k then { j with older := j.older.upd 0 k (j.older.at 0 k - 1) } else j
  { s with
    noc := { s.noc with targets := s.noc.targets.erase x }
    g6 := { s.g6 with job := s.g6.job.map older } }

/-- A target answers a request. -/
def State.respond (s : State) (t : Nat) (q : Packet) (status erridx : Nat) (data : List Word) : State :=
  s.enterRouter (s.responseRouter t q) { q.response status erridx data with ready := s.now }

/-- The age of a packet in ns at a router (R280). -/
def State.age (s : State) (p : Packet) : Nat := (s.localNs + 2 ^ 32 - p.entry) % 2 ^ 32

/-- Whether a packet is older than 250 µs (R286). -/
def State.expired (s : State) (p : Packet) : Bool := decide (250000 < s.age p)

/-- A discarded packet is counted and reported (R286). -/
def State.countExpired (s : State) (r : Nat) : State :=
  (s.count Reg.NOC.DISCARD.EXPIRED 1).postLimited 0x0408 r sevWarn (routerTower r) r

/-- The status a BAR0 access over the hallway ends in: registers of a tower in reset or a porch no router leads to
(R477, R290, R590); PS is switched off in NAP and PATROL (R563; DEDUCED, assumption 122). -/
def State.bar0Status (s : State) (a : Nat) : Nat :=
  let t := registerHome a
  if !s.rdb Reg.DEV.BOOT.IMAGE && decide (0x20000 ≤ a) then hsNoroute
  else if t = 0x10 then hsOk
  else if t = 0x11 ∧ 2 ≤ s.power then hsReset
  else if t < 0x10 then
    if !s.towerReady (t - 8) then hsReset
    else if (List.range 4).any fun c => s.routerUp c && (s.hopsTo c (targetRouter t c)).isSome then hsOk else hsNoroute
  else if (List.range 4).any fun c => s.routerUp c && (s.hopsTo c (12 + c)).isSome then hsOk else hsNoroute

end Sys2Proof.Machine
end

