-- ==== Sys2Proof/Machine/G6Map.lean ====
section
/-! DEFINITION. The GDDR6 address map (R304-R314): channel, bank, row and column of an address, the maps that G6_MAP accepts, and the
512-byte blocks of a unit that lie in a channel. -/

namespace Sys2Proof.Machine

/-- The address with the bits at some positions removed, the rest closed up downward (R310). -/
def compact (positions : List Nat) (a : Nat) : Nat :=
  (((List.range 40).filter fun n => !positions.contains n).zipIdx.map fun nk => b2n (bit a nk.1) * 2 ^ nk.2).sum

/-- The bank of an address (R310). -/
def G6Map.bank (m : G6Map) (a : Nat) : Nat :=
  let masks := m.bm.getD (m.channel a) []
  ((List.range 4).map fun i => popcount 40 (Nat.land a (masks.getD i 0)) % 2 * 2 ^ i).sum

/-- The compact address (R310). -/
def G6Map.compactOf (m : G6Map) (a : Nat) : Nat := compact (m.cp ++ m.bp) a

/-- The column of an address (R310). -/
def G6Map.column (m : G6Map) (a : Nat) : Nat := bits (m.compactOf a) (m.colpos + 5) m.colpos

/-- The row of an address (R310). -/
def G6Map.row (m : G6Map) (a : Nat) : Nat :=
  let c := m.compactOf a
  c / 2 ^ (m.colpos + 6) * 2 ^ (m.colpos - 5) + c % 2 ^ m.colpos / 32

/-- Whether a mask is one that G6_MAP accepts for position `p` among all positions (R311). -/
def maskOk (positions : List Nat) (p mask : Nat) : Bool :=
  decide (mask < 2 ^ 36) && mask % 512 == 0 && bit mask p && positions.all fun q => q == p || !bit mask q

/-- Whether G6_MAP accepts a map (R311). -/
def G6Map.ok (m : G6Map) : Bool :=
  let ps := m.cp ++ m.bp
  ps.length == 8 && ps.all (fun p => decide (9 ≤ p) && decide (p ≤ 29)) && decide ps.Nodup &&
    (List.range 4).all (fun i => maskOk ps (m.cp.getD i 0) (m.cm.getD i 0)) &&
    m.bm.all (fun b => (List.range 4).all fun i => maskOk ps (m.bp.getD i 0) (b.getD i 0)) &&
    decide (5 ≤ m.colpos) && decide (m.colpos ≤ 14)

/-- The blocks of 512 bytes from block `b` of a unit on, among the next `fuel` of them, that lie in a channel. -/
def G6Map.blocksIn (m : G6Map) (unit ch : Nat) : Nat → Nat → Nat
  | 0, _ => 0
  | fuel + 1, b => b2n (m.channel (unit * 0x40000000 + 512 * b) == ch) + m.blocksIn unit ch fuel (b + 1)

/-- The blocks of a unit below an address that lie in a channel. -/
def G6Map.blocksBelow (m : G6Map) (a ch : Nat) : Nat := m.blocksIn (a / 0x40000000) ch (a % 0x40000000 / 512) 0

/-- The block of a unit, from block `b` on, that is the `n`-th one in a channel. -/
def G6Map.nthFrom (m : G6Map) (unit ch : Nat) : Nat → Nat → Nat → Nat
  | 0, b, _ => b
  | fuel + 1, b, n =>
    if m.channel (unit * 0x40000000 + 512 * b) = ch then (if n = 0 then b else m.nthFrom unit ch fuel (b + 1) (n - 1))
    else m.nthFrom unit ch fuel (b + 1) n

/-- The address of the `n`-th line of a unit that lies in a channel (R346). -/
def G6Map.lineOf (m : G6Map) (unit ch n : Nat) : Nat :=
  unit * 0x40000000 + 512 * m.nthFrom unit ch (2 ^ 21) 0 (n / 8) + n % 8 * 64

/-- The place of a line among the lines of its unit that lie in its channel. -/
def G6Map.lineIn (m : G6Map) (a : Nat) : Nat := m.blocksBelow a (m.channel a) * 8 + a % 512 / 64

end Sys2Proof.Machine
end

