-- ==== Sys2Proof/Machine/Sealing.lean ====
section
/-! DEFINITION. What protection lays out and computes (R346-R357, R370): the lines of a channel, the metadata window, tags, counter
tree nodes and their hashes, and the contents that an initialisation of units gives the memory. -/

namespace Sys2Proof.Machine

/-! ### Lines as numbers -/

/-- Eight words as a line, byte 0 in bits [7:0]. -/
def packLine (ws : List Word) : BitVec 512 :=
  BitVec.ofNat 512 (((List.range 8).map fun i => (ws.getD i 0).toNat * 2 ^ (64 * i)).sum)

/-- Word `i` of a line. -/
def lineWord (l : BitVec 512) (i : Nat) : Word := l.extractLsb' (64 * i) 64

/-- The eight words of a line. -/
def wordsOfLine (l : BitVec 512) : List Word := (List.range 8).map (lineWord l)

/-- The tweak of a line (R349): whether its unit is in TREE mode, its address, its minor and major counters. -/
def tweakOf (tree : Bool) (a minor major : Nat) : BitVec 128 :=
  if tree then BitVec.ofNat 128 (a / 64 % 2 ^ 30 + 2 ^ 30 + minor % 2 ^ 7 * 2 ^ 32 + major % 2 ^ 64 * 2 ^ 64)
  else BitVec.ofNat 128 (a / 64 % 2 ^ 30 + 2 ^ 31)

/-- The ciphertext of a line under a start key (R348). -/
def cipherOf (key : Nat) (tweak : BitVec 128) (plain : BitVec 512) : BitVec 512 :=
  Config.xts (Config.dataKey key) (Config.tweakKey key) tweak plain

/-- The plaintext of a line under a start key (R348). -/
def plainOf (key : Nat) (tweak : BitVec 128) (cipher : BitVec 512) : BitVec 512 :=
  (Config.xts (Config.dataKey key) (Config.tweakKey key) tweak).symm cipher

/-- The tag slot of a line (R350, R351): the leftmost 56 bits of the CMAC of its ciphertext and tweak for a TREE line, 64 for a TAG
line. -/
def slotOf (key : Nat) (tree : Bool) (tweak : BitVec 128) (cipher : BitVec 512) : Word :=
  let mac := Config.cmac (Config.macKey key) (leBytes 64 cipher.toNat ++ leBytes 16 tweak.toNat)
  toWord (if tree then mac.toNat / 2 ^ 72 else mac.toNat / 2 ^ 64)

/-- The hash of a tree node (R355). -/
def nodeHash (key ch level node : Nat) (data : BitVec 512) : Nat :=
  (Config.cmac (Config.macKey key) (leBytes 64 data.toNat ++
    leBytes 8 (ch % 2 ^ 4 + level % 2 ^ 4 * 2 ^ 8 + node % 2 ^ 32 * 2 ^ 32))).toNat / 2 ^ 72

/-- A leaf's major counter (R355). -/
def leafMajor (d : BitVec 512) : Nat := bits d.toNat 63 0

/-- A leaf's minor counter of line `k` of its group (R355). -/
def leafMinor (d : BitVec 512) (k : Nat) : Nat := bits d.toNat (7 * k + 70) (7 * k + 64)

/-- A leaf with a minor counter set. -/
def setMinor (d : BitVec 512) (k n : Nat) : BitVec 512 := BitVec.ofNat 512 (setBits d.toNat (7 * k + 70) (7 * k + 64) n)

/-- The hash of child `m` in a node of level 1 or above (R355). -/
def childHash (d : BitVec 512) (m : Nat) : Nat := bits d.toNat (56 * m + 55) (56 * m)

/-- A node with the hash of child `m` set. -/
def setChild (d : BitVec 512) (m h : Nat) : BitVec 512 := BitVec.ofNat 512 (setBits d.toNat (56 * m + 55) (56 * m) h)

/-! ### The tree of a channel -/

/-- The nodes of a level over `t` TREE units (R355). -/
def treeNodes (t : Nat) : Nat → Nat
  | 0 => 16384 * t
  | k + 1 => ceilDiv (treeNodes t k) 8

/-- The top level of the tree over `t` TREE units: the first that has 8 nodes or fewer (R355). -/
def topLevel (t : Nat) : Nat := ((List.range 16).find? fun k => decide (treeNodes t k ≤ 8)).getD 16

/-- The nodes of the levels below a level. -/
def nodesBelow (t k : Nat) : Nat := ((List.range k).map (treeNodes t)).sum

/-- Whether a set of units holds every TREE unit that a node covers (R363, R365). -/
def nodeWithin (tree units : List Nat) (level node : Nat) : Bool :=
  tree.zipIdx.all fun ui => units.contains ui.1 ||
    !(decide (node * 8 ^ level < (ui.2 + 1) * 16384) && decide (ui.2 * 16384 < (node + 1) * 8 ^ level))

/-! ### Layout -/

/-- The bytes of each channel's tag array (R354). -/
def tagBytes (n : Nat) : Nat := 8 * 2 ^ 20 * n

/-- The index of a line among the lines of some units in its channel, in ascending address order (R354, R355). -/
def lineIndex (m : G6Map) (units : List Nat) (a : Nat) : Nat :=
  (units.takeWhile fun u => u ≠ a / 0x40000000).length * 2 ^ 20 + m.lineIn a

/-- The line of a channel with an index among the lines of some units. -/
def lineAt (m : G6Map) (units : List Nat) (ch i : Nat) : Nat := m.lineOf (units.getD (i / 2 ^ 20) 0) ch (i % 2 ^ 20)

/-- The address of byte `b` of a channel's metadata space in a window that begins at unit `first` (R353). -/
def metaAddr (m : G6Map) (first ch b : Nat) : Nat := m.lineOf (first + b / 2 ^ 26) ch (b % 2 ^ 26 / 64) + b % 64

/-- The byte of its channel's metadata space that an address of the window holds (R353). -/
def metaByte (m : G6Map) (first a : Nat) : Nat := (a / 0x40000000 - first) * 2 ^ 26 + m.lineIn a * 64 + a % 64

/-- The byte of the metadata space at which a node of the tree lies (R354). -/
def nodeByte (n t level node : Nat) : Nat := tagBytes n + 64 * (nodesBelow t level + node)

/-! ### What an initialisation writes -/

/-- Whether a unit is in TREE mode. -/
def Seal.isTree (x : Seal) (u : Nat) : Bool := x.tree.contains u

/-- A fresh leaf: the major counter follows the high-water mark from which its unit started, the minors are 0 (R357). -/
def Seal.leaf (x : Seal) (ch g : Nat) : BitVec 512 :=
  BitVec.ofNat 512 ((x.base.at 0 (64 * ch + x.tree.getD (g / 16384) 0) + 1 + g % 16384) % 2 ^ 64)

/-- A node of the tree over fresh leaves (R355, R370). -/
def Seal.node (x : Seal) (ch : Nat) : Nat → Nat → BitVec 512
  | 0, g => x.leaf ch g
  | k + 1, n => BitVec.ofNat 512 (((List.range 8).map fun m =>
      if 8 * n + m < treeNodes x.tree.length k then
        nodeHash x.key ch k (8 * n + m) (x.node ch k (8 * n + m)) % 2 ^ 56 * 2 ^ (56 * m)
      else 0).sum)

/-- The tweak with which a line was initialised. -/
def Seal.tweak (x : Seal) (a : Nat) : BitVec 128 :=
  if x.isTree (a / 0x40000000) then
    tweakOf true a 0 (leafMajor (x.leaf (x.map.channel a) (lineIndex x.map x.tree a / 64)))
  else tweakOf false a 0 0

/-- The ciphertext of an initialised line: encrypted zeros (R370). -/
def Seal.cipher (x : Seal) (a : Nat) : BitVec 512 := cipherOf x.key (x.tweak a) 0

/-- The hashes of the top-level nodes over fresh leaves (R355, R370). -/
def Seal.root (x : Seal) (ch : Nat) : List Nat :=
  let top := topLevel x.tree.length
  (List.range (treeNodes x.tree.length top)).map fun n => nodeHash x.key ch top n (x.node ch top n)

/-- The level of the tree that holds a node, numbered in the order in which the levels are stored. -/
def levelOf (t n : Nat) : Nat := ((List.range (topLevel t + 1)).find? fun k => decide (n < nodesBelow t (k + 1))).getD 16

/-- What an initialisation gives a word of the metadata window: a tag slot, or a word of a node whose units it all initialises. -/
def Seal.metaWord (x : Seal) (a : Nat) : Option Word :=
  let ch := x.map.channel a
  let b := metaByte x.map x.first a
  let n := x.prot.length
  let t := x.tree.length
  if b < tagBytes n then
    let l := lineAt x.map x.prot ch (b / 8)
    if x.units.contains (l / 0x40000000) then some (slotOf x.key (x.isTree (l / 0x40000000)) (x.tweak l) (x.cipher l))
    else none
  else
    let i := (b - tagBytes n) / 64
    let level := levelOf t i
    if t = 0 ∨ topLevel t < level then none
    else
      let node := i - nodesBelow t level
      if nodeWithin x.tree x.units level node then some (lineWord (x.node ch level node) (b % 64 / 8)) else none

/-- What an initialisation gives the word with key `k`: ciphertext of zeros, metadata, or nothing. -/
def Seal.word (x : Seal) (k : Nat) : Option Word :=
  let a := 8 * k
  let u := a / 0x40000000
  if x.units.contains u then some (lineWord (x.cipher (a / 64 * 64)) (k % 8))
  else if x.first ≤ u ∧ u < x.first + x.count then x.metaWord a
  else none

end Sys2Proof.Machine
end

