-- ==== Sys2Proof/Machine/G6Ops.lean ====
section
/-! DEFINITION. GDDR6 memory (08_gddr6.md): controllers and channels, regions, stored words and what gave them their contents, the
inline code and its cache, the error logs, reads and writes of the words that a controller stores.  A controller is 0 to 7, a channel
0 to 15, a porch 0 or 1; a word is keyed by its hallway address divided by 8. -/

namespace Sys2Proof.Machine

/-! ### Controllers and channels -/

/-- The fitted capacity (R308). -/
def State.g6Cap (s : State) : Nat := s.rd Reg.MEM.CAP.BYTES

/-- The channel of an address under the active map. -/
def State.g6Chan (s : State) (a : Nat) : Nat := s.g6map.channel a

/-- A field of controller `k`'s CSTAT. -/
def cstatF (f : Nat → Nat → Field) (k : Nat) : Field := f (k / 4) (k % 4)

/-- The state of a controller (R338). -/
def State.ctrl (s : State) (k : Nat) : Nat := s.rd (cstatF Reg.MEM.CSTAT.STATE k)

/-- A controller's state changed. -/
def State.setCtrl (s : State) (k v : Nat) : State := s.wr (cstatF Reg.MEM.CSTAT.STATE k) v

/-- Whether a channel is down (R321). -/
def State.chanDown (s : State) (ch : Nat) : Bool := bit (s.rd (cstatF Reg.MEM.CSTAT.DOWN (ch / 2))) (ch % 2)

/-- Whether inline ECC is on (R323). -/
def State.g6Ecc (s : State) : Bool := s.rdb (Reg.MEM.CSTAT.ECC 0 0)

/-! ### Regions -/

/-- The code of a region's owner (R336). -/
def RegionOwner.code : RegionOwner → Nat
  | .state => 1
  | .mirror => 2
  | .ctag => 3
  | .ctree => 4
  | .trace => 5

/-- Whether two ranges of addresses meet. -/
def rangesMeet (a n b m : Nat) : Bool := decide (a < b + m) && decide (b < a + n) && n != 0 && m != 0

/-- Whether some region meets a range. -/
def State.regionMeets (s : State) (base size : Nat) : Bool :=
  s.g6.regions.any fun r => rangesMeet base size r.2.base r.2.size

/-- The lowest free entry of the region table (R332). -/
def State.freeRegion (s : State) : Option Nat := firstFree 16 fun i => !s.g6.regions.any fun r => r.1 = i

/-- The refusal of an allocation (R333): BAD_PARAM beyond the capacity or off 4 KiB, RESOURCE_TAKEN on an overlap or a
full table. -/
def State.allocRefusal (s : State) (base size : Nat) : Option Nat :=
  if base % 4096 ≠ 0 ∨ size % 4096 ≠ 0 ∨ size = 0 ∨ s.g6Cap < base + size then some stBadParam
  else if s.regionMeets base size || s.freeRegion.isNone then some stTaken
  else none

/-- A region allocated in the lowest free entry. -/
def State.allocRegion (s : State) (base size : Nat) (o : RegionOwner) : State :=
  match s.freeRegion with
  | some i => { s with g6 := { s.g6 with regions := s.g6.regions ++ [(i, { base := base, size := size, owner := o })] } }
  | none => s

/-- The regions of an owner released. -/
def State.releaseRegions (s : State) (o : RegionOwner) : State :=
  { s with g6 := { s.g6 with regions := s.g6.regions.filter fun r => r.2.owner ≠ o } }

/-- Whether an initiator may access a range under the region table (R332, R334). -/
def State.regionAllows (s : State) (init addr n : Nat) (write : Bool) : Bool :=
  s.g6.regions.all fun r =>
    !rangesMeet addr n r.2.base r.2.size ||
      (match r.2.owner with
      | .state => if write then init == iniKeeper else init == iniPcie || init == iniKeeper
      | .mirror => init == iniKeeper
      | .trace => if write then init == iniTrace else init == iniPcie || init == iniKeeper
      | .ctag => false
      | .ctree => false)

/-! ### Stored words -/

/-- The mode of a protection unit (R344): 0 OFF, 1 TREE, 2 TAG, 3 META. -/
def State.unitMode (s : State) (u : Nat) : Nat :=
  bits (s.rd (Reg.CRYPT.UNITS.MODES (u / 32))) (2 * (u % 32) + 1) (2 * (u % 32))

/-- The TREE units, rising. -/
def State.treeUnits (s : State) : List Nat := (List.range 64).filter fun u => s.unitMode u = 1

/-- The protected units, rising. -/
def State.protectedUnits (s : State) : List Nat := (List.range 64).filter fun u => s.unitMode u = 1 ∨ s.unitMode u = 2

/-- The key of the contents that a unit holds in a channel. -/
def epochKey (a ch : Nat) : Nat := a / 0x40000000 * 16 + ch

/-- The size of a state image (R111). -/
def imageSize : Nat := 64 * 2 ^ 20

/-- What a fill gives the word with key `k`. -/
def Fill.word (f : Fill) (k : Nat) : Option Word :=
  match f.kind with
  | .sealed x => x.word k
  | .image base id => if base ≤ 8 * k ∧ 8 * k < base + imageSize then some (Config.imageWord id (k - base / 8)) else none

/-- What the newest fill gives a word, unless its unit and channel have lost their contents since. -/
def State.fillWord (s : State) (k : Nat) : Option Word :=
  let e := epochKey (8 * k) (s.g6Chan (8 * k))
  s.g6.fills.findSome? fun f => if f.epochs.at 0 e = s.g6.epochs.at 0 e then f.word k else none

/-- The stored data of a word: what was written, or an open value (R319, R321, R336). -/
def State.g6Data (s : State) (k : Nat) : Word :=
  match s.g6.words.at none k with
  | some w => w
  | none => (s.fillWord k).getD (Config.g6Fill (s.g6.epochs.at 0 (epochKey (8 * k) (s.g6Chan (8 * k)))) k)

/-- The code positions of a word that are in error: those inverted since it was written, or two where a word that nothing has
written fails its code. -/
def State.g6Flips (s : State) (k : Nat) : List Nat :=
  match s.g6.words.at none k, s.g6.flips.at [] k with
  | none, [] =>
    if (s.fillWord k).isNone && Config.g6Bad (s.g6.epochs.at 0 (epochKey (8 * k) (s.g6Chan (8 * k)))) k then [0, 1] else []
  | _, fl => fl

/-- A fill of the memory: what it gives replaces what was listed. -/
def State.fillWith (s : State) (kind : FillKind) : State :=
  let f : Fill := { kind := kind, epochs := s.g6.epochs }
  { s with g6 := { s.g6 with
    fills := f :: s.g6.fills
    words := s.g6.words.filter fun kv => (f.word kv.1).isNone
    flips := s.g6.flips.filter fun kv => (f.word kv.1).isNone } }

/-- The contents that some units hold in every channel become open (R319, R594). -/
def State.forgetUnits (s : State) (us : List Nat) : State :=
  let out := fun (k : Nat) => us.contains (8 * k / 0x40000000)
  { s with g6 := { s.g6 with
    words := s.g6.words.filter fun kv => !out kv.1
    flips := s.g6.flips.filter fun kv => !out kv.1
    images := s.g6.images.filter fun g => !us.contains (g.1 / 0x40000000)
    epochs := us.foldl (fun e u => (List.range 16).foldl (fun e c => e.upd 0 (u * 16 + c) (e.at 0 (u * 16 + c) + 1)) e)
      s.g6.epochs } }

/-- A channel's contents become open (R321). -/
def State.forgetChannel (s : State) (ch : Nat) : State :=
  { s with g6 := { s.g6 with
    words := s.g6.words.filter fun kv => s.g6Chan (8 * kv.1) ≠ ch
    flips := s.g6.flips.filter fun kv => s.g6Chan (8 * kv.1) ≠ ch
    images := []
    epochs := (List.range 64).foldl (fun e u => e.upd 0 (u * 16 + ch) (e.at 0 (u * 16 + ch) + 1)) s.g6.epochs } }

/-! ### The inline code -/

/-- The rows of a bank (R307). -/
def State.g6Rows (s : State) : Nat :=
  2 ^ (15 + b2n (s.rdb (Reg.MEM.CSTAT.DENSITY 0 0)) + b2n (s.rdb (Reg.MEM.CSTAT.CLAMSHELL 0 0)))

/-- Where the code bytes of the burst at an address lie (R323): bank, row, and byte of the row. -/
def State.codePlace (s : State) (a : Nat) : Nat × Nat × Nat :=
  let r := s.g6map.row a
  (s.g6map.bank a, 7 * s.g6Rows / 8 + r / 8, r % 8 * 256 + s.g6map.column a * 4)

/-- The code burst, numbered within its channel, that holds the codes of the word with key `k`: 32 bytes, for 256 bytes of data (R323). -/
def State.codeBurst (s : State) (k : Nat) : Nat :=
  let p := s.codePlace (8 * k)
  (p.1 * 2 ^ 17 + p.2.1) * 64 + p.2.2 / 32

/-- The code burst of a word enters its channel's cache of 16 (R323); the one used longest ago leaves (DESIGN CHOICE, assumption
109: the manual names no order). -/
def State.cacheCode (s : State) (k : Nat) : State :=
  let ch := s.g6Chan (8 * k)
  let e := (ch, s.codeBurst k)
  let mine := (s.g6.codeCache.filter fun x => x.1 == ch && x != e) ++ [e]
  { s with g6 := { s.g6 with codeCache := (s.g6.codeCache.filter fun x => x.1 ≠ ch) ++ mine.drop (mine.length - 16) } }

/-- What the code of R230 finds in a word with some positions inverted: the code is linear, so that the syndrome is the sum
of their columns. -/
def flipCheck (fl : List Nat) : CodeCheck :=
  let syn := fl.foldl (fun acc p => Nat.xor acc (column p)) 0
  if syn = 0 then .clean
  else match (List.range 72).find? fun i => column i = syn with
    | some i => .single i syn
    | none => .uncorrectable syn

/-- The positions still inverted after the code has corrected position `p`. -/
def flipAt (fl : List Nat) (p : Nat) : List Nat := if fl.contains p then fl.erase p else fl ++ [p]

/-- Data with positions inverted. -/
def withFlips (d : Word) (fl : List Nat) : Word := toWord (fl.foldl flipData d.toNat)

/-- A word written whole: its positions in error are gone (R325). -/
def State.g6Put (s : State) (k : Nat) (d : Word) : State :=
  let whole := fun (g : Nat × Image) => 8 * k < g.1 || g.1 + imageSize ≤ 8 * k
  let s := if s.g6Ecc then s.cacheCode k else s
  { s with g6 := { s.g6 with
    words := s.g6.words.upd none k (some d), flips := s.g6.flips.upd [] k []
    images := s.g6.images.filter whole } }

/-- Positions of stored words and of their codes that have changed in the devices since they were written (R325, and the attacker
of 09_encryption.md, its opening). -/
def State.disturb (s : State) (changed : List (Nat × List Nat)) : State :=
  changed.foldl (fun s c => { s with g6 := { s.g6 with
    words := s.g6.words.upd none c.1 (some (s.g6Data c.1))
    flips := s.g6.flips.upd [] c.1 (c.2.foldl flipAt (s.g6Flips c.1)) } }) s

/-- The error counters of a channel's controller. -/
def errF (f : Nat → Nat → Field) (ch : Nat) : Field := f (ch / 8) (ch / 2 % 4)

/-- An error enters its porch's log (R327): kind 0 ECC, 1 LINK, 2 DOWN. -/
def State.g6Log (s : State) (kind ch init addr : Nat) (write : Bool) : State :=
  let p := ch / 8
  let w0 := 1 + kind * 2 + ch * 8 + init * 2 ^ 7 + b2n write * 2 ^ 18
  let mine := s.g6.log.filter fun r => r.1 = p
  let same := fun (r : LogRec) => bits r.w0 2 1 == kind && (bits r.w0 6 3 == ch && r.w1 == addr)
  if s.g6.frozen.contains p then s
  else if mine.any (fun r => same r.2) then
    let bump := fun (r : Nat × LogRec) => if r.1 = p ∧ same r.2 then (p, { r.2 with rep := satAdd 8 r.2.rep 1 }) else r
    { s with g6 := { s.g6 with log := s.g6.log.map bump } }
  else if mine.length < 64 then
    let s := { s with g6 := { s.g6 with log := s.g6.log ++ [(p, { w0 := w0, rep := 0, w1 := addr })] } }
    if kind = 0 then s.post 0x0503 sevError (srcPn + p) w0
    else if kind = 1 then s.post 0x0504 sevError (srcPn + p) w0 else s
  else ({ s with g6 := { s.g6 with frozen := p :: s.g6.frozen } }).post 0x0506 sevWarn (srcPn + p) p

/-- Word 0 of a GDDR6 record with its REPEAT (R327). -/
def LogRec.g6Word0 (r : LogRec) : Word := toWord (r.w0 + r.rep * 2 ^ 19)

/-- One word read through the inline code (R324, R325): the state, the data delivered, whether it is uncorrectable.  Without inline
ECC the stored bits are delivered. -/
def State.g6Read (s : State) (init k : Nat) (write : Bool) : State × Word × Bool :=
  let d := s.g6Data k
  let fl := s.g6Flips k
  let ch := s.g6Chan (8 * k)
  if !s.g6Ecc then (s, withFlips d fl, false)
  else
    let s := s.cacheCode k
    match flipCheck fl with
    | .clean => (s, withFlips d fl, false)
    | .single p _ =>
      let left := flipAt fl p
      let s := (s.count (errF Reg.MEM.ERRCNT.CE ch) 1).postLimited 0x0502 (ch / 2) sevInfo (srcPn + ch / 8) ch
      let s := if s.g6.eccwb then { s with g6 := { s.g6 with flips := s.g6.flips.upd [] k left } } else s
      (s, withFlips d left, false)
    | .uncorrectable _ =>
      let s := (s.count (errF Reg.MEM.ERRCNT.UE ch) 1).g6Log 0 ch init (8 * k) write
      (s, withFlips d fl, true)

/-- Some words read: the state, the data, and which of them are uncorrectable. -/
def State.g6ReadAll (s : State) (init : Nat) (write : Bool) (ks : List Nat) : State × List Word × List Nat :=
  ks.foldl (fun acc k =>
    let r := acc.1.g6Read init k write
    (r.1, acc.2.1 ++ [r.2.1], if r.2.2 then acc.2.2 ++ [k] else acc.2.2)) (s, [], [])

/-- The eight words of a line written. -/
def State.g6PutLine (s : State) (a : Nat) (l : BitVec 512) : State :=
  (List.range 8).foldl (fun s i => s.g6Put (a / 8 + i) (lineWord l i)) s

/-! ### Unprotected accesses -/

/-- How an access ends: the read data, the status, and the key of the first failing word. -/
structure AccessEnd where
  data : List Word
  status : Nat
  err : Nat
  deriving DecidableEq, Repr

/-- An access that delivers its data. -/
def AccessEnd.good (ws : List Word) : AccessEnd := { data := ws, status := hsOk, err := 0 }

/-- A write to part of a word: `be` enables its bytes. -/
def mergeBytes (old new : Word) (be : Nat) : Word :=
  toWord (((List.range 8).map fun i => (if bit be i then bits new.toNat (8 * i + 7) (8 * i)
    else bits old.toNat (8 * i + 7) (8 * i)) * 2 ^ (8 * i)).sum)

/-- Words of OFF units read (R325): the stored bits, with DATA_ERROR if some word is uncorrectable. -/
def State.readPlain (s : State) (init : Nat) (ks : List Nat) : State × AccessEnd :=
  let r := s.g6ReadAll init false ks
  match r.2.2 with
  | [] => (r.1, .good r.2.1)
  | k :: _ => (r.1, { data := r.2.1, status := hsData, err := k })

/-- Words of OFF units written, `(key, byte enables, data)` (R316, R325): bursts that the write does not cover whole are read and
rewritten; if it covers only part of an uncorrectable word it changes nothing. -/
def State.writePlain (s : State) (init : Nat) (ws : List (Nat × Nat × Word)) : State × AccessEnd :=
  let ws := ws.filter fun w => w.2.1 ≠ 0
  let whole := fun (b : Nat) => (ws.filter fun w => w.1 / 4 == b && w.2.1 == 255).length == 4
  let bursts := (ws.map fun w => w.1 / 4).eraseDups.filter fun b => !whole b
  let ks := bursts.flatMap fun b => (List.range 4).map (4 * b + ·)
  let r := s.g6ReadAll init true ks
  match ws.find? fun w => w.2.1 ≠ 255 ∧ r.2.2.contains w.1 with
  | some w => (r.1, { data := [], status := hsData, err := w.1 })
  | none =>
    let old := ks.zip r.2.1
    let s := (old.filter fun x => !r.2.2.contains x.1).foldl (fun s x => s.g6Put x.1 x.2) r.1
    let put := fun (s : State) (w : Nat × Nat × Word) =>
      s.g6Put w.1 (if w.2.1 = 255 then w.2.2 else mergeBytes ((old.find? fun x => x.1 = w.1).map Prod.snd |>.getD 0) w.2.2 w.2.1)
    (ws.foldl put s, .good [])

end Sys2Proof.Machine
end

