-- ==== Sys2Proof/Machine/CryptOps.lean ====
section
/-! DEFINITION. The encryption engines (09_encryption.md): the layout in force, the encryption logs, blocked subtrees, the node caches
and the walk of a channel's counter tree, protected lines read and written, re-encryption of a group, and channels that go down. -/

namespace Sys2Proof.Machine

/-! ### The layout in force -/

/-- A unit's mode changed. -/
def State.setUnitMode (s : State) (u m : Nat) : State :=
  let f := Reg.CRYPT.UNITS.MODES (u / 32)
  s.wr f (setBits (s.rd f) (2 * (u % 32) + 1) (2 * (u % 32)) m)

/-- The window in force as an initialisation of some units would use it; `base` are the marks their leaves start from (R352-R355). -/
def State.sealOf (s : State) (units : List Nat) (base : Cells Nat) : Seal :=
  { key := s.crypt.keys, units := units, prot := s.protectedUnits, tree := s.treeUnits, first := s.rd Reg.CRYPT.STAT.METABASE,
    count := s.rd Reg.CRYPT.STAT.META, base := base, map := s.g6map }

/-- The index of a line among the TREE lines of its channel (R355). -/
def State.treeIndex (s : State) (a : Nat) : Nat := lineIndex s.g6map s.treeUnits a

/-- The leaf, that is the group, of a TREE line in its channel (R355). -/
def State.leafOf (s : State) (a : Nat) : Nat := s.treeIndex a / 64

/-- The key of the tag slot of a line (R351, R354). -/
def State.slotKey (s : State) (a : Nat) : Nat :=
  metaAddr s.g6map (s.rd Reg.CRYPT.STAT.METABASE) (s.g6Chan a) (8 * lineIndex s.g6map s.protectedUnits a) / 8

/-- The address at which a node of a channel's tree is stored (R354). -/
def State.nodeAddr (s : State) (ch level node : Nat) : Nat :=
  metaAddr s.g6map (s.rd Reg.CRYPT.STAT.METABASE) ch (nodeByte s.protectedUnits.length s.treeUnits.length level node)

/-- The top level of the tree. -/
def State.treeTop (s : State) : Nat := topLevel s.treeUnits.length

/-- A failure enters its porch's encryption log (R366): kind 0 TAG, 1 NODE, 2 ROOT, 3 MAJOR. -/
def State.cryptLog (s : State) (kind ch init level addr : Nat) (write : Bool) : State :=
  let p := ch / 8
  let w0 := 1 + kind * 2 + ch * 8 + init * 2 ^ 7 + b2n write * 2 ^ 18 + level * 2 ^ 19
  let mine := s.crypt.log.filter fun r => r.1 = p
  let same := fun (r : LogRec) => bits r.w0 2 1 == kind && (bits r.w0 6 3 == ch && r.w1 == addr)
  if s.crypt.frozen.contains p then s
  else if mine.any (fun r => same r.2) then
    let bump := fun (r : Nat × LogRec) => if r.1 = p ∧ same r.2 then (p, { r.2 with rep := satAdd 8 r.2.rep 1 }) else r
    { s with crypt := { s.crypt with log := s.crypt.log.map bump } }
  else if mine.length < 32 then
    let s := { s with crypt := { s.crypt with log := s.crypt.log ++ [(p, { w0 := w0, rep := 0, w1 := addr })] } }
    if kind = 0 then s.post 0x0602 sevError (srcPn + p) w0
    else if kind = 1 then s.post 0x0603 sevError (srcPn + p) w0 else s
  else ({ s with crypt := { s.crypt with frozen := p :: s.crypt.frozen } }).post 0x0607 sevWarn (srcPn + p) p

/-- Word 0 of an encryption record with its REPEAT (R366). -/
def LogRec.cryptWord0 (r : LogRec) : Word := toWord (r.w0 + r.rep * 2 ^ 23)

/-- `CRYPT.BLOCKED` follows the blocked lists: `whole` is a channel whose whole tree becomes blocked. -/
def State.blockedSync (s : State) (whole : Option Nat) : State :=
  let sub := ((List.range 16).map fun c => b2n (s.crypt.blocked.any fun b => b.channel = c) * 2 ^ c).sum
  let w := s.rd Reg.CRYPT.BLOCKED.WHOLE
  let w := match whole with
    | some c => Nat.lor w (2 ^ c)
    | none => ((List.range 16).map fun c => b2n (bit w c && bit sub c) * 2 ^ c).sum
  (s.wr Reg.CRYPT.BLOCKED.SUBTREE sub).wr Reg.CRYPT.BLOCKED.WHOLE w

/-- A channel's whole tree is blocked: its list holds one entry at the top level (R364). -/
def State.blockTree (s : State) (ch : Nat) : State :=
  let us := s.treeUnits
  let e : Blocked := { channel := ch, level := topLevel us.length, node := 0, firstUnit := us.head?.getD 0,
                       lastUnit := us.getLast?.getD 0 }
  { s with crypt := { s.crypt with blocked := (s.crypt.blocked.filter fun (b : Blocked) => b.channel ≠ ch) ++ [e] } }.blockedSync
    (some ch)

/-- Whether a subtree lies inside another (R364). -/
def Blocked.covers (b : Blocked) (level node : Nat) : Bool :=
  decide (level ≤ b.level) && node / 8 ^ (b.level - level) == b.node

/-- A node fails: its subtree is entered in the channel's blocked list, or the whole tree is blocked (R363, R364). -/
def State.blockNode (s : State) (ch level node : Nat) : State :=
  let mine := s.crypt.blocked.filter fun b => b.channel = ch
  if bit (s.rd Reg.CRYPT.BLOCKED.WHOLE) ch || mine.any fun b => b.covers level node then s
  else if 8 ≤ mine.length then s.blockTree ch
  else
    let us := s.treeUnits
    let lo := node * 8 ^ level / 16384
    let hi := ((node + 1) * 8 ^ level - 1) / 16384
    let e : Blocked := { channel := ch, level := level, node := node, firstUnit := us.getD lo 0,
                         lastUnit := us.getD (min hi (us.length - 1)) 0 }
    { s with crypt := { s.crypt with blocked := s.crypt.blocked ++ [e] } }.blockedSync none

/-- Whether a TREE line lies in a blocked subtree (R363, R364). -/
def State.lineBlocked (s : State) (a : Nat) : Bool :=
  let ch := s.g6Chan a
  bit (s.rd Reg.CRYPT.BLOCKED.WHOLE) ch || s.crypt.blocked.any fun b => b.channel = ch && b.covers 0 (s.leafOf a)

/-! ### The node cache -/

/-- What a walk of the tree finds wrong: a node that cannot be read or does not match its parent (R363), or the root (R364). -/
inductive TreeFail where
  | node (level node : Nat)
  | root
  deriving DecidableEq, Repr

/-- What a walk of the tree ends with: the state, what is wrong, the node's 64 bytes. -/
structure NodeEnd where
  st : State
  bad : Option TreeFail
  data : BitVec 512

/-- A node in its porch's cache. -/
def State.cached (s : State) (ch level node : Nat) : Option CacheNode :=
  s.crypt.cache.find? fun n => n.channel == ch && n.level == level && n.node == node

/-- A node of a channel put into the cache, or its copy there replaced. -/
def State.cacheNode (s : State) (n : CacheNode) : State :=
  let same := fun (x : CacheNode) => x.channel == n.channel && x.level == n.level && x.node == n.node
  { s with crypt := { s.crypt with
    cache := if s.crypt.cache.any same then s.crypt.cache.map fun x => if same x then n else x else s.crypt.cache ++ [n] } }

/-- The hash that a channel's root holds of a top-level node (R355). -/
def State.rootHash (s : State) (ch node : Nat) : Nat :=
  (((s.crypt.roots.find? fun r => r.1 = ch).map Prod.snd).getD []).getD node 0

/-- The hash that a channel's root holds of a top-level node, set. -/
def State.setRoot (s : State) (ch node h : Nat) : State :=
  { s with crypt := { s.crypt with roots := s.crypt.roots.map fun r => if r.1 = ch then (ch, r.2.set node h) else r } }

/-- A node, `up` levels below the top, obtained under step 2 of R358: from the cache, where it is trusted, or read with its ancestors
up to the first cached one or the root, each checked against its parent and placed in the cache. -/
def State.trustNode (init : Nat) (write rootBad : Bool) (ch : Nat) : Nat → State → Nat → NodeEnd
  | 0, s, node =>
    match s.cached ch s.treeTop node with
    | some n => { st := s, bad := none, data := n.data }
    | none =>
      let level := s.treeTop
      let r := s.g6ReadAll init write ((List.range 8).map (s.nodeAddr ch level node / 8 + ·))
      let d := packLine r.2.1
      if rootBad then { st := r.1, bad := some .root, data := d }
      else if r.2.2.isEmpty && nodeHash s.crypt.keys ch level node d == r.1.rootHash ch node then
        { st := r.1.cacheNode { channel := ch, level := level, node := node, data := d, dirty := false }, bad := none, data := d }
      else { st := r.1, bad := some (.node level node), data := d }
  | up + 1, s, node =>
    let level := s.treeTop - (up + 1)
    match s.cached ch level node with
    | some n => { st := s, bad := none, data := n.data }
    | none =>
      let r := s.g6ReadAll init write ((List.range 8).map (s.nodeAddr ch level node / 8 + ·))
      let d := packLine r.2.1
      let e := State.trustNode init write rootBad ch up r.1 (node / 8)
      match e.bad with
      | some b => { st := e.st, bad := some b, data := d }
      | none =>
        if r.2.2.isEmpty && nodeHash s.crypt.keys ch level node d == childHash e.data (node % 8) then
          { st := e.st.cacheNode { channel := ch, level := level, node := node, data := d, dirty := false }, bad := none,
            data := d }
        else { st := e.st, bad := some (.node level node), data := d }

/-- A node that fails its check: counted, logged, its subtree blocked (R363); an error in the root blocks the whole tree (R364). -/
def State.treeFails (s : State) (init ch : Nat) (write : Bool) : TreeFail → State
  | .node level node =>
    let s := (s.count (Reg.CRYPT.COUNT.NODEFAIL (ch / 2)) 1).cryptLog 1 ch init level node write
    s.blockNode ch level node
  | .root => ((s.cryptLog 2 ch init 0 0 write).blockTree ch).post 0x0605 sevFatal (srcPn + ch / 8) (ch + 2 ^ 8)

/-- A dirty node written back (R359): its hash goes into its parent, which the cache takes in first, or into the root; its bytes into
memory. -/
def State.putBackNode (s : State) (n : CacheNode) : State :=
  let h := nodeHash s.crypt.keys n.channel n.level n.node n.data
  let s :=
    if s.treeTop ≤ n.level then s.setRoot n.channel n.node h
    else
      let e := State.trustNode iniKeeper true false n.channel (s.treeTop - (n.level + 1)) s (n.node / 8)
      match e.bad with
      | some b => e.st.treeFails iniKeeper n.channel true b
      | none =>
        e.st.cacheNode { channel := n.channel, level := n.level + 1, node := n.node / 8,
                         data := setChild e.data (n.node % 8) h, dirty := true }
  (s.g6PutLine (s.nodeAddr n.channel n.level n.node) n.data).cacheNode { n with dirty := false }

/-- Nodes leave a porch's cache until it holds 1 MiB (R359): the oldest first (DESIGN CHOICE, assumption 22: the manual names no
order); a dirty one is written back. -/
def State.shrinkCache (p : Nat) : Nat → State → State
  | 0, s => s
  | fuel + 1, s =>
    let mine := s.crypt.cache.filter fun n => n.channel / 8 = p
    match mine with
    | [] => s
    | n :: _ =>
      if mine.length ≤ 16384 then s
      else
        let s := if n.dirty then s.putBackNode n else s
        let gone := fun (x : CacheNode) => !(x.channel == n.channel && x.level == n.level && x.node == n.node)
        State.shrinkCache p fuel { s with crypt := { s.crypt with cache := s.crypt.cache.filter gone } }

/-- Every dirty node written back, level after level (R367, R369, R563). -/
def State.flushCache (s : State) : State :=
  (List.range (s.treeTop + 1)).foldl (fun s level =>
    (s.crypt.cache.filter fun n => n.level == level && n.dirty).foldl State.putBackNode s) s

/-- The leaf of a TREE line obtained (R358 step 2): a look-up served by the cache or not is counted. -/
def State.lookLeaf (s : State) (init a : Nat) (write rootBad : Bool) : NodeEnd :=
  let ch := s.g6Chan a
  let g := s.leafOf a
  let s := s.count ((if (s.cached ch 0 g).isSome then Reg.CRYPT.CACHE.HIT else Reg.CRYPT.CACHE.MISS) (ch / 8)) 1
  let e := State.trustNode init write rootBad ch s.treeTop s g
  { e with st := State.shrinkCache (ch / 8) 4096 e.st }

/-! ### Protected lines -/

/-- The plaintext of a line as words of zeros, which a read that fails delivers. -/
def zeroLine : List Word := List.replicate 8 0

/-- What a read of a protected line finds before its check: the state, the ciphertext, the uncorrectable words of it, the tag slot, and
whether that is uncorrectable. -/
structure RawLine where
  st : State
  cipher : BitVec 512
  bad : List Nat
  slot : Word
  slotBad : Bool

/-- The ciphertext of a line and its tag slot read (R358 step 1). -/
def State.rawLine (s : State) (init a : Nat) (write : Bool) : RawLine :=
  let r := s.g6ReadAll init write ((List.range 8).map (a / 8 + ·))
  let t := r.1.g6Read init (s.slotKey a) write
  { st := t.1, cipher := packLine r.2.1, bad := r.2.2, slot := t.2.1, slotBad := t.2.2 }

/-- The tweak of a line whose leaf holds `leaf` (R349). -/
def State.tweak (s : State) (a : Nat) (leaf : BitVec 512) : BitVec 128 :=
  tweakOf (s.unitMode (a / 0x40000000) == 1) a (leafMinor leaf (s.treeIndex a % 64)) (leafMajor leaf)

/-- How the check of a raw line ends (R358, R362): its plaintext, or DATA_ERROR with zeros; an uncorrectable word of the ciphertext is
handled under R325, a wrong tag is counted and logged. -/
def State.checkLine (s : State) (init a : Nat) (write : Bool) (r : RawLine) (leaf : BitVec 512) : State × AccessEnd :=
  let ch := s.g6Chan a
  let tree := s.unitMode (a / 0x40000000) == 1
  let tweak := s.tweak a leaf
  match r.bad with
  | k :: _ => (s, { data := zeroLine, status := hsData, err := k })
  | [] =>
    if r.slotBad || slotOf s.crypt.keys tree tweak r.cipher != r.slot then
      ((s.count (Reg.CRYPT.COUNT.TAGFAIL (ch / 2)) 1).cryptLog 0 ch init 0 a write,
        { data := zeroLine, status := hsData, err := a / 8 })
    else (s, .good (wordsOfLine (plainOf s.crypt.keys tweak r.cipher)))

/-- The end of an access to a line that a failing tree or a blocked subtree keeps (R363). -/
def keptLine (a : Nat) (write : Bool) : AccessEnd :=
  { data := zeroLine, status := if write then hsRefused else hsData, err := a / 8 }

/-- Whether a line lies in a blocked subtree of its channel's tree. -/
def State.lineKept (s : State) (a : Nat) : Bool := s.unitMode (a / 0x40000000) == 1 && s.lineBlocked a

/-- A protected line verified and decrypted (R358). -/
def State.openLine (s : State) (init a : Nat) (write rootBad : Bool) : State × AccessEnd :=
  if s.unitMode (a / 0x40000000) ≠ 1 then
    let r := s.rawLine init a write
    r.st.checkLine init a write r 0
  else if s.lineBlocked a then (s, keptLine a write)
  else
    let r := s.rawLine init a write
    let e := r.st.lookLeaf init a write rootBad
    match e.bad with
    | some b => (e.st.treeFails init (s.g6Chan a) write b, keptLine a write)
    | none => e.st.checkLine init a write r e.data

/-- A protected line encrypted and written with its tag (R359 step 3). -/
def State.putSealed (s : State) (a : Nat) (leaf : BitVec 512) (plain : List Word) : State :=
  let tweak := s.tweak a leaf
  let c := cipherOf s.crypt.keys tweak (packLine plain)
  (s.g6PutLine a c).g6Put (s.slotKey a) (slotOf s.crypt.keys (s.unitMode (a / 0x40000000) == 1) tweak c)

/-- A leaf changed in the cache, dirty; the high-water mark follows its major counter (R357, R359 step 4). -/
def State.putLeaf (s : State) (ch g : Nat) (leaf : BitVec 512) : State :=
  let s := s.cacheNode { channel := ch, level := 0, node := g, data := leaf, dirty := true }
  { s with crypt := { s.crypt with
    highwater := s.crypt.highwater.upd 0 ch (max (s.crypt.highwater.at 0 ch) (leafMajor leaf)) } }

/-- The group of a line re-encrypted (R360): the major counter grows, the minors are 0, the 63 other lines are read, verified, and
written again with new tags; one that fails its check stays as it is stored (DEDUCED, assumption 110). -/
def State.reencrypt (s : State) (init a : Nat) (leaf : BitVec 512) : State × BitVec 512 :=
  let ch := s.g6Chan a
  let g := s.leafOf a
  let new : BitVec 512 := BitVec.ofNat 512 (leafMajor leaf + 1)
  let s := s.putLeaf ch g new
  let others := ((List.range 64).map fun k => lineAt s.g6map s.treeUnits ch (64 * g + k)).filter fun l => l ≠ a / 64 * 64
  let s := others.foldl (fun s l =>
    let r := s.rawLine init l true
    let x := r.st.checkLine init l true r leaf
    if x.2.status = hsOk then x.1.putSealed l new x.2.data else x.1) s
  let s := s.count (Reg.CRYPT.COUNT.REENC (ch / 2)) 1
  (s.postLimited 0x0604 (ch / 2) sevInfo (srcPn + ch / 8) (ch / 2), new)

/-- The minor counter of a TREE line increments before the line is encrypted; at 127 its group overflows (R356, R360).  `none` is a
write refused because the major counter is exhausted (R361). -/
def State.bumpCounter (s : State) (init a : Nat) (leaf : BitVec 512) : State × Option (BitVec 512) :=
  let ch := s.g6Chan a
  let g := s.leafOf a
  let k := s.treeIndex a % 64
  let n := leafMinor leaf k
  if n < 127 then (s.putLeaf ch g (setMinor leaf k (n + 1)), some (setMinor leaf k (n + 1)))
  else if leafMajor leaf = 2 ^ 64 - 1 then
    let s := (s.wr Reg.CRYPT.STAT.FATAL 1).cryptLog 3 ch init 0 (a / 64 * 64) true
    let s := { s with crypt := { s.crypt with stuck := s.crypt.stuck ++ [(ch, g)] } }
    (s.post 0x0605 sevFatal (srcPn + ch / 8) ch, none)
  else
    let r := s.reencrypt init a leaf
    let new := setMinor r.2 k 1
    (r.1.putLeaf ch g new, some new)

/-- The words of a protected line that a write covers, `(index, byte enables, data)`, put into its plaintext. -/
def mergeLine (plain : List Word) (ws : List (Nat × Nat × Word)) : List Word :=
  ws.foldl (fun l w => l.set w.1 (mergeBytes (l.getD w.1 0) w.2.2 w.2.1)) plain

/-- A protected line written with some words (R359, R361-R363). -/
def State.sealLine (s : State) (init a : Nat) (ws : List (Nat × Nat × Word)) (rootBad : Bool) : State × AccessEnd :=
  let tree := s.unitMode (a / 0x40000000) == 1
  let ch := s.g6Chan a
  let whole := ws.length == 8 && ws.all fun w => w.2.1 == 255
  if tree && s.lineBlocked a || tree && s.crypt.stuck.contains (ch, s.leafOf a) then (s, keptLine a true)
  else
    let r := if whole then (s, AccessEnd.good zeroLine) else s.openLine init a true rootBad
    if r.2.status ≠ hsOk then (r.1, r.2)
    else if !tree then (r.1.putSealed a 0 (mergeLine r.2.data ws), .good [])
    else
      let e := r.1.lookLeaf init a true rootBad
      match e.bad with
      | some b => (e.st.treeFails init ch true b, keptLine a true)
      | none =>
        match e.st.bumpCounter init a e.data with
        | (s, none) => (s, keptLine a true)
        | (s, some leaf) => (s.putSealed a leaf (mergeLine r.2.data ws), .good [])

/-! ### Channels that go down -/

/-- A channel goes down (R321): a channel with TREE lines loses its tree (R364), a STATE_SAVE ends with HW_FAULT (R335). -/
def State.channelDown (s : State) (ch : Nat) : State :=
  let f := cstatF Reg.MEM.CSTAT.DOWN (ch / 2)
  let s := (s.wr f (Nat.lor (s.rd f) (2 ^ (ch % 2)))).post 0x0505 sevError (srcPn + ch / 8) ch
  let s := if s.treeUnits.isEmpty then s
    else (s.blockTree ch).post 0x0605 sevFatal (srcPn + ch / 8) (ch + 2 * 2 ^ 8)
  match s.g6.save with
  | some v => { s with g6 := { s.g6 with save := none } }.complete v.1 stHwFault 0 []
  | none => s

/-! ### The end of protection -/

/-- Protection ends on every unit (R342, R369): the memory stays as it is, the window is released, the modes are OFF. -/
def State.unprotect (s : State) : State :=
  let s := (s.releaseRegions .ctag).releaseRegions .ctree
  let s := { s with crypt := { s.crypt with roots := [], cache := [], blocked := [], refuse := [] } }
  let s := (s.store (Reg.CRYPT.UNITS.MODES 0).addr 0).store (Reg.CRYPT.UNITS.MODES 1).addr 0
  let s := (s.store Reg.CRYPT.BLOCKED.SUBTREE.addr 0).wr Reg.CRYPT.STAT.ENABLED 0
  let s := ((s.wr Reg.CRYPT.STAT.PROTECTED 0).wr Reg.CRYPT.STAT.TREE 0).wr Reg.CRYPT.STAT.META 0
  (s.wr Reg.CRYPT.STAT.METABASE 0).setHeld 0x10 0

end Sys2Proof.Machine
end

