-- ==== Sys2Proof/Machine/LaneOps.lean ====
section
/-! DEFINITION. Fabric lanes and the Reel link (10_lanes.md): groups and their registers, sending and acknowledging
frames (R390-R393), their blocks and places on the stream (R381, R385-R389), groups that come up and go down (R383, R384),
budget units (R410). -/

namespace Sys2Proof.Machine

/-! ### Groups -/

/-- The enabled group with a first lane. -/
def State.group (s : State) (first : Nat) : Option Group := s.groups.find? fun g => g.first = first

/-- A group's record changed. -/
def State.setGroup (s : State) (g : Group) : State :=
  { s with groups := s.groups.map fun h => if h.first = g.first then g else h }

/-- The lanes of a group. -/
def groupLanes (first wlog : Nat) : List Nat := (List.range (2 ^ wlog)).map (first + ·)

/-- A register field written in every lane of a group. -/
def State.laneSet (s : State) (f : Nat → Field) (first wlog v : Nat) : State :=
  (groupLanes first wlog).foldl (fun s n => s.wr (f n) v) s

/-- The source of a lane's events: its porch. -/
def laneSource (n : Nat) : Nat := if n < 32 then srcPn else srcPs

/-- Whether a group is UP (R383). -/
def State.laneUp (s : State) (first : Nat) : Bool := s.rd (Reg.LANE.STAT.STATE first) == 2

/-- The BU of a group's receivers and Reel link (R410). -/
def laneRxBu (wlog rate : Nat) : Nat := 2 ^ wlog * (if rate = 0 then 2 else 1) + 1

/-- The BU of an awake group (R410). -/
def laneBu (wlog rate : Nat) : Nat := laneRxBu wlog rate + 2 ^ wlog

/-- A group's Reel link with no frame held: the state after setup (R390, R393). -/
def Group.new (first wlog pseat pfirst : Nat) : Group :=
  { first := first, wlog := wlog, pseat := pseat, pfirst := pfirst, fresh := true, recount := false, txHeld := [],
    txQueue := [], goBacks := 0, ackedAt := 0, nackUntil := none, unacked := false, startAt := 0, landing := [],
    freed := 0, loop := none, syncNo := 0, syncAt := 0, syncTxs := [], syncRx := 0, partnerSync := 0, meas := none,
    wakeUntil := none, downAt := 0, sent := [], unsent := 0 }

/-! ### Kinds of frame -/

/-- KIND of a VALUE frame (R387). -/
def kindValue : Nat := 1
/-- KIND of an ACK frame (R387). -/
def kindAck : Nat := 2
/-- KIND of a NACK frame (R387). -/
def kindNack : Nat := 3
/-- KIND of a HOLD or STOP frame (R387). -/
def kindHold : Nat := 4
/-- KIND of a SYNC frame (R387). -/
def kindSync : Nat := 5

/-- Whether frames of a KIND are sequenced (R387). -/
def sequenced (kind : Nat) : Bool := kind == kindValue || kind == kindHold

/-! ### Blocks (R376, R385, R386, R388) -/

/-- Control block type IDLE (R385). -/
def blockIdle : Nat := 0x1E
/-- Control block type MARKER (R385). -/
def blockMarker : Nat := 0x4B
/-- Control block type START (R385). -/
def blockStart : Nat := 0x78
/-- Control block type END (R385). -/
def blockEnd : Nat := 0x87

/-- The 64-bit field of a control block: its type in bits [7:0], its 56 fields above (R385). -/
def controlField (type fields : Nat) : Word := toWord (type + fields % 2 ^ 56 * 2 ^ 8)

/-- The fields of a MARKER block (R385). -/
def markerFields (index first seat wlog : Nat) : Nat := index + first * 2 ^ 4 + seat * 2 ^ 10 + wlog * 2 ^ 20

/-- The fields of a frame's START block (R386). -/
def LFrame.startFields (f : LFrame) : Nat :=
  f.fseq % 4096 + f.expseq % 4096 * 2 ^ 12 + f.kind * 2 ^ 24 + f.payload.length * 2 ^ 28 + f.credit * 2 ^ 33

/-- The CRC-32 of a frame: over the 7 bytes of the START fields, the frame word and the payload, little-endian (R388). -/
def frameCrc (start : Nat) (word : Word) (payload : List Word) : Nat :=
  crc32 (leBytes 7 start ++ wordBytes (word :: payload))

/-- The blocks of a frame (R386): whether each is a control block, and its 64-bit field. -/
def LFrame.blocks (f : LFrame) : List (Bool × Word) :=
  (true, controlField blockStart f.startFields) :: (false, f.word) :: f.payload.map (fun w => (false, w)) ++
    [(true, controlField blockEnd (frameCrc f.startFields f.word f.payload))]

/-! ### The stream (R381, R389, R395)

Stream position p leaves on the lane of index p mod w.  Positions are counted from instant 0 at the lanes' rate, and the MARKER
rounds are those whose number is a multiple of 16,384 (DESIGN CHOICE, assumption 114). -/

/-- The line rate of a RATE in kb/s (R376). -/
def lineKbps (rate : Nat) : Nat :=
  if rate = 0 then 56000000 else if rate = 1 then 28000000 else if rate = 2 then 25781250 else 10312500

/-- The number of lanes of a group (R380). -/
def Group.width (g : Group) : Nat := 2 ^ g.wlog

/-- The first stream position of the next round of blocks, one on each lane. -/
def State.streamNow (s : State) (g : Group) : Nat :=
  (s.now * lineKbps (s.rd (Reg.LANE.CFG.RATE g.first)) / (66 * 10 ^ 12) + 1) * g.width

/-- When a stream position leaves, in fs. -/
def State.positionAt (s : State) (g : Group) (p : Nat) : Nat :=
  p / g.width * (66 * 10 ^ 12) / lineKbps (s.rd (Reg.LANE.CFG.RATE g.first))

/-- Whether a stream position holds a MARKER block (R381). -/
def markerAt (w p : Nat) : Bool := p / w % 16384 == 0

/-- The first position from `p` that holds no MARKER block. -/
def skipMarker (w p : Nat) : Nat := if markerAt w p then (p / w + 1) * w else p

/-- The positions of `n` blocks that follow one another from `p`: MARKER blocks may fall inside (R389). -/
def framePositions (w : Nat) : Nat → Nat → List Nat
  | 0, _ => []
  | n + 1, p => skipMarker w p :: framePositions w n (skipMarker w p + 1)

/-- The positions of a frame on its group's stream. -/
def LFrame.positions (w : Nat) (f : LFrame) : List Nat := framePositions w (f.payload.length + 3) f.pos

/-- The first position after the frames placed on a group's stream. -/
def Group.streamEnd (g : Group) : Nat :=
  match g.sent.getLast? with
  | some f => (f.positions g.width).getLastD f.pos + 1
  | none => 0

/-- The block that a group sends at a stream position: a MARKER, a block of a frame, or IDLE (R381, R385, R389). -/
def State.blockSent (s : State) (g : Group) (p : Nat) : Bool × Word :=
  if markerAt g.width p then
    (true, controlField blockMarker (markerFields (p % g.width) g.first s.dev.seat g.wlog))
  else
    match g.sent.findSome? fun f => ((f.positions g.width).zip f.blocks).find? fun b => b.1 = p with
    | some b => b.2
    | none => (true, controlField blockIdle 0)

/-- What a fabric lane's transmitter sends off the device (R383, R398, R401, R402). -/
inductive LaneTx where
  | off
  | electricalIdle
  | wakePattern
  | looped
  | idles
  | partner
  | stream
  deriving DecidableEq, Repr

/-- What a fabric lane sends: nothing while disabled, its loop's output (R398), electrical idle asleep (R401), the wake pattern for
2 µs (R402), else its group's stream. -/
def State.laneTx (s : State) (lane : Nat) : LaneTx :=
  match s.groups.find? fun g => g.first ≤ lane ∧ lane < g.first + g.width with
  | none => .off
  | some g =>
    if s.rdb (Reg.LANE.STAT.TXSLEEP lane) then .electricalIdle
    else if g.wakeUntil.isSome then .wakePattern
    else match g.loop with
      | some (l, kind, _) =>
        if l = lane then (if kind = 1 then .looped else if kind = 2 then .idles else .partner) else .stream
      | none => .stream

/-! ### Sending -/

/-- A frame takes its place on the stream, after those placed before it and no sooner than the next round; the START block of a SYNC
frame stands on lane index 0 (R389, R395).  START carries EXPSEQ and the slots freed since the previous START (R386). -/
def Group.place (g : Group) (now exp : Nat) (f : LFrame) : Group :=
  let w := g.width
  let p := max g.streamEnd now
  let p := skipMarker w (if f.kind = kindSync then ceilDiv p w * w else p)
  { g with
    freed := g.freed - min g.freed 512
    sent := g.sent ++ [{ f with expseq := exp, credit := min g.freed 512, pos := p }] }

/-- Frames taken back that the stream has not begun (R408): the slots that their START blocks would have carried are owed again, and
`unsent` keeps TXFRAMES from counting them twice. -/
def Group.takeBack (g : Group) (now : Nat) (which : LFrame → Bool) : Group × List LFrame :=
  let back := g.sent.filter fun f => decide (now ≤ f.pos) && which f
  ({ g with
     sent := g.sent.filter fun f => !(decide (now ≤ f.pos) && which f)
     freed := g.freed + (back.map LFrame.credit).sum
     unsent := g.unsent + back.length }, back)

/-- Frames leave a group's transmitter, so that nothing accepted stays unacknowledged (R386, R392). -/
def State.transmit (s : State) (g : Group) (fs : List LFrame) : State :=
  if fs.isEmpty then s.setGroup g
  else
    let exp := s.rd (Reg.LANE.LINK2.EXPSEQ g.first)
    let g' := fs.foldl (fun h f => h.place (s.streamNow g) exp f) g
    (s.setGroup { g' with unacked := false, startAt := s.now, unsent := g.unsent - fs.length }).count
      (Reg.LANE.LINK0.TXFRAMES g.first) (fs.length - g.unsent)

/-- Whether a group can send: UP with its transmitter awake. -/
def State.laneSends (s : State) (first : Nat) : Bool := s.laneUp first && !s.rdb (Reg.LANE.STAT.TXSLEEP first)

/-- An unsequenced frame is sent at once, where the group is UP and its transmitter awake: after the frame in progress and ahead of
the frames that wait for the stream (R395, R408). -/
def State.sendNow (s : State) (first kind : Nat) (word : Word) (payload : List Word) : State :=
  match s.group first with
  | none => s
  | some g =>
    if s.laneSends first then
      let back := g.takeBack (s.streamNow g) fun f => sequenced f.kind
      s.transmit back.1 ({ kind := kind, fseq := 0, expseq := 0, credit := 0, word := word, payload := payload,
                           pos := 0, again := false } :: back.2)
    else s

/-- The frame at the head of a group's queue is sent: numbered, held in the replay buffer, its credit spent (R390). -/
def State.sendHead (s : State) (first : Nat) : State :=
  match s.group first with
  | none => s
  | some g =>
    match g.txQueue with
    | [] => s
    | f :: rest =>
      let credit := s.rd (Reg.LANE.LINK2.CREDIT first)
      if s.laneSends first && decide (g.txHeld.length < 256) && (f.kind != kindValue || decide (0 < credit)) then
        let seq := s.rd (Reg.LANE.LINK2.TXSEQ first)
        let f := { f with fseq := seq }
        let g := { g with
          txQueue := rest
          txHeld := g.txHeld ++ [f]
          ackedAt := if g.txHeld.isEmpty then s.now else g.ackedAt }
        let s := (s.setGroup g).transmit g [f]
        let s := s.wr (Reg.LANE.LINK2.TXSEQ first) ((seq + 1) % 4096)
        let s := if f.kind = kindValue then s.wr (Reg.LANE.LINK2.CREDIT first) (credit - 1) else s
        s.wr (Reg.LANE.LINK2.HELD first) (g.txHeld.length)
      else s

/-- Queued frames are sent while the replay buffer and the credits allow. -/
def State.sendQueued (s : State) (first : Nat) : State :=
  match s.group first with
  | none => s
  | some g => (List.range g.txQueue.length).foldl (fun s _ => s.sendHead first) s

/-- The VALUE frames that wait for the stream to send them a first time return to the queue, their numbers and credits with them:
a HOLD or STOP frame goes ahead of them (R456). -/
def State.recallValues (s : State) (first : Nat) : State :=
  match s.group first with
  | none => s
  | some g =>
    let back := g.takeBack (s.streamNow g) fun f => f.kind = kindValue ∧ !f.again
    let n := back.2.length
    let held := g.txHeld.take (g.txHeld.length - n)
    let s := s.setGroup { back.1 with txHeld := held, txQueue := back.2 ++ g.txQueue }
    let s := s.wr (Reg.LANE.LINK2.TXSEQ first) ((s.rd (Reg.LANE.LINK2.TXSEQ first) + 4096 - n) % 4096)
    let s := s.wr (Reg.LANE.LINK2.CREDIT first) (min 512 (s.rd (Reg.LANE.LINK2.CREDIT first) + n))
    s.wr (Reg.LANE.LINK2.HELD first) held.length

/-- A sequenced frame joins a group's queue; HOLD and STOP frames go ahead of every VALUE frame (R456). -/
def State.queueFrame (s : State) (first kind : Nat) (word : Word) (payload : List Word) : State :=
  let s := if kind = kindHold then s.recallValues first else s
  match s.group first with
  | none => s
  | some g =>
    let f : LFrame := { kind := kind, fseq := 0, expseq := 0, credit := 0, word := word, payload := payload,
                        pos := 0, again := false }
    let q := if kind = kindHold then
        (g.txQueue.takeWhile fun x => x.kind = kindHold) ++ [f] ++ g.txQueue.dropWhile fun x => x.kind = kindHold
      else g.txQueue ++ [f]
    (s.setGroup { g with txQueue := q }).sendQueued first

/-! ### Going down -/

/-- A group goes down with a cause (R384): it keeps its sending and receiving state (R393), and
frames that the stream had not begun are not sent. -/
def State.groupDown (s : State) (first wlog cause : Nat) : State :=
  let inUse := s.rdb (Reg.LANE.CFG.INUSE first)
  let s := s.laneSet Reg.LANE.STAT.STATE first wlog 3
  let s := s.laneSet Reg.LANE.STAT.CAUSE first wlog cause
  let s := s.laneSet Reg.LANE.STAT.BLOCKLOCK first wlog 0
  let s := match s.group first with
    | some g => s.setGroup { (g.takeBack (s.streamNow g) fun _ => true).1 with downAt := s.now }
    | none => s
  s.post 0x0702 (if inUse then sevError else sevWarn) (laneSource first) (first + cause * 2 ^ 8)

/-- A group's Reel link state is discarded (R393): its held frames are counted in the detail of LANE_GROUP_DOWN. -/
def State.discardLink (s : State) (first : Nat) : State :=
  match s.group first with
  | none => s
  | some g =>
    let inUse := s.rdb (Reg.LANE.CFG.INUSE first)
    let n := g.txHeld.length
    let s := s.setGroup (Group.new g.first g.wlog g.pseat g.pfirst)
    let s := s.store (Reg.LANE.LINK2.HELD first).addr 0
    let cause := s.rd (Reg.LANE.STAT.CAUSE first)
    s.post 0x0702 (if inUse then sevError else sevWarn) (laneSource first) (first + cause * 2 ^ 8 + min n 65535 * 2 ^ 16)

/-! ### Acknowledging -/

/-- Held frames before EXPSEQ are acknowledged (R392); an EXPSEQ outside the frames held acknowledges nothing. -/
def State.acknowledge (s : State) (first expseq : Nat) : State :=
  match s.group first with
  | none => s
  | some g =>
    match g.txHeld with
    | [] => s
    | f :: _ =>
      let n := (expseq + 4096 - f.fseq) % 4096
      if n = 0 ∨ g.txHeld.length < n then s
      else
        let s := s.setGroup { g with txHeld := g.txHeld.drop n, goBacks := 0, ackedAt := s.now }
        (s.wr (Reg.LANE.LINK2.HELD first) (g.txHeld.length - n)).sendQueued first

/-- CREDIT of a START adds to the credits (R390); the partner's first START after the link came up again recounts them
(R393). -/
def State.takeCredit (s : State) (first credit : Nat) : State :=
  match s.group first with
  | none => s
  | some g =>
    let have_ := if g.recount then 0 else s.rd (Reg.LANE.LINK2.CREDIT first)
    ((s.setGroup { g with recount := false }).wr (Reg.LANE.LINK2.CREDIT first) (min 512 (have_ + credit))).sendQueued
      first

/-- What every START that arrives does: it acknowledges, and it carries credit (R386, R390, R392). -/
def State.takeStart (s : State) (first expseq credit : Nat) : State :=
  (s.acknowledge first expseq).takeCredit first credit

/-- A go-back: every held frame is sent again in order (R392), a resend in progress begun anew (R408); the sixteenth in a row takes
the group down with RETRY. -/
def State.goBack (s : State) (first : Nat) : State :=
  match s.group first with
  | none => s
  | some g =>
    if g.txHeld.isEmpty then s
    else
      let g := { (g.takeBack (s.streamNow g) fun f => sequenced f.kind).1 with
        goBacks := g.goBacks + 1, ackedAt := s.now }
      let s := (s.setGroup g).transmit g (g.txHeld.map fun f => { f with again := true })
      let s := s.count (Reg.LANE.LINK1.GOBACKS first) 1
      let s := s.postLimited 0x0704 first sevWarn (laneSource first) first
      if 16 ≤ g.goBacks then s.groupDown first g.wlog 7 else s

/-- A receiver asks for a resend after a discard: a NACK, unless one was sent less than 2 µs ago and nothing has been
accepted since (R391). -/
def State.nack (s : State) (first : Nat) : State :=
  match s.group first with
  | none => s
  | some g =>
    match g.nackUntil with
    | some t => if s.now < t then s
      else (s.setGroup { g with nackUntil := some (s.now + 2 * fsUs) }).sendNow first kindNack 0 []
    | none => (s.setGroup { g with nackUntil := some (s.now + 2 * fsUs) }).sendNow first kindNack 0 []

/-- Whether a group can receive: UP with its receiver awake. -/
def State.laneHears (s : State) (first : Nat) : Bool :=
  (s.group first).isSome && s.laneUp first && !s.rdb (Reg.LANE.STAT.RXSLEEP first)

/-- A received frame from the fields of its START block (R386), `ctl` its 32 bits from KIND upwards, and its other blocks. -/
def rxFrame (fseq expseq ctl : Nat) (word : Word) (payload : List Word) (crc : Nat) (others : List LaneBlock) : LaneFrame :=
  { start := fseq + expseq * 2 ^ 12 + ctl * 2 ^ 24, word := word, payload := payload, crc := crc, others := others }

/-- FSEQ of a received frame (R386). -/
def rxFseq (f : LaneFrame) : Nat := bits f.start 11 0
/-- EXPSEQ of a received frame (R386). -/
def rxExpseq (f : LaneFrame) : Nat := bits f.start 23 12
/-- KIND of a received frame (R386). -/
def rxKind (f : LaneFrame) : Nat := bits f.start 27 24
/-- LEN of a received frame (R386). -/
def rxLen (f : LaneFrame) : Nat := bits f.start 32 28
/-- CREDIT of a received frame (R386). -/
def rxCredit (f : LaneFrame) : Nat := bits f.start 42 33

/-- Whether a frame passes its CRC-32, and R387's rule on KIND and LEN.  A frame whose END block does not come after LEN payload words fails
as one whose CRC-32 does (DESIGN CHOICE, assumption 115). -/
def rxGood (f : LaneFrame) : Bool :=
  f.crc == frameCrc f.start f.word f.payload && f.payload.length == rxLen f && decide (rxLen f ≤ 16) &&
    decide (1 ≤ rxKind f) && decide (rxKind f ≤ 5)

/-- A block that belongs to no frame (R385): an invalid sync header or a control block of another type counts in HDRERR of its
lane; IDLE and MARKER blocks, and blocks of a frame cut short, are removed. -/
def State.strayBlock (s : State) (g : Group) (b : LaneBlock) : State :=
  let type := fieldOf b.field 7 0
  let known := type == blockIdle || type == blockMarker || type == blockStart || type == blockEnd
  if b.lane < g.width ∧ (b.header = 0 ∨ b.header = 3 ∨ (b.header = 2 ∧ !known)) then
    s.count (Reg.LANE.ERR.HDRERR (g.first + b.lane)) 1
  else s

/-- The blocks that came since the previous frame (R385, R389). -/
def State.strayBlocks (s : State) (first : Nat) (bs : List LaneBlock) : State :=
  match s.group first with
  | none => s
  | some g => bs.foldl (fun s b => s.strayBlock g b) s

/-- An unsequenced frame arrives (R391): one that fails its check is discarded and counted; what another does follows the use of its
START (R386). -/
def State.hearFrame (s : State) (first : Nat) (f : LaneFrame) (effect : State → State) : State :=
  let s := s.strayBlocks first f.others
  if !rxGood f then s.count (Reg.LANE.LINK1.CRCERR first) 1
  else effect ((s.count (Reg.LANE.LINK0.RXFRAMES first) 1).takeStart first (rxExpseq f) (rxCredit f))

/-- A sequenced frame arrives (R391): it is accepted where it passes its checks and its FSEQ is the expected one, and `effect` is what
it then does; any other is discarded with a NACK.  A frame of no KIND of R387 is discarded without one. -/
def State.receive (s : State) (first : Nat) (f : LaneFrame) (effect : State → State) : State :=
  let s := s.strayBlocks first f.others
  if !rxGood f then
    let s := s.count (Reg.LANE.LINK1.CRCERR first) 1
    if sequenced (rxKind f) then s.nack first else s
  else
    let s := s.takeStart first (rxExpseq f) (rxCredit f)
    if rxFseq f ≠ s.rd (Reg.LANE.LINK2.EXPSEQ first) then s.nack first
    else
      let s := s.wr (Reg.LANE.LINK2.EXPSEQ first) ((rxFseq f + 1) % 4096)
      let s := s.count (Reg.LANE.LINK0.RXFRAMES first) 1
      let s := match s.group first with
        | some g => s.setGroup { g with nackUntil := none, unacked := true }
        | none => s
      effect s

/-- A landing slot is freed (R391). -/
def State.freeSlotOf (s : State) (first n : Nat) : State :=
  match s.group first with
  | some g => s.setGroup { g with freed := g.freed + n }
  | none => s

/-! ### Coming up -/

/-- A group comes up (R383): the Reel link starts with 512 credits, or resumes with every held frame sent again and its
credits recounted (R393). -/
def State.linkStart (s : State) (first : Nat) : State :=
  match s.group first with
  | none => s
  | some g =>
    if g.fresh then
      ((s.setGroup { g with fresh := false }).wr (Reg.LANE.LINK2.CREDIT first) 512).sendQueued first
    else
      let g := { g with recount := true, freed := 512 - g.landing.length, goBacks := 0, ackedAt := s.now }
      ((s.setGroup g).transmit g (g.txHeld.map fun f => { f with again := true })).sendQueued first

/-- A group trains where it is wholly awake; one with a direction asleep is not UP (R383, R401). -/
def State.trainIfAwake (s : State) (g : Group) : State :=
  let asleep := s.rdb (Reg.LANE.STAT.TXSLEEP g.first) || s.rdb (Reg.LANE.STAT.RXSLEEP g.first)
  s.laneSet Reg.LANE.STAT.STATE g.first g.wlog (if asleep then 3 else 1)

end Sys2Proof.Machine
end

