-- ==== Sys2Proof/Machine/TimeOps.lean ====
section
/-! DEFINITION. The time unit (R416-R443): cues and their owners, the two domains, selection, slewing and the clock
path.  Times are in units of 2^-32 ns, cue times in units of 2^-16 ns. -/

namespace Sys2Proof.Machine

/-! ### Cues -/

/-- FUNC of the STEP cues (R437). -/
def fnStep : Nat := 1
/-- FUNC of the OUTPUT cues (R437). -/
def fnOutput : Nat := 2
/-- FUNC of the FRAME cues (R437). -/
def fnFrame : Nat := 3
/-- FUNC of the FWACT cues (R437). -/
def fnFwact : Nat := 4
/-- FUNC of the TRACE cues (R437). -/
def fnTrace : Nat := 5
/-- FUNC of the NOTIFY cues (R437). -/
def fnNotify : Nat := 6

/-- The owner function of a cue. -/
def State.cueFunc (s : State) (k : Nat) : Nat := s.rd (Reg.TIME.CUE.THI.FUNC k)

/-- Whether a cue is armed. -/
def State.cueArmed (s : State) (k : Nat) : Bool := s.rdb (Reg.TIME.CUE.THI.ARMED k)

/-- Whether a function may claim a cue (R440). -/
def State.cueFree (s : State) (k f : Nat) : Bool := s.cueFunc k == 0 || s.cueFunc k == f

/-- A cue claimed (R440). -/
def State.claimCue (s : State) (k f : Nat) : State := s.wr (Reg.TIME.CUE.THI.FUNC k) f

/-- A cue released (R440). -/
def State.releaseCue (s : State) (k : Nat) : State :=
  ((s.wr (Reg.TIME.CUE.THI.FUNC k) 0).wr (Reg.TIME.CUE.THI.ARMED k) 0).wr (Reg.TIME.CUE.THI.PERIODIC k) 0

/-- Every cue that a function owns released. -/
def State.releaseCuesOf (s : State) (f : Nat) : State :=
  (List.range 16).foldl (fun s k => if s.cueFunc k = f then s.releaseCue k else s) s

/-- The first free cue. -/
def State.firstFreeCue (s : State) : Option Nat := (List.range 16).find? fun k => s.cueFunc k == 0

/-- Units of 2^-16 ns in a second. -/
def secUnits : Nat := 1000000000 * 65536

/-- The output time rounded up to units of 2^-16 ns: a match time below it has passed. -/
def State.outUnits (s : State) : Nat := ceilDiv s.time.out 65536

/-- A cue's match time in units of 2^-16 ns. -/
def State.cueUnits (s : State) (k : Nat) : Nat :=
  s.rd (Reg.TIME.CUE.THI.SEC k) * secUnits + s.rd (Reg.TIME.CUE.TLO.NS k) * 65536 + s.rd (Reg.TIME.CUE.TLO.FRAC k)

/-- A cue's match time set. -/
def State.setCueUnits (s : State) (k u : Nat) : State :=
  ((s.wr (Reg.TIME.CUE.THI.SEC k) (u / secUnits)).wr (Reg.TIME.CUE.TLO.NS k) (u % secUnits / 65536)).wr
    (Reg.TIME.CUE.TLO.FRAC k) (u % 65536)

/-- Units of 2^-16 ns in 0.125 ns. -/
def tickUnits : Nat := 8192

/-- The first `m + k * p` that is not before `now` (R439). -/
def firstNotBefore (m p now : Nat) : Nat := if p = 0 then m else m + ceilDiv (now - m) p * p

/-- A cue armed at a match time with a period in 0.125 ns, 0 for one shot (R439): a time already passed sets LATE and
posts CUE_LATE; a periodic cue then takes its first time not before the output time, and a one-shot cue is due at
once. -/
def State.armCue (s : State) (k u period : Nat) : State :=
  let late := decide (u * 65536 < s.time.out)
  let u' := if late ∧ period ≠ 0 then firstNotBefore u (period * tickUnits) s.outUnits else u
  let s := s.setCueUnits k u'
  let s := (s.wr (Reg.TIME.CUE.PER.PERIOD k) period).wrb (Reg.TIME.CUE.THI.PERIODIC k) (period != 0)
  let s := s.wr (Reg.TIME.CUE.THI.ARMED k) 1
  if late then (s.wr (Reg.TIME.CUE.THI.LATE k) 1).post 0x0806 sevWarn srcDevice k else s

/-- Whether a cue's match is due: armed, and the output time has reached its match time (R438). -/
def State.cueDue (s : State) (k : Nat) : Bool := s.cueArmed k && decide (s.cueUnits k * 65536 ≤ s.time.out)

/-- A match counted; a periodic cue takes its next time, a one-shot cue is disarmed (R438). -/
def State.cueNext (s : State) (k : Nat) : State :=
  let s := s.count (Reg.TIME.CUE.CNT.MATCHES k) 1
  if s.rdb (Reg.TIME.CUE.THI.PERIODIC k) then
    s.setCueUnits k (s.cueUnits k + s.rd (Reg.TIME.CUE.PER.PERIOD k) * tickUnits)
  else s.wr (Reg.TIME.CUE.THI.ARMED k) 0

/-! ### Domains -/

/-- Domain state OFF (R422). -/
def dsOff : Nat := 0
/-- Domain state ACQUIRING (R422). -/
def dsAcquiring : Nat := 1
/-- Domain state LOCKED (R422). -/
def dsLocked : Nat := 2
/-- Domain state FREE (R422). -/
def dsFree : Nat := 3

/-- Domain A or B. -/
def State.dom (s : State) (d : Nat) : Domain := if d = 0 then s.time.domA else s.time.domB

/-- Domain A or B changed. -/
def State.setDom (s : State) (d : Nat) (x : Domain) : State :=
  if d = 0 then { s with time := { s.time with domA := x } } else { s with time := { s.time with domB := x } }

/-- The field of `TIME.STAT` that shows a domain's state. -/
def domStateF (d : Nat) : Field := if d = 0 then Reg.TIME.STAT.STATEA else Reg.TIME.STAT.STATEB

/-- A domain's state. -/
def State.domState (s : State) (d : Nat) : Nat := s.rd (domStateF d)

/-- The selected domain. -/
def State.selected (s : State) : Nat := s.rd Reg.TIME.STAT.SEL

/-- The nominal rate word (R417), in 2^-32 ns per tick. -/
def nominalRate : Nat := 0x2_0000_0000

/-- The nominal rate word of a HOST domain under a declared spread of `d` steps of 0.05% (R550): times 1/(1 - d/2). -/
def hostRate (d : Nat) : Nat := nominalRate * 4000 / (4000 - d)

/-- The largest slew, 100 ns/s, in units of 2^-32 ns for each tick of 2 ns (R424, R425); R425 gives a bound, and its
worked example slews at it (DEDUCED, assumption 21). -/
def slewRate : Nat := 858

/-- The output rate word while the output follows the selected domain (R425): the domain's, adjusted toward it; an adjustment that ends
posts TIME_SLEW_DONE. -/
def State.followRate (s : State) : State :=
  let d := s.dom s.selected
  if s.domState s.selected = dsOff then s.wr Reg.TIME.STAT.SLEW 0
  else if d.time ≤ s.time.out + 2 ^ 16 ∧ s.time.out ≤ d.time + 2 ^ 16 then
    let ends := s.rdb Reg.TIME.STAT.SLEW
    let s := (s.wr Reg.TIME.STAT.SLEW 0).wr Reg.TIME.RATE.RATE d.rate
    if ends then s.post 0x0804 sevInfo srcDevice s.selected else s
  else if s.time.out < d.time then (s.wr Reg.TIME.STAT.SLEW 1).wr Reg.TIME.RATE.RATE (d.rate + slewRate)
  else (s.wr Reg.TIME.STAT.SLEW 1).wr Reg.TIME.RATE.RATE (d.rate - slewRate)

/-- The clock path of a domain. -/
def State.domPath (s : State) (d : Nat) : Nat := s.rd (Reg.TIME.DOM.PATH d)

/-- A domain is selected (R426): with JUMP the output takes its time at once, otherwise it keeps its value and closes the
gap under R425.  TIME_SWITCH carries the offset of the jump. -/
def State.selectDomain (s : State) (d : Nat) (auto jump : Bool) : State :=
  let x := s.dom d
  let off : Int := if jump then ((x.time : Int) - s.time.out) / 2 ^ 32 else 0
  let s := s.wr Reg.TIME.STAT.SEL d
  let s := if s.coasts (s.domPath d) then s else s.wr Reg.TIME.STAT.PATH (s.domPath d)
  let s := if jump then { s with time := { s.time with out := x.time } } else s
  let s := s.followRate
  s.post 0x0803 sevInfo srcDevice (d + b2n auto * 2 + b2n jump * 4 + unsigned 48 off * 2 ^ 16)

/-- AUTO (R427): the other domain is selected when the selected one has left LOCKED and the other is LOCKED. -/
def State.autoSelect (s : State) (d : Nat) : State :=
  if s.rdb Reg.TIME.STAT.AUTO && s.selected == d && s.domState (1 - d) == dsLocked then s.selectDomain (1 - d) true false
  else s

/-- A domain leaves LOCKED, or another state, for a state (R423): from LOCKED it posts TIME_UNLOCKED with a cause. -/
def State.domLeaves (s : State) (d next cause : Nat) : State :=
  let was := s.domState d
  let s := (s.wr (domStateF d) next).setDom d { s.dom d with good := 0 }
  if was = dsLocked then (s.post 0x0802 sevWarn srcDevice (d + cause * 2 ^ 8)).autoSelect d else s

/-- The loop that clocks path `p`, 0 or 1, loses its reference (R429): the output moves to the other domain's path, or the
selected domain leaves LOCKED, for FREE (the state is a DESIGN CHOICE, assumption 117).  The shift of up to 1 ns that R430 allows is not
taken (assumption 117). -/
def State.pathLost (s : State) (p : Nat) : State :=
  if s.rd Reg.TIME.STAT.PATH ≠ p then s
  else
    let d := s.selected
    let o := 1 - d
    if s.domState o ≠ dsOff ∧ s.domPath o ≠ p ∧ !s.coasts (s.domPath o) then
      s.wr Reg.TIME.STAT.PATH (s.domPath o)
    else if s.domState d = dsLocked then s.domLeaves d dsFree 3
    else s

/-- A time stamp of SYNC frames (R397) from a time in units of 2^-32 ns. -/
def stampWord (t : Nat) : Word :=
  toWord (t / 65536 % 65536 + t / 2 ^ 32 % 1000000000 * 65536 + t / unitsPerSec % 65536 * 2 ^ 48)

/-- A SYNC stamp in units of 2^-16 ns. -/
def stampUnits (w : Word) : Nat :=
  fieldOf w 63 48 * secUnits + fieldOf w 47 16 * 65536 + fieldOf w 15 0

/-- The signed difference of two stamps, whose seconds have 16 bits (R397). -/
def stampDiff (a b : Nat) : Int :=
  let m : Int := 65536 * secUnits
  let d := ((a : Int) - b) % m
  if d < m / 2 then d else d - m

/-- The offset of the local seat from its partner (R434), in units of 2^-16 ns, from t1 to t4. -/
def syncOffset (t1 t2 t3 t4 : Nat) : Int := (stampDiff t2 t1 - stampDiff t4 t3) / 2

/-- The path delay to the partner (R434), in units of 2^-16 ns, from t1 to t4. -/
def syncDelay (t1 t2 t3 t4 : Nat) : Int := (stampDiff t2 t1 + stampDiff t4 t3) / 2

/-- The transmit and receive corrections of a fabric lane (R432), in ps. -/
def laneCorrection (rate : Nat) : Nat × Nat :=
  if rate = 0 then (5600, 8900) else if rate = 1 then (6200, 9700) else if rate = 2 then (6400, 10100)
  else (12800, 20500)

/-- The transmit and receive corrections of a time lane (R432), in ps, by its mode. -/
def ethCorrection (mode : Nat) : Nat × Nat :=
  if mode = 1 then (41600, 47400) else if mode = 2 then (19800, 24600) else (83200, 231700)

/-- Picoseconds in units of 2^-32 ns. -/
def psUnits (ps : Nat) : Nat := ps * 2 ^ 32 / 1000

end Sys2Proof.Machine
end

