-- ==== Sys2Proof/Machine/ClockOps.lean ====
section
/-! DEFINITION. Reference clocks, loops and multiplexers (R547-R559): what a loss does, what a relock does, which sources a
domain can take.  Clocks are numbered as in R559, loops 0 to 11, multiplexer domains 0 to 11. -/

namespace Sys2Proof.Machine

/-- The reference input of a loop (R548), as an index of R559. -/
def State.loopRef (s : State) (l : Nat) : Nat :=
  if l = 1 then 4 else if l = 7 then 2 else if l = 8 then 3
  else if 9 ≤ l then
    let r := s.clk.loopRef.at 0 l
    if r = 0 then 0 else if r = 1 then 4 else r
  else 0

/-- The set frequency of output `o` of loop ML9 to ML11, in Hz; 0 for off. -/
def State.outFreq (s : State) (l o : Nat) : Nat := s.clk.freq.at 0 ((l - 9) * 4 + o)

/-- Whether a loop runs: ML1 once REFCLK_AUX has been present, ML9 to ML11 with an output on, the others always (R548). -/
def State.loopOn (s : State) (l : Nat) : Bool :=
  if l = 1 then s.time.ml1 else if 9 ≤ l then (List.range 4).any fun o => s.outFreq l o != 0 else true

/-- One bit of a register field written. -/
def State.wrBit (s : State) (f : Field) (i : Nat) (v : Bool) : State := s.wr f (setBits (s.rd f) i i (b2n v))

/-- The source of events of a porch's clocks. -/
def loopSource (l : Nat) : Nat := if l = 4 ∨ l = 6 ∨ l = 8 then srcPs else srcPn

/-- The groups of a porch's fabric lanes. -/
def State.porchGroups (s : State) (p : Nat) : List Group := s.groups.filter fun g => g.first / 32 = p

/-- A time lane's link changes (R405): `LINK` follows and ETH_LINK is posted. -/
def State.ethLink (s : State) (t : Nat) (up : Bool) : State :=
  if s.rdb (Reg.ETH.STAT.LINK t) = up then s
  else
    let s := (s.wrb (Reg.ETH.STAT.LINK t) up).wrb (Reg.ETH.STAT.BLOCKLOCK t) up
    let s := s.wrb (Reg.ETH.STAT.FECLOCK t) (up && s.rd (Reg.ETH.CFG.MODE t) == 3)
    s.post 0x0706 sevInfo (if t < 2 then srcPn else srcPs) (t + b2n up * 2 ^ 8)

/-- A controller enters self-refresh (R318). -/
def State.selfRefresh (s : State) (k : Nat) : State :=
  if s.ctrl k = 2 then (s.setCtrl k 3).count (Reg.MEM.SRSTAT.ENTRIES (k / 4) (k % 4)) 1 else s

/-- A controller leaves self-refresh (R318): the exit includes the retraining of a channel that fell due (R335), which may fail
(R321), or that `train` asks for of both channels (R554, R564).  `MEM.SRSTAT` records its stall, whose length is open up to its bound. -/
def State.leaveRefresh (s : State) (k : Nat) (train : Bool) : State :=
  if s.ctrl k ≠ 3 then s
  else
    let owed := s.g6.trainOwed.filter fun c => c.1 / 2 = k
    let trains := if train then [2 * k, 2 * k + 1] else owed.map Prod.fst
    let d := s.drawWord
    let s := (d.2.setCtrl k 2).wr (Reg.MEM.SRSTAT.LASTEXIT (k / 4) (k % 4)) (d.1.toNat % if trains.isEmpty then 301 else 501)
    let s := { s with g6 := { s.g6 with
      lastTrain := trains.foldl (fun m c => m.upd 0 c s.now) s.g6.lastTrain
      trainOwed := s.g6.trainOwed.filter fun c => c.1 / 2 ≠ k } }
    (owed.filter fun c => !c.2).foldl (fun s c => s.channelDown c.1) s

/-- What the consumers of a loop do when it coasts (R554). -/
def State.coastActs (s : State) (l : Nat) : State :=
  if l < 2 then s.pathLost l
  else if l = 3 ∨ l = 4 then (List.range 4).foldl (fun s k => s.selfRefresh (4 * (l - 3) + k)) s
  else if l = 5 ∨ l = 6 then
    (s.porchGroups (l - 5)).foldl (fun s g => if s.laneUp g.first then s.groupDown g.first g.wlog 8 else s) s
  else if l = 7 ∨ l = 8 then (List.range 2).foldl (fun s t => s.ethLink (2 * (l - 7) + t) false) s
  else s

/-- What the consumers of a loop do when it relocks (R554): controllers retrain and resume, but not in NAP or PATROL, which keep them
off (R560); the links of time lanes return by ETH_LINK_CHANGE. -/
def State.relockActs (s : State) (l : Nat) : State :=
  if l = 3 ∨ l = 4 then
    if 2 ≤ s.power then s
    else (List.range 4).foldl (fun s k => (s.leaveRefresh (4 * (l - 3) + k) true).touch (8 + 4 * (l - 3) + k)) s
  else if l = 5 ∨ l = 6 then
    (s.porchGroups (l - 5)).foldl (fun s g =>
      if g.loop.isNone ∧ s.rd (Reg.LANE.STAT.CAUSE g.first) ≠ 5 then s.trainIfAwake g else s) s
  else s

/-- A loop is lost (R552, R553): it coasts. -/
def State.loopLost (s : State) (l : Nat) : State :=
  if !s.loopOn l || s.coastsTruly l then s
  else
    let s := ((s.wrBit Reg.CLK.LOSS.LOOP l true).wrBit Reg.CLK.STAT.LOCKED l false).wrBit Reg.CLK.STAT.COAST l true
    (s.post 0x0A01 sevError (loopSource l) (5 + l)).coastActs l

/-- A clock is lost (R552): a reference input with its loops, a loop whose lock detector fails, or a pin clock. -/
def State.clockLost (s : State) (c : Nat) : State :=
  if c < 5 then
    let s := ((s.wrBit Reg.CLK.LOSS.REF c true).wrBit Reg.CLK.STAT.REFOK c false).post 0x0A01 sevError srcPn c
    let s := if c = 1 then (s.wr Reg.HIF.LINK.SPEED 0).wr Reg.HIF.LINK.WIDTH 0 else s
    ((List.range 12).filter fun l => s.loopRef l = c).foldl State.loopLost s
  else if c < 17 then s.loopLost (c - 5)
  else if 29 ≤ c ∧ c < 37 then
    ((s.wrBit Reg.CLK.LOSS.GCLK (c - 29) true).wrBit Reg.CLK.STAT.GCLKOK (c - 29) false).post 0x0A01 sevError srcPn c
  else s

/-- A loop relocks (R553). -/
def State.loopBack (s : State) (l : Nat) : State :=
  if !s.coastsTruly l then s
  else
    let s := (s.wrBit Reg.CLK.STAT.LOCKED l true).wrBit Reg.CLK.STAT.COAST l (s.clk.forced.contains (5 + l))
    (s.post 0x0A02 sevInfo (loopSource l) (5 + l)).relockActs l

/-- Whether a clock is forced lost by a perturbation (R620 kind 8). -/
def State.clockForced (s : State) (c : Nat) : Bool := s.clk.forced.contains c

/-- Whether a reference input is present. -/
def State.refOk (s : State) (r : Nat) : Bool := bit (s.rd Reg.CLK.STAT.REFOK) r && !s.clockForced r

/-- Whether a loop output is on, and its loop locked. -/
def State.outOk (s : State) (l o : Nat) : Bool :=
  s.outFreq l o != 0 && bit (s.rd Reg.CLK.STAT.LOCKED) l && !s.clockForced (5 + l)

/-- Whether source `src` of multiplexer domain `d` runs, coasting or not (R555, R557). -/
def State.srcRuns (s : State) (d src : Nat) : Bool :=
  if d < 8 then
    if src = 0 then s.outFreq (9 + d / 4) (d % 4) != 0 else bit (s.rd Reg.CLK.STAT.GCLKOK) d
  else if src = 0 then s.outFreq 11 (d - 8) != 0
  else if src = 1 then bit (s.rd Reg.CLK.STAT.REFOK) 0 else bit (s.rd Reg.CLK.STAT.REFOK) 4

/-- Whether Keeper finds source `src` of a domain present and, if it is a loop output, locked (R556). -/
def State.srcReady (s : State) (d src : Nat) : Bool :=
  if d < 8 then
    if src = 0 then s.outOk (9 + d / 4) (d % 4)
    else bit (s.rd Reg.CLK.STAT.GCLKOK) d && !s.clockForced (29 + d)
  else if src = 0 then s.outOk 11 (d - 8) else if src = 1 then s.refOk 0 else s.refOk 4

/-- Whether a domain names a source that R555 lists. -/
def srcListed (d src : Nat) : Bool := if d < 8 then decide (src < 2) else decide (src < 3)

/-- A domain runs on a source: a switch or a reset completes (R556, R558); `SWITCHES` counts both (DEDUCED, assumption 126). -/
def State.domSwitched (s : State) (d src : Nat) (reset : Bool) : State :=
  let s := (s.wr (Reg.CLK.DOM.SRC d) src).count (Reg.CLK.DOM.SWITCHES d) 1
  let s := (s.wr (Reg.CLK.DOM.PENDING d) 0).wr (Reg.CLK.DOM.STUCK d) 0
  { s with clk := { s.clk with pend := s.clk.pend.filter fun p => p.1 ≠ d } }.post 0x0A04 sevInfo srcDevice
    (d + src * 16 + b2n reset * 2 ^ 8)

/-- Whether a domain reset holds a bank's clock side in reset (R558). -/
def State.bankInReset (s : State) (bank : Nat) : Bool :=
  s.clk.pend.any fun p => p.1 == s.rd (Reg.IOB.CFG.DOMAIN bank) && p.2.2.2

/-- The period in fs of the clock of a multiplexer domain, from the frequency in kHz that its counter shows; open, up to the
1 µs without an edge of R552, where the counter shows none (DESIGN CHOICE, assumption 26). -/
def State.domPeriod (s : State) (d : Nat) : Nat :=
  let khz := s.rd (Reg.CLK.FREQ.KHZ (17 + d))
  if khz = 0 then (Config.freeWord s.free).toNat % fsUs else fsMs / khz

end Sys2Proof.Machine
end

