-- ==== Sys2Proof/Machine/DebugOps.lean ====
section
/-! DEFINITION. Probe taps and their pins (R608-R612), the trace engine (R613-R618), perturbations and the boundary at
which they begin and end (R619, R620). -/

namespace Sys2Proof.Machine

/-! ### Taps -/

/-- The source that a tap selects (R608). -/
def Tap.net (t : Tap) : Net :=
  let cell := 64 * t.room + t.cell
  match t.output with
  | 0 => .lutA cell
  | 1 => .lutB cell
  | 2 => .sum cell
  | 3 => .qa cell
  | _ => .qb cell

/-- The key of a probe destination: 4096 and up for PRB0 to PRB31, else the number of a user pin. -/
def Tap.pinKey (t : Tap) : Option Nat :=
  if t.dest = 1 then some (0x1000 + t.pin) else if t.dest = 2 then some (Sys2Proof.Machine.pinKey t.bank t.pin) else none

/-- A probe drives a level on its pin. -/
def State.setProbe (s : State) (k : Nat) (v : Bool) : State :=
  { s with pins := { s.pins with probe := (k, v) :: s.pins.probe.filter (·.1 ≠ k) } }

/-- A tap follows its output at the end of a phase of its context (R609, R612). -/
def State.tapPhase (s : State) (c : Nat) (t : Tap) : State × Tap :=
  if t.ctx = c ∧ !s.isolated c t.wing then
    let v := s.settle c t.wing (s.live t.wing) t.net
    (match t.live, t.pinKey with
      | true, some k => s.setProbe k v
      | _, _ => s, { t with pend := some v })
  else (s, t)

/-- LIVE pins follow a wing's outputs (R612): at the end of each of its rounds; what settles within a round is not resolved (DESIGN
CHOICE, assumption 128). -/
def State.showLive (s : State) (c wing : Nat) : State :=
  s.dbg.taps.foldl (fun s t =>
    match t.live && t.wing == wing && t.ctx == c, t.pinKey with
    | true, some k => s.setProbe k (s.settle c wing (s.live wing) t.net)
    | _, _ => s) s

/-- Every tap at the end of a phase of context `c`. -/
def State.captureTaps (s : State) (c : Nat) : State :=
  s.dbg.taps.foldl (fun s t =>
    let r := s.tapPhase c t
    { r.1 with dbg := { r.1.dbg with taps := r.1.dbg.taps.map fun x =>
        if x.wing = t.wing ∧ x.tap = t.tap then r.2 else x } }) s

/-- The step's COMMIT: taps take their values, and COMMITTED pins show them (R609, R612). -/
def State.commitTaps (s : State) : State :=
  let taps := s.dbg.taps.map fun t => { t with value := t.pend.getD t.value, pend := none }
  let s := { s with dbg := { s.dbg with taps := taps } }
  taps.foldl (fun s t =>
    match t.live, t.pinKey with
    | false, some k => s.setProbe k t.value
    | _, _ => s) s

/-- An abandoned step leaves the taps as they were (R609). -/
def State.dropTaps (s : State) : State :=
  { s with dbg := { s.dbg with taps := s.dbg.taps.map fun t => { t with pend := none } } }

/-- The committed value of a wing's tap; 0 where it is not selected. -/
def State.tapValue (s : State) (wing tap : Nat) : Bool :=
  (s.dbg.taps.find? fun t => t.wing = wing ∧ t.tap = tap).any fun t => t.value

/-- The 64 taps of a wing as a word (R614). -/
def State.tapWord (s : State) (wing : Nat) : Word :=
  toWord (((s.dbg.taps.filter fun t => t.wing = wing ∧ t.value).map fun t => 2 ^ t.tap).sum)

/-! ### Trace -/

/-- Trace state IDLE (R617). -/
def trIdle : Nat := 0
/-- Trace state ARMED (R617). -/
def trArmed : Nat := 1
/-- Trace state TRIGGERED (R617). -/
def trTriggered : Nat := 2
/-- Trace state DONE (R617). -/
def trDone : Nat := 3

/-- Whether the trace records in GDDR6 mode. -/
def State.traceG6 (s : State) : Bool := s.rdb Reg.DBG.TRSTAT.MODE

/-- The records a trace can hold (R614, R615). -/
def State.traceCap (s : State) (t : Trace) : Nat :=
  if s.traceG6 then t.size / 64 else (t.blast + 1 - t.bfirst) * 3584

/-- `DBG.TRPOS` follows the trace (R625). -/
def State.traceSync (s : State) (t : Trace) : State :=
  let lost := t.count - t.recs.length
  let idx := match t.trigAt with
    | some k => if lost ≤ k then k - lost else 0xFFFFFFFF
    | none => 0xFFFFFFFF
  let s := { s with dbg := { s.dbg with trace := some t } }
  (s.wr Reg.DBG.TRPOS.HELD t.recs.length).wr Reg.DBG.TRPOS.TRIGIDX idx

/-- The BU that an armed or triggered trace holds (R623). -/
def traceBu (g6 : Bool) (wings : Nat) : Nat := 3 + if g6 then 0 else ceilDiv wings 8

/-- A trace enters DONE (R617): its grant returns and TRACE_DONE is posted. -/
def State.traceDone (s : State) : State :=
  match s.dbg.trace with
  | none => s
  | some t =>
    let st := s.rd Reg.DBG.TRSTAT.STATE
    if st = trArmed ∨ st = trTriggered then
      let s := s.ungrant 0x13 (traceBu s.traceG6 t.wings.length)
      (s.wr Reg.DBG.TRSTAT.STATE trDone).post 0x0D02 sevInfo srcDevice t.recs.length
    else s

/-- Whether a full buffer holds the next LAUNCH (R616). -/
def State.traceStalls (s : State) : Bool :=
  match s.dbg.trace with
  | some t =>
    let st := s.rd Reg.DBG.TRSTAT.STATE
    s.traceG6 && s.rd Reg.DBG.TRSTAT.POLICY == 0 && (st == trArmed || st == trTriggered) && decide (4096 ≤ t.buffered)
  | none => false

/-- Whether a record of step `n` meets the trigger (R618); a cue that has come to its match at this instant has matched (R621). -/
def State.traceTriggers (s : State) (t : Trace) (n : Nat) : Bool :=
  match t.trigsel with
  | 0 => true
  | 1 => t.cueHit || s.cueDue t.cue
  | 2 => n == t.tstep
  | _ => s.tapValue (t.trigTap / 64) (t.trigTap % 64) == t.tval

/-- Where an ATTIC-mode trace keeps its record `n`: block, line and slot (R614). -/
def State.tracePlace (s : State) (t : Trace) (n : Nat) : Nat × Nat × Nat :=
  let m := n % s.traceCap t
  (t.bfirst + m / 3584, m % 3584 / 7, m % 7 + 1)

/-- An ATTIC-mode record written: the tap word of each wing and the stamp of its line (R614). -/
def State.traceAttic (s : State) (t : Trace) (n : Nat) (trig : Bool) : State :=
  let (block, line, slot) := s.tracePlace t t.count
  let write := fun (a : Attic) (w : Nat) =>
    let old := (a.word w block (8 * line)).data.toNat
    let first := if slot = 1 then n % 2 ^ 48 else bits old 47 0
    let mark := if trig then slot else if slot = 1 then 0 else bits old 50 48
    (a.write w block (8 * line + slot) (s.tapWord w)).write w block (8 * line) (toWord (first + mark * 2 ^ 48))
  { s with attic := t.wings.foldl write s.attic }

/-- A GDDR6-mode record sent to the TRACE region as one line (R615, R616). -/
def State.traceSend (s : State) (t : Trace) (n : Nat) (trig gap : Bool) (taps : List Word) : State :=
  let w0 := toWord (n % 2 ^ 48 + b2n trig * 2 ^ 56 + b2n gap * 2 ^ 57)
  let addr := t.base + t.count % s.traceCap t * 64
  s.issue (requestPacket iniTrace true addr 8 255 255 (w0 :: taps ++ List.replicate (7 - taps.length) 0)) .trace

/-- The record of step `n` at its COMMIT (R613-R618). -/
def State.traceRecord (s : State) (n : Nat) : State :=
  match s.dbg.trace with
  | none => s
  | some t =>
    let st := s.rd Reg.DBG.TRSTAT.STATE
    if st ≠ trArmed ∧ st ≠ trTriggered then s
    else if s.traceG6 && t.qual && !s.tapValue (t.qualTap / 64) (t.qualTap % 64) then s
    else if s.traceG6 && decide (4096 ≤ t.buffered) then
      ({ s with dbg := { s.dbg with trace := some { t with gap := true } } }.count Reg.DBG.TRCNT.DROPPED 1).postLimited
        0x0D03 0 sevWarn srcDevice 0
    else
      let trig := st = trArmed && s.traceTriggers t n
      let taps := t.wings.map s.tapWord
      let rec_ : TraceRec := { step := n, taps := taps, gap := t.gap }
      let recs := t.recs ++ [rec_]
      let post := if trig then t.post else t.postLeft.getD 0
      let endless := t.post = 0xFFFFFFFF
      let t' := { t with
        recs := recs.drop (recs.length - s.traceCap t)
        count := t.count + 1
        gap := false
        trigAt := if trig then some t.count else t.trigAt
        buffered := if s.traceG6 then t.buffered + 1 else t.buffered
        postLeft := if trig then some t.post else if st = trTriggered ∧ !endless then some (post - 1) else t.postLeft }
      let s := s.traceSync t'
      let s := if s.traceG6 then s.traceSend t n trig t.gap taps else s.traceAttic t n trig
      let s := if trig then
          (s.wr Reg.DBG.TRSTAT.STATE trTriggered).post 0x0D01 sevInfo srcDevice (n % 2 ^ 48)
        else s
      if endless then s
      else if (trig && t.post == 0) || (st == trTriggered && post ≤ 1) then s.traceDone else s

/-! ### Perturbations -/

/-- A perturbation's slot in the PERT registers (R625). -/
def State.pertShow (s : State) (p : Pert) : State :=
  let s := s.wr (Reg.PERT.SLOT.KIND p.slot) p.kind
  let s := s.wr (Reg.PERT.SLOT.LEFT p.slot) (if p.kind = 4 then bits p.w1.toNat 15 0 else 0)
  (s.wr (Reg.PERT.SLOT.TARGET p.slot) (bits p.w1.toNat 31 0)).wrBit Reg.PERT.STAT.ACTIVE p.slot true

/-- A perturbation's slot becomes free, with PERTURB_SET (R624). -/
def State.pertFree (s : State) (p : Pert) : State :=
  let s := { s with dbg := { s.dbg with perts := s.dbg.perts.filter fun q => q.slot ≠ p.slot } }
  let s := (s.store (Reg.PERT.SLOT.KIND p.slot).addr 0).wrBit Reg.PERT.STAT.ACTIVE p.slot false
  s.post 0x0D05 sevWarn srcDevice (p.slot + p.kind * 2 ^ 8 + 2 ^ 16)

/-- Code positions of an injection: up to three of 8 bits, of which one above 71 names none (assumption 23). -/
def injectPositions (w : Word) : List Nat :=
  [fieldOf w 7 0, fieldOf w 15 8, fieldOf w 23 16].filter fun p => p < 72

/-- A clock is shown as lost (R620 kind 8). -/
def State.forceClock (s : State) (c : Nat) : State :=
  if s.clk.forced.contains c then s
  else
    let s := { s with clk := { s.clk with forced := c :: s.clk.forced } }
    let s := if c < 5 then s.wrBit Reg.CLK.LOSS.REF c true
      else if c < 17 then (s.wrBit Reg.CLK.LOSS.LOOP (c - 5) true).wrBit Reg.CLK.STAT.COAST (c - 5) true
      else if 29 ≤ c ∧ c < 37 then s.wrBit Reg.CLK.LOSS.GCLK (c - 29) true else s
    let s := s.post 0x0A01 sevError srcPn c
    if c = 0 ∨ c = 5 then s.pathLost 0 else if c = 4 ∨ c = 6 then s.pathLost 1 else s

/-- A clock is no longer shown as lost. -/
def State.unforceClock (s : State) (c : Nat) : State :=
  if !s.clk.forced.contains c then s
  else
    let s := { s with clk := { s.clk with forced := s.clk.forced.filter (· ≠ c) } }
    let s := if 5 ≤ c ∧ c < 17 ∧ bit (s.rd Reg.CLK.STAT.LOCKED) (c - 5) then s.wrBit Reg.CLK.STAT.COAST (c - 5) false
      else s
    s.post 0x0A02 sevInfo srcPn c

/-- A perturbation begins to act at a step boundary (R620). -/
def State.pertBegin (s : State) (p : Pert) : State :=
  if p.kind = 5 then
    let h := bits p.w3.toNat 1 0
    s.markFailing (bits p.w1.toNat 4 0) (bits p.w2.toNat 5 0)
      (if h = 0 then some false else if h = 1 then some true else none)
  else if p.kind = 6 then
    let wing := 64 * bits p.w1.toNat 2 0 + bits p.w1.toNat 13 8
    let w : MaintWrite := { wing := wing, block := bits p.w1.toNat 20 16, word := bits p.w2.toNat 11 0, data := 0,
                            inv := injectPositions p.w3, scrub := false, clear := false, crc := false }
    (s.maintWrite w).pertFree p
  else if p.kind = 7 then
    (s.disturb [(p.w1.toNat / 8, injectPositions p.w2)]).pertFree p
  else if p.kind = 8 then s.forceClock (bits p.w1.toNat 7 0)
  else s

/-- A perturbation ends (R620). -/
def State.pertEnd (s : State) (p : Pert) : State :=
  let s := if p.kind = 8 && p.acts then s.unforceClock (bits p.w1.toNat 7 0) else s
  s.pertFree p

/-- A step boundary: perturbations that were set begin to act, those that end are removed (R619, R620). -/
def State.pertBoundary (s : State) : State :=
  s.dbg.perts.foldl (fun s p =>
    if p.ending then s.pertEnd p
    else if p.acts then s
    else
      let on := fun (q : Pert) => if q.slot = p.slot then { q with acts := true } else q
      let s := { s with dbg := { s.dbg with perts := s.dbg.perts.map on } }
      s.pertBegin p) s

/-- The stretch of a wing's rounds, in SU (R620 kind 1). -/
def State.stretch (s : State) (wing : Nat) : Nat :=
  ((s.dbg.perts.filter fun p => p.acts && p.kind == 1 && bits p.w1.toNat 2 0 == wing / 64 &&
    bit p.w2.toNat (wing % 64)).map fun p => bits p.w3.toNat 5 0).sum

/-- The forced overrun in force: its slot and its excess in 0.125 ns (R620 kind 4). -/
def State.forcedExcess (s : State) : Nat :=
  match s.dbg.perts.find? fun p => p.acts && p.kind == 4 && !p.ending with
  | some p => bits p.w2.toNat 15 0
  | none => 0

/-- A step of a forced overrun has committed (R620 kind 4). -/
def State.spendOverrun (s : State) : State :=
  match s.dbg.perts.find? fun p => p.acts && p.kind == 4 && !p.ending with
  | none => s
  | some p =>
    let n := bits p.w1.toNat 15 0 - 1
    if n = 0 then s.pertFree p
    else
      let p' := { p with w1 := toWord (setBits p.w1.toNat 15 0 n) }
      let upd := fun (q : Pert) => if q.slot = p.slot then p' else q
      { s with dbg := { s.dbg with perts := s.dbg.perts.map upd } }.wr (Reg.PERT.SLOT.LEFT p.slot) n

/-- The extra wait of a token on a direction (R620 kind 2): 2.0 ns with an open chance. -/
def State.backPressure (s : State) (dir : Nat) : Nat × State :=
  if s.dbg.perts.any fun p => p.acts && p.kind == 2 && bits p.w1.toNat 4 0 == dir then
    let d := s.drawBit
    (if d.1 then 2 * fsNs else 0, d.2)
  else (0, s)

end Sys2Proof.Machine
end

