-- ==== Sys2Proof/Machine/G6Access.lean ====
section
/-! DEFINITION. How a GDDR6 controller performs an access (R314-R327, R334, R338, R362-R367): the queue and its real-time ports
(R329, R330), the lines of a request, an access from its arrival at the controller to its end, and the accesses of the device's own
engines. -/

namespace Sys2Proof.Machine

/-! ### The queue -/

/-- Queued requests of a controller, oldest first. -/
def State.g6Queue (s : State) (k : Nat) : List Packet :=
  (s.noc.targets.filter fun x => x.1 = 0x20 + k).map Prod.snd

/-- The 64-byte units that a request holds (R329). -/
def Packet.units (p : Packet) : Nat := (p.addr % 64 + 8 * (p.len + 1) + 63) / 64

/-- A controller's real-time ports follow its queue: levels, and entry to and exit from panic (R329, R330). -/
def State.rtSync (s : State) (k : Nat) : State :=
  (s.g6.rt.filter fun r => r.ctrl = k).foldl (fun s r =>
    let p := k / 4
    let i := k % 4
    let level := ((s.g6Queue k).filter fun q => r.inits.contains q.init).map Packet.units |>.sum
    let was := s.rdb (Reg.MEM.RT.PANIC p i r.port)
    let s := s.wr (Reg.MEM.RT.LEVEL p i r.port) (min level 1023)
    if !s.rdb (Reg.MEM.RT.ENABLE p i r.port) then s.wr (Reg.MEM.RT.PANIC p i r.port) 0
    else if !was && decide (s.rd (Reg.MEM.RT.HI p i r.port) ≤ level) then
      ((s.wr (Reg.MEM.RT.PANIC p i r.port) 1).count (Reg.MEM.RT.PANICCNT p i r.port) 1).postLimited 0x0507 k sevInfo
        (srcPn + p) (k + r.port * 16)
    else if was && decide (level ≤ s.rd (Reg.MEM.RT.LO p i r.port)) then s.wr (Reg.MEM.RT.PANIC p i r.port) 0
    else s) s

/-- Whether two requests touch a common 64-byte line (R315). -/
def sameLine (a b : Packet) : Bool :=
  rangesMeet (a.addr / 64) a.units (b.addr / 64) b.units

/-- The queued request that a controller serves next (R315, R330): the first of a port in panic, the ports in turn, where
it overtakes no request to a line of its own; else the oldest. -/
def State.g6Next (s : State) (k : Nat) : Option (Packet × Option Nat) :=
  let q := s.g6Queue k
  let last := s.g6.rtTurn.at 3 k
  let order := (List.range 4).map fun j => (last + 1 + j) % 4
  let pick := order.findSome? fun j =>
    match s.g6.rt.find? fun r => r.ctrl = k ∧ r.port = j with
    | some r =>
      if s.rdb (Reg.MEM.RT.PANIC (k / 4) (k % 4) j) then
        (q.zipIdx.find? fun x => r.inits.contains x.1.init && !(q.take x.2).any (sameLine x.1)).map fun x => (x.1, some j)
      else none
    | none => none
  match pick with
  | some x => some x
  | none => q.head?.map fun p => (p, none)

/-! ### The words of a request -/

/-- The words of a request with their byte enables (R272; LASTBE is ignored when LEN is 0): index within the request, enables, data. -/
def Packet.enables (p : Packet) : List (Nat × Nat × Word) :=
  (List.range (p.len + 1)).map fun i =>
    (i, if i = 0 then p.firstbe else if i = p.len then p.lastbe else 255, p.data.getD i 0)

/-- The words of a request by key, with byte enables and data. -/
def Packet.keyed (p : Packet) : List (Nat × Nat × Word) := p.enables.map fun w => (p.addr / 8 + w.1, w.2)

/-- The lines that a request touches, each with the words of it that the request covers, by index in the line. -/
def Packet.lines (p : Packet) : List (Nat × List (Nat × Nat × Word)) :=
  (List.range p.units).map fun j =>
    let a := (p.addr / 64 + j) * 64
    (a, (p.keyed.filter fun w => w.1 / 8 = a / 64).map fun w => (w.1 % 8, w.2))

/-- 64-byte units counted in `RDLINES` or `WRLINES` of a channel (R338): those that were read, or that a write has changed. -/
def State.countUnits (s : State) (ch : Nat) (write : Bool) (n : Nat) : State :=
  s.count ((if write then Reg.MEM.WRLINES.COUNT else Reg.MEM.RDLINES.COUNT) (ch / 8) (ch / 2 % 4) (ch % 2)) n

/-- An access after one more of its lines: the data of the words asked for; the first failure stands (R367). -/
def AccessEnd.join (acc e : AccessEnd) (ws : List Word) : AccessEnd :=
  if e.status ≠ hsOk ∧ acc.status = hsOk then { data := acc.data ++ ws, status := e.status, err := e.err }
  else { acc with data := acc.data ++ ws }

/-- One line of a request to a protected unit served (R358, R359). -/
def State.serveLine (s : State) (p : Packet) (rootBad : Bool) (acc : AccessEnd) (l : Nat × List (Nat × Nat × Word)) :
    State × AccessEnd :=
  let ch := s.g6Chan p.addr
  if p.type = 2 then
    let ws := l.2.filter fun w => w.2.1 ≠ 0
    if ws.isEmpty then (s, acc)
    else
      let r := s.sealLine p.init l.1 ws rootBad
      (if r.2.status = hsOk then r.1.countUnits ch true 1 else r.1, acc.join r.2 [])
  else
    let r := s.openLine p.init l.1 false rootBad
    (if s.lineKept l.1 then r.1 else r.1.countUnits ch false 1, acc.join r.2 (l.2.map fun w => r.2.data.getD w.1 0))

/-- The words of a request served: a unit that a SET or REINIT initialises refuses (R367), protected units are served line by line,
others by words. -/
def State.serveWords (s : State) (p : Packet) (rootBad : Bool) : State × AccessEnd :=
  let u := p.addr / 0x40000000
  let ch := s.g6Chan p.addr
  let write := p.type == 2
  if s.crypt.refuse.contains u then
    (s, { data := if write then [] else p.enables.map fun _ => 0, status := hsRefused, err := 0 })
  else if s.unitMode u = 1 ∨ s.unitMode u = 2 then
    p.lines.foldl (fun (acc : State × AccessEnd) l => acc.1.serveLine p rootBad acc.2 l) (s, .good [])
  else if write then
    let r := s.writePlain p.init p.keyed
    (if r.2.status = hsOk then r.1.countUnits ch true p.units else r.1, r.2)
  else
    let r := s.readPlain p.init (p.keyed.map Prod.fst)
    (r.1.countUnits ch false p.units, r.2)

/-! ### An access -/

/-- How a controller answers an access: its status, ERRIDX and data; `plain` says that an error response carries it for a read too. -/
structure G6End where
  status : Nat
  err : Nat
  data : List Word
  plain : Bool
  deriving DecidableEq, Repr

/-- An access that ends without data. -/
def G6End.refusal (status : Nat) : G6End := { status := status, err := 0, data := [], plain := false }

/-- An access that ends under R326 with kind LINK. -/
def State.linkFails (s : State) (p : Packet) : State × G6End :=
  let ch := s.g6Chan p.addr
  ((s.count (errF Reg.MEM.ERRCNT.UE ch) 1).g6Log 1 ch p.init (p.addr / 8 * 8) (p.type == 2),
    { G6End.refusal hsData with plain := true })

/-- An access to a channel that is down: REFUSED, logged once for the channel (R321, R326). -/
def State.downRefused (s : State) (p : Packet) : State × G6End :=
  let ch := s.g6Chan p.addr
  let s := if s.g6.downLogged.contains ch then s
    else { s with g6 := { s.g6 with downLogged := ch :: s.g6.downLogged } }.g6Log 2 ch p.init (p.addr / 8 * 8) (p.type == 2)
  (s, .refusal hsRefused)

/-- The words of a request served over a link that carries them; ERRIDX is the place in the request of the first failing word, or of
the first word of it where that lies before it (R325, R362). -/
def State.g6Serve (s : State) (p : Packet) (rootBad : Bool) : State × G6End :=
  let r := s.serveWords p rootBad
  (r.1, { status := r.2.status, err := r.2.err - p.addr / 8, data := if p.type = 2 then [] else r.2.data, plain := false })

/-- An access over the link to the devices (R322): up to three reissues; after three that fail a retraining and one more try. -/
def State.g6Linked (s : State) (p : Packet) (link : LinkEnd) (rootBad : Bool) : State × G6End :=
  let ch := s.g6Chan p.addr
  let edc := errF Reg.MEM.ERRCNT.EDCRETRY ch
  let s := { s with g6 := { s.g6 with lastAccess := s.g6.lastAccess.upd 0 ch s.now } }
  let retrained := fun (s : State) => { s with g6 := { s.g6 with lastTrain := s.g6.lastTrain.upd 0 ch s.now } }
  match link with
  | .clean n => (s.count edc (min n 3)).g6Serve p rootBad
  | .recovered => (retrained (s.count edc 3)).g6Serve p rootBad
  | .linkError true => (retrained (s.count edc 3)).linkFails p
  | .linkError false => ((s.count edc 3).channelDown ch).linkFails p

/-- A controller performs an access: TARGET_RESET while it is uninitialised or trains (R319), unless a full G6_INIT waits for the access
(`older`, R335), while its loop coasts (R554), or in NAP and PATROL, which switch it off (R560, R566; DEDUCED, assumption 122); REFUSED past the end of a block (R314), for a channel that is down, and where the
region table forbids it (R334); else after an exit from self-refresh (R318). -/
def State.g6Perform (s : State) (p : Packet) (older : Bool) (link : LinkEnd) (rootBad : Bool) : State × G6End :=
  let ch := s.g6Chan p.addr
  let k := ch / 2
  if s.ctrl k < 2 ∧ !older then (s, .refusal hsReset)
  else if 512 < p.addr % 512 + 8 * (p.len + 1) then (s, .refusal hsRefused)
  else if s.ctrl k = 3 ∧ (s.coasts (3 + k / 4) ∨ 2 ≤ s.power) then (s, .refusal hsReset)
  else
    let s := s.leaveRefresh k false
    if s.chanDown ch then s.downRefused p
    else if !s.regionAllows p.init p.addr (8 * (p.len + 1)) (p.type == 2) then (s, .refusal hsRefused)
    else s.g6Linked p link rootBad

/-! ### The device's own engines -/

/-- The bin of a latency in ns (R301). -/
def latencyBin (ns : Nat) : Nat := ((List.range 7).find? fun b => ns < 128 * 2 ^ b).getD 7

/-- A transaction completed with a response is counted (R300, R301): its words, and how long it took. -/
def State.countDone (s : State) (i words took status : Nat) : State :=
  let lat := took / fsNs
  let moved := if status = hsOk ∨ status = hsData then 8 * words else 0
  let s := (s.count (Reg.NOC.INI.TXN.COUNT i) 1).count (Reg.NOC.INI.BYTES.COUNT i) moved
  let s := s.raise (Reg.NOC.INI.LAT.MAXLAT i) lat
  let k := 8 * i + latencyBin lat
  { s with noc := { s.noc with hist := s.noc.hist.upd 0 k (satAdd 32 (s.noc.hist.at 0 k) 1) } }

/-- An access of one of the device's own engines to the words from an address on, within one block: the model lets it take no time
(DESIGN CHOICE, assumption 111).  The link is clean unless `link` says otherwise. -/
def State.g6Direct (s : State) (init addr words firstbe : Nat) (write : Bool) (data : List Word) (link : LinkEnd) : State × G6End :=
  let p := requestPacket init write addr words firstbe 255 data
  if s.g6Cap < addr + 8 * words then (s, .refusal hsDecode)
  else
    let r := s.g6Perform p false link false
    (r.1.countDone init words 0 r.2.status, r.2)

/-- Words that an engine reads from GDDR6, a block at most at a time; `none` where an access fails. -/
def State.g6Load (init : Nat) (link : LinkEnd) : Nat → State → Nat → Nat → State × Option (List Word)
  | 0, s, _, _ => (s, some [])
  | fuel + 1, s, addr, words =>
    if words = 0 then (s, some [])
    else
      let n := min words (64 - addr / 8 % 64)
      let r := s.g6Direct init addr n 255 false [] link
      if r.2.status ≠ hsOk then (r.1, none)
      else
        let rest := State.g6Load init link fuel r.1 (addr + 8 * n) (words - n)
        (rest.1, rest.2.map (r.2.data ++ ·))

/-- Words that an engine writes to GDDR6, a block at most at a time; whether every access ended well. -/
def State.g6Store (init : Nat) : Nat → State → Nat → List Word → State × Bool
  | 0, s, _, _ => (s, true)
  | fuel + 1, s, addr, ws =>
    match ws with
    | [] => (s, true)
    | _ =>
      let n := 64 - addr / 8 % 64
      let r := s.g6Direct init addr (min n ws.length) 255 true (ws.take n) (.clean 0)
      let rest := State.g6Store init fuel r.1 (addr + 8 * min n ws.length) (ws.drop n)
      (rest.1, rest.2 && r.2.status == hsOk)

end Sys2Proof.Machine
end

