-- ==== Sys2Proof/Machine/Operands.lean ====
section
/-! DEFINITION. How a command reaches its meaning: payload fields, the length and reserved-bit checks, the path it comes
by, and the refusals that every command shares, in the order of R495. -/

namespace Sys2Proof.Machine

/-! ### Payload fields -/

/-- Payload word `i` of a command; 0 where the payload is shorter. -/
def Cmd.w (c : Cmd) (i : Nat) : Nat := (c.payload.getD i 0).toNat

/-- Bits `[hi:lo]` of payload word `i`. -/
def Cmd.f (c : Cmd) (i hi lo : Nat) : Nat := bits (c.w i) hi lo

/-- Bit `k` of payload word `i`. -/
def Cmd.b (c : Cmd) (i k : Nat) : Bool := bit (c.w i) k

/-- Whether a word sets a bit outside the fields given: a reserved bit (R482, R494, assumption 20). -/
def badBits (w : Nat) (used : List (Nat × Nat)) : Bool :=
  w != (used.map fun f => bits w f.1 f.2 * 2 ^ f.2).sum

/-- Whether some payload word sets a bit outside the fields given for it. -/
def Cmd.reserved (c : Cmd) (words : List (List (Nat × Nat))) : Bool :=
  words.zipIdx.any fun x => badBits (c.w x.2) x.1

/-- A command of R492: its opcode, the payload lengths it defines, whether it is accepted on the service port only,
whether the ROM minimal image serves it (R493), and its meaning once the shared refusals are passed. -/
structure Command where
  op : Nat
  len : List Word → Bool
  svcOnly : Bool
  inRom : Bool
  body : Cmd → State → State

/-- A payload of exactly `n` words. -/
def exactly (n : Nat) (ws : List Word) : Bool := ws.length == n

/-- An ordinary command: on every path, not served by the ROM image. -/
def command (op : Nat) (len : List Word → Bool) (body : Cmd → State → State) : Command :=
  { op := op, len := len, svcOnly := false, inRom := false, body := body }

/-! ### Admission -/

/-- The refusals that every command shares, in the order of R495: LENGTH_ERROR, a stale EPOCH, SERVICE_PORT_ONLY, the ROM
image; then the command's own. -/
def State.judged (s : State) (k : Command) (c : Cmd) : State :=
  if c.fail = some stLength then s.answer c stLength 0 []
  else if c.fail = some stAborted then s.answer c stAborted 0 []
  else if !k.len c.payload then s.answer c stLength 0 []
  else if c.fail = some stState then s.answer c stState 0 []
  else if k.svcOnly && c.path != .service then s.answer c stServiceOnly 0 []
  else if !k.inRom && !s.rdb Reg.DEV.BOOT.IMAGE then s.answer c stState 1 []
  else k.body c s

/-- A command takes its identity and starts (R485). -/
def State.begin (s : State) (k : Command) (c : Cmd) : State :=
  let c := { c with id := s.hif.nextId }
  { s with hif := { s.hif with nextId := s.hif.nextId + 1, running := s.hif.running ++ [c] } }.judged k c

/-- Whether a reply buffer breaks R484: its address is 8-byte aligned, its capacity 1 to 1,048,575 words. -/
def badRbuf : Option (Nat × Nat) → Bool
  | none => false
  | some b => decide (b.1 % 8 ≠ 0) || decide (b.2 = 0) || decide (2 ^ 20 ≤ b.2)

/-- A command packet as it comes by its path. -/
def packetOf (s : State) (op : Nat) (h : CmdHdr) (ws : List Word) : Cmd :=
  { id := 0, gen := s.hif.gen, path := h.path, opcode := op, seq := h.seq, epoch := h.epoch, fence := h.fence,
    rbuf := h.rbuf, payload := ws,
    fail := if h.path = .ring ∧ h.epoch ≠ s.rd Reg.HIF.QSTAT.EPOCH then some stState
      else if badRbuf h.rbuf then some stBadParam else none }

/-- Whether Keeper runs no image: from DEV_RST_N or a warm reset until KEEPER_BOOT, and while it restarts into new firmware
(R586, R639). -/
def State.keeperDown (s : State) : Bool := s.fw.romAt.isSome || s.fw.restart.any fun t => decide (t ≤ s.now)

/-- Whether the ring lets Keeper fetch (R483, R485, R487): served, not stalled, fewer than 64 commands in progress, Keeper
running. -/
def State.mayFetch (s : State) : Bool :=
  s.rdb Reg.HIF.QCTRL.ENABLE && !s.rdb Reg.HIF.QSTAT.STALLED && !s.hif.perst && !s.keeperDown &&
    decide (s.inProgress < 64)

/-- Whether a command that arrives now waits for earlier ones of the ring (R485): FENCE waits for every reply of the ring. -/
def State.waitsInRing (s : State) (fence : Bool) : Bool :=
  (s.hif.fetched.any fun c => c.path == .ring) || (fence && ((s.hif.running.any fun c => c.path == .ring) ||
    s.hif.replies.any fun r => r.path == .ring))

/-- A command waits until it may start (R485). -/
def State.holdCmd (s : State) (c : Cmd) : State := { s with hif := { s.hif with fetched := s.hif.fetched ++ [c] } }

/-- A command of the table arrives by its path.  On the ring it starts in ring order; through the mailbox it is taken
unless the mailbox is busy (R491); through the service port unless four replies wait (R628).  While Keeper runs no image,
the command waits for it. -/
def State.issueCmd (s : State) (k : Command) (h : CmdHdr) (ws : List Word) : State :=
  let c := packetOf s k.op h ws
  match h.path with
  | .ring =>
    if !s.mayFetch then s
    else if s.waitsInRing h.fence then s.holdCmd c
    else s.begin k c
  | .mailbox =>
    if s.hif.perst then s
    else if s.rdb Reg.HIF.MBOXCTL.BUSY then s.wr Reg.HIF.ERR.SETUP 1
    else if s.keeperDown then (s.wr Reg.HIF.MBOXCTL.BUSY 1).holdCmd c
    else (s.wr Reg.HIF.MBOXCTL.BUSY 1).begin k c
  | .service =>
    if 4 ≤ s.hif.svcReplies.length then s.wr Reg.FWU.STAT.SVCOVF 1
    else if s.keeperDown then s.holdCmd c
    else s.begin k c

/-! ### Packets -/

/-- A reply buffer or a payload descriptor breaks R484: its address is 8-byte aligned, its words 1 to 1,048,575. -/
def badDesc (addr words : Word) : Bool :=
  addr.toNat % 8 != 0 || bits words.toNat 19 0 == 0 || badBits words.toNat [(19, 0)]

/-- A packet of two header words and its inline payload as a command (R482-R484, R487); `desc` is what a read of the words
that DESC names returns. -/
def State.parse (s : State) (path : Path) (w0 w1 : Word) (inline : List Word) (desc : HostRead) : Cmd :=
  let w := fun (i : Nat) => inline.getD i 0
  let n := inline.length
  let hasDesc := flagOf w0 40
  let hasBuf := flagOf w0 41
  let k := if hasBuf then 2 else 0
  let short := decide (n < k) || (hasDesc && n != k + 2)
  let badD := hasDesc && badDesc (w k) (w (k + 1))
  let count := bits (w (k + 1)).toNat 19 0
  let got := match desc with
    | .words ds => (List.range count).map fun i => ds.getD i 0
    | .failed => List.replicate count 0
  let payload := if !hasDesc then inline.drop k else if badD then List.replicate count 0 else got
  { id := 0, gen := s.hif.gen, path := path, opcode := fieldOf w0 15 0, seq := fieldOf w0 31 16, epoch := fieldOf w0 39 32,
    fence := flagOf w0 42, rbuf := if hasBuf && !short then some ((w 0).toNat, bits (w 1).toNat 19 0) else none,
    payload := payload
    fail := if short then some stLength
      else if path = .ring ∧ fieldOf w0 39 32 ≠ s.rd Reg.HIF.QSTAT.EPOCH then some stState
      else if badBits w0.toNat [(42, 0)] || badBits w1.toNat [(19, 0)] || (hasBuf && badDesc (w 0) (w 1)) || badD then
        some stBadParam
      else if hasDesc ∧ desc = .failed then some stAborted
      else none }

/-- A packet's header alone, as the command of a LENGTH_ERROR reply (R483). -/
def State.headerOnly (s : State) (path : Path) (w0 : Word) : Cmd :=
  { id := 0, gen := s.hif.gen, path := path, opcode := fieldOf w0 15 0, seq := fieldOf w0 31 16, epoch := fieldOf w0 39 32,
    fence := false, rbuf := none, payload := [], fail := some stLength }

/-! ### The mailbox -/

/-- The packet in `HIF.MBOXW0` to `HIF.MBOXW7` (R491). -/
def State.mailboxCmd (s : State) (desc : HostRead) : Cmd :=
  let word := fun (i : Nat) => s.readReg (Reg.HIF.MBOXW.WORD i).addr
  let n := fieldOf (word 1) 19 0
  if 6 < n then s.headerOnly .mailbox (word 0)
  else s.parse .mailbox (word 0) (word 1) ((List.range n).map fun i => word (2 + i)) desc

/-- A 1 written to `HIF.MBOXCTL.GO` (R491); `take` is what Keeper does with the packet. -/
def State.mboxGo (s : State) (desc : HostRead) (take : State → Cmd → State) : State :=
  if s.rdb Reg.HIF.MBOXCTL.BUSY then s.wr Reg.HIF.ERR.SETUP 1
  else take (s.wr Reg.HIF.MBOXCTL.BUSY 1) (s.mailboxCmd desc)

/-- A GO that comes as a register write (R13, R491): the command waits for COMMAND_START, and what host memory returns for
the words that a descriptor names is free (assumption 27). -/
def State.writeGo (s : State) : State :=
  let n := 2 ^ 20
  let s' := s.mboxGo (.words ((List.range n).map fun i => Config.freeWord (s.free + i))) State.holdCmd
  { s' with free := s.free + n }

end Sys2Proof.Machine
end

