-- ==== Sys2Proof/Machine/CfgOps.lean ====
section
/-! DEFINITION. Containers (R507-R523): reading a stream, the checks of its header, key table, sections and trailer, what
its sections say about a context, and partial reconfiguration jobs at a step boundary (R532-R535). -/

namespace Sys2Proof.Machine

/-! ### Reasons -/

/-- The status that goes with a failure reason (R528). -/
def reasonStatus (r : Nat) : Nat :=
  if r = 3 then stWrongDevice
  else if r = 4 ∨ r = 5 ∨ r = 7 ∨ r = 14 then stAuth
  else if 9 ≤ r ∧ r ≤ 12 then stTruncated
  else if r = 16 ∨ r = 17 then stAborted
  else if r = 19 then stTaken
  else stBadParam

/-! ### The header -/

/-- A little-endian field of a byte string. -/
def byteField (bs : List Byte) (o n : Nat) : Nat := leNat (slice bs o n)

/-- LENGTH of a container (R509). -/
def Stream.length (x : Stream) : Nat := byteField x.bytes 16 8

/-- SECTIONS of a container (R509). -/
def Stream.sections (x : Stream) : Nat := byteField x.bytes 24 4

/-- KEYS of a container (R509). -/
def Stream.keys (x : Stream) : Nat := byteField x.bytes 28 2

/-- Whether a container is signed (R509). -/
def Stream.signed (x : Stream) : Bool := bit (byteField x.bytes 14 2) 0

/-- Whether a container is encrypted (R509). -/
def Stream.encrypted (x : Stream) : Bool := bit (byteField x.bytes 14 2) 1

/-- Whether a seat selector is valid (R517). -/
def selectorOk (sel : Nat) : Bool :=
  let m := bits sel 31 30
  m != 3 && bits sel 15 10 == 0 && bits sel 29 26 == 0 && (m != 2 || decide (bits sel 9 0 ≤ bits sel 25 16))

/-- Whether a selector selects a seat (R517). -/
def selects (sel seat : Nat) : Bool :=
  let m := bits sel 31 30
  m == 0 || (m == 1 && seat == bits sel 9 0) || (m == 2 && decide (bits sel 9 0 ≤ seat) && decide (seat ≤ bits sel 25 16))

/-- The failure of a container header, if any: reasons 1 to 4 of R528, in that order. -/
def State.headerReason (s : State) (kind : Nat) (bs : List Byte) : Option Nat :=
  let flags := byteField bs 14 2
  let keys := byteField bs 28 2
  let encrypted := bit flags 1
  if slice bs 0 4 != [0x43, 0x46, 0x42, 0x53] then some 1
  else if byteField bs 4 2 != 1 || byteField bs 60 4 != crc32c (bs.take 60) || byteField bs 12 2 != kind ||
      decide (4 ≤ flags) || byteField bs 30 2 != 0 || !allZero (slice bs 40 20) || decide (1024 < keys) ||
      (encrypted == (keys == 0)) || byteField bs 24 4 == 0 || decide (65535 < byteField bs 24 4) ||
      byteField bs 16 8 % 8 != 0 || !selectorOk (byteField bs 8 4) then some 2
  else if byteField bs 6 2 != 0x4624 then some 3
  else if (s.lockPolicy 0 && !bit flags 0) || (s.lockPolicy 1 && !encrypted) then some 4
  else none

/-! ### Sections -/

/-- TOWER of a PLANE, SIGTAB or SETTLE parameter (R512). -/
def secTower (p : Nat) : Nat := bits p 2 0
/-- CTX of such a parameter. -/
def secCtx (p : Nat) : Nat := bits p 9 8
/-- WFIRST of such a parameter. -/
def secFirst (p : Nat) : Nat := bits p 21 16
/-- WLAST of such a parameter. -/
def secLast (p : Nat) : Nat := bits p 29 24

/-- Bits of PARAM that a section type defines (R512). -/
def paramFields (type : Nat) : List (Nat × Nat) :=
  if type ≤ 3 then [(2, 0), (9, 8), (21, 16), (29, 24)]
  else if type = 4 ∨ type = 6 then [(1, 0)]
  else if type = 5 then [(1, 0), (27, 16), (44, 32)]
  else if type = 7 then [(2, 0), (9, 8), (21, 16), (28, 24), (43, 32)]
  else if type = 8 then [(3, 0)]
  else if type = 9 then [(7, 0), (23, 8)]
  else []

/-- Whether a section type is allowed in a container of a kind (R512). -/
def typeAllowed (kind type : Nat) : Bool :=
  decide (1 ≤ type) && (if kind = 0 then decide (type ≤ 10) else if kind = 1 then decide (type ≤ 7) else decide (type ≤ 4))

/-- Whether the body length of a section fits its type and parameter (R512-R514). -/
def bodyLenOk (type param n : Nat) : Bool :=
  let wings := secLast param + 1 - secFirst param
  match type with
  | 1 => n == wings * 2097152
  | 2 => n == wings * 4096
  | 3 => n == wings * 576
  | 4 => n == 16
  | 5 => n == ceilDiv (bits param 44 32) 2 * 8
  | 6 => n == 1536
  | 7 => n % 8 == 0 && decide (bits param 43 32 + n / 8 ≤ 4096) && decide (bits param 28 24 < 24)
  | 8 => n == 392
  | 9 => n == 24 * bits param 7 0 + 8 * bits param 23 8
  | _ => n == 16

/-- Word `i` of a section's body. -/
def bodyWord (body : List Byte) (i : Nat) : Nat := byteField body (8 * i) 8

/-- Whether the `g` group entries and `n` channel entries of a LANESET body are well formed (R409, R512, R514). -/
def lanesetOk (g n : Nat) (body : List Byte) : Bool :=
  (List.range g).all (fun i =>
    let w0 := bodyWord body (3 * i)
    !badBits w0 [(6, 0), (10, 8), (13, 12), (16, 16), (17, 17), (18, 18), (31, 24)] &&
      !badBits (bodyWord body (3 * i + 1)) [(35, 0)] && !badBits (bodyWord body (3 * i + 2)) [(9, 0), (21, 16)] &&
      decide (bits w0 6 0 < 64) && decide (bits w0 10 8 ≤ 4) && bits w0 6 0 % 2 ^ bits w0 10 8 == 0 &&
      !(bit w0 17 && bits w0 31 24 == 0)) &&
  (List.range n).all fun i => !badBits (bodyWord body (3 * g + i)) [(15, 0), (21, 16), (41, 32), (48, 48)]

/-- Whether the reserved parts of a section's body are zero and its fields in range (R508, R512-R514, R56, R664). -/
def bodyOk (type param : Nat) (body : List Byte) : Bool :=
  match type with
  | 3 => (List.range (body.length / 576)).all fun w =>
      let b := slice body (576 * w) 576
      decide (byteField b 0 2 < 1024) && byteField b 2 2 == 0 && allZero (slice b 8 56) &&
        (slice b 64 512).all (fun x => bits x.toNat 6 3 == 0) &&
        (slice b 320 256).all fun x => !(bit x.toNat 7 && bits x.toNat 2 0 == 0)
  | 4 =>
    let w0 := byteField body 0 8
    let w1 := byteField body 8 8
    w0 == bits w0 19 0 + bits w0 51 32 * 2 ^ 32 &&
      w1 == bits w1 0 0 + bits w1 31 16 * 2 ^ 16 + bits w1 34 32 * 2 ^ 32 + bits w1 38 36 * 2 ^ 36
  | 5 => (List.range (body.length / 4)).all fun i =>
      decide (byteField body (4 * i) 4 < (if i < bits param 44 32 then 2 ^ 17 else 1))
  | 9 => lanesetOk (bits param 7 0) (bits param 23 8) body
  | 10 => !badBits (bodyWord body 0) [(1, 0), (5, 4), (10, 8), (20, 16)] && !badBits (bodyWord body 1) [(31, 0)]
  | 8 => bits (byteField body 0 8) 3 3 == 0 && bits (byteField body 0 8) 7 7 == 0 &&
      decide (byteField body 0 8 < 2 ^ 13) && (List.range 48).all fun i => decide (byteField body (8 + 8 * i) 8 < 2 ^ 30)
  | _ => true

/-- A kept section of a type that covers a wing-context. -/
def Stream.covering (x : Stream) (type c wing : Nat) : Option (Nat × Section) :=
  x.kept.find? fun k => k.2.type = type ∧ secTower k.2.param = wing / 64 ∧ secCtx k.2.param = c ∧
    secFirst k.2.param ≤ wing % 64 ∧ wing % 64 ≤ secLast k.2.param

/-- The wings of a PLANE, SIGTAB or SETTLE parameter. -/
def secWings (param : Nat) : List Nat :=
  (List.range (secLast param + 1 - secFirst param)).map fun i => secTower param * 64 + secFirst param + i

/-- The golden signature that a kept SIGTAB gives a frame. -/
def Stream.sigOf (x : Stream) (c wing room : Nat) : Nat :=
  match x.covering 2 c wing with
  | some k => byteField k.2.body (((wing % 64 - secFirst k.2.param) * 1024 + room) * 4) 4
  | none => 0

/-- The bytes of a frame in a PLANE body. -/
def planeFrame (sec : Section) (wing room : Nat) : List Byte :=
  slice sec.body (((wing % 64 - secFirst sec.param) * 1024 + room) * 2048) 2048

/-- Whether a section breaks R515 beside those kept before it. -/
def Stream.breaksR515 (x : Stream) (sec : Section) : Bool :=
  decide (sec.type ≤ 3) && (decide (secLast sec.param < secFirst sec.param) ||
    (secWings sec.param).any (fun w => (x.covering sec.type (secCtx sec.param) w).isSome) ||
    (sec.type == 1 && !x.kept.any fun k => k.2.type == 2 && secTower k.2.param == secTower sec.param &&
      secCtx k.2.param == secCtx sec.param && decide (secFirst k.2.param ≤ secFirst sec.param) &&
      decide (secLast sec.param ≤ secLast k.2.param)))

/-- Whether some frame of a PLANE differs from its signature (R528 reason 8). -/
def Stream.frameBad (x : Stream) (sec : Section) : Bool :=
  sec.type == 1 && (secWings sec.param).any fun w =>
    (List.range 1024).any fun r => crc32 (planeFrame sec w r) != x.sigOf (secCtx sec.param) w r

/-- Where a container goes: a full stream, the staging of a context, or a job on a wing-context. -/
inductive Goal where
  | full
  | stage (c : Nat)
  | job (wing c act psp : Nat)
  deriving DecidableEq, Repr

/-- KIND that a goal needs (R509). -/
def Goal.kind : Goal → Nat
  | .full => 0
  | .stage _ => 1
  | .job _ _ _ _ => 2

/-- Whether a section names the context or wing-context of its goal (R145, R532).  R145 asks it of plane, settle-table and card
sections; that the other sections which carry a context must name the staged one too is a DESIGN CHOICE (assumption 96). -/
def Goal.names (g : Goal) (sec : Section) : Bool :=
  let ctx := if sec.type ≤ 3 ∨ sec.type = 7 then bits sec.param 9 8 else bits sec.param 1 0
  match g with
  | .full => true
  | .stage c => ctx == c
  | .job w c act psp =>
    ctx == c && (if sec.type ≤ 3 then secWings sec.param == [w] else true) &&
      (sec.type != 3 || byteField sec.body 4 4 == act) && (sec.type != 4 || psp == 0 || byteField sec.body 0 8 % 2 ^ 20 == psp)

/-- Card entries `[base, base + n)` meet a context's segment. -/
def State.cardMeets (s : State) (c base n : Nat) : Bool :=
  let b := s.rd (Reg.STEP.CARDSEG.BASE c)
  let l := s.rd (Reg.STEP.CARDSEG.LEN c)
  rangesMeet base n b l

/-- The tower blocks that an ATTICOWN body gives, numbered `24 * wing + block`. -/
def ownBlocks (body : List Byte) : List Nat :=
  (List.range 12288).filter fun n => bit (body.getD (n / 8) 0).toNat (n % 8)

/-- Whether a staged section takes a resource of a context in use (R147). -/
def State.stageTaken (s : State) (g : Goal) (sec : Section) : Bool :=
  match g with
  | .stage _ =>
    (sec.type == 5 && s.ctxsInUse.any fun c => s.cardMeets c (bits sec.param 27 16) (bits sec.param 44 32)) ||
      (sec.type == 6 && (ownBlocks sec.body).any fun n => s.attic.owner.any fun o => o.1 == n &&
        (o.2 == .trace || s.ctxsInUse.any o.2.has))
  | _ => false

/-! ### Reading a stream -/

/-- The stream failed with a reason at a section index. -/
def Stream.fail (x : Stream) (reason index : Nat) : Stream :=
  if x.failed.isSome then x else { x with failed := some (reason, index) }

/-- The key table read (R523): the stream key of the seat. -/
def Stream.readKeys (x : Stream) (seat : Nat) : Stream :=
  let entries := (List.range x.keys).map fun i => slice x.bytes (64 + 64 * i) 64
  match entries.find? fun e => byteField e 0 2 = seat with
  | none => x.fail 5 0
  | some e =>
    match Config.gcmUnwrap (slice e 4 12) (x.bytes.take 64) (slice e 16 32) (slice e 48 16) with
    | some k => { x with streamKey := k }
    | none => x.fail 7 0

/-- One section read once every byte of it has arrived (R511-R515, R518, R523). -/
def State.readSection (s : State) (g : Goal) (x : Stream) : Option Stream :=
  let o := x.parsed
  if x.length < o + 32 + 256 then some (x.fail 6 x.next)
  else if x.bytes.length < o + 32 then none
  else
    let n := byteField x.bytes (o + 16) 8
    let total := 32 + n + (if x.encrypted then 16 else 0)
    let i := x.next
    if x.length < o + total + 256 ∨ n % 8 ≠ 0 then some (x.fail 6 i)
    else if x.bytes.length < o + total then none
    else
      let rest := slice x.bytes (o + 32) (total - 32)
      let type := byteField x.bytes o 2
      let param := byteField x.bytes (o + 8) 8
      let sel := byteField x.bytes (o + 4) 4
      let head := slice x.bytes o 24
      let on := { x with parsed := o + total, next := i + 1 }
      if crc32c (head ++ rest) ≠ byteField x.bytes (o + 24) 4 then some (x.fail 6 i)
      else if !x.selected then some on
      else if !typeAllowed g.kind type || byteField x.bytes (o + 2) 2 != 0 || byteField x.bytes (o + 28) 4 != 0 ||
          !selectorOk sel || badBits param (paramFields type) || !bodyLenOk type param n then some (x.fail 6 i)
      else if !selects sel s.dev.seat then some on
      else
        let body := if x.encrypted then
            Config.gcmOpen x.streamKey (slice x.bytes 32 8 ++ leBytes 4 i) head (rest.take n) (rest.drop n)
          else some rest
        match body with
        | none => some (x.fail 7 i)
        | some body =>
          let sec : Section := { type := type, param := param, body := body }
          if !bodyOk type param body || x.breaksR515 sec || !g.names sec then some (x.fail 6 i)
          else if s.stageTaken g sec then some (x.fail 19 i)
          else if x.frameBad sec then some (x.fail 8 i)
          else some { on with kept := x.kept ++ [(i, sec)] }

/-- The section types that a container of a kind requires (R512). -/
def requiredTypes (kind : Nat) : List Nat := if kind = 0 then [10] else if kind = 1 then [4, 6] else [1, 2]

/-- Whether a container lacks a section that its kind requires (R512). -/
def Stream.lacks (x : Stream) (kind : Nat) : Bool :=
  (requiredTypes kind).any fun t => !x.kept.any fun k => k.2.type == t

/-- The next part of a stream read, if all of it has arrived; a required section that is missing is found once the last byte has been
received (R512). -/
def State.readPart (s : State) (g : Goal) (x : Stream) : Option Stream :=
  if x.failed.isSome then none
  else if !x.headerOk then
    if x.bytes.length < 64 then none
    else match s.headerReason g.kind x.bytes with
      | some r => some (x.fail r 0)
      | none => some { x with headerOk := true, parsed := 64, selected := selects (byteField x.bytes 8 4) s.dev.seat }
  else if x.parsed = 64 ∧ x.next = 0 ∧ 0 < x.keys then
    if x.length < 64 + 64 * x.keys + 256 then some (x.fail 6 0)
    else if x.bytes.length < 64 + 64 * x.keys then none
    else
      let y := { x with parsed := 64 + 64 * x.keys }
      some (if x.selected then y.readKeys s.dev.seat else y)
  else if x.next < x.sections then s.readSection g x
  else if x.parsed + 256 ≠ x.length then some (x.fail 6 x.sections)
  else if x.length < x.bytes.length then some (x.fail 13 x.sections)
  else if x.bytes.length = x.length ∧ x.selected ∧ x.lacks g.kind then some (x.fail 15 x.sections)
  else none

/-- Everything that has arrived read. -/
def State.readStream (s : State) (g : Goal) : Nat → Stream → Stream
  | 0, x => x
  | n + 1, x =>
    match s.readPart g x with
    | some y => s.readStream g n y
    | none => x

/-- Bytes arrive: they are read as far as they go (R518). -/
def State.feed (s : State) (g : Goal) (x : Stream) (bs : List Byte) : Stream :=
  if x.failed.isSome then x
  else s.readStream g 65540 { x with bytes := x.bytes ++ bs, lastByte := s.now }

/-- Whether LENGTH bytes have arrived. -/
def Stream.whole (x : Stream) : Bool := x.headerOk && x.bytes.length == x.length

/-- The trailer (R516). -/
def Stream.trailer (x : Stream) : List Byte := x.bytes.drop (x.bytes.length - 256)

/-- The SHA-384 digest of a container (R516, R530). -/
def Stream.digest (x : Stream) : BitVec 384 := Config.sha384 (x.bytes.take (x.bytes.length - 152))

/-- Digest bits [63:0] (R530). -/
def digest64 (d : BitVec 384) : Nat := d.toNat % 2 ^ 64

/-- A digest as the words of a key hash (R508, R542): the byte string that the standard defines, in memory order. -/
def digestWords (d : BitVec 384) : List Word := bytesWords (leBytes 48 d.toNat).reverse

/-- Whether the trailer passes R516 and R522; failing is reason 14. -/
def State.trailerOk (s : State) (x : Stream) : Bool :=
  let t := x.trailer
  let key := slice t 8 96
  slice t 0 4 == [0x43, 0x46, 0x42, 0x54] && allZero (slice t 4 4) && allZero (slice t 200 56) &&
    (if x.signed then
      Config.ecdsaVerify key x.digest (slice t 104 96) &&
        (!s.lockPolicy 0 || (s.lockEntry.any fun e => e.keyHash == digestWords (Config.sha384 key)))
    else allZero (slice t 8 192))

/-! ### What the kept sections say -/

/-- A kept section of a type that names a context in PARAM [1:0]. -/
def Stream.ctxSection (x : Stream) (type c : Nat) : Option (Nat × Section) :=
  x.kept.find? fun k => k.2.type = type ∧ bits k.2.param 1 0 = c

/-- Whether a container carries a context (R515). -/
def Stream.carries (x : Stream) (c : Nat) : Bool := (x.ctxSection 4 c).isSome

/-- The wings that the PLANE sections give a context. -/
def Stream.planeWings (x : Stream) (c : Nat) : List Nat :=
  (x.kept.filter fun k => k.2.type = 1 ∧ secCtx k.2.param = c).flatMap fun k => secWings k.2.param

/-- Whether every wing of a context has SETTLE exactly when a PLANE covers it (R515). -/
def Stream.settleOk (x : Stream) (c : Nat) : Bool :=
  (x.planeWings c).all (fun w => (x.covering 3 c w).isSome) &&
    ((x.kept.filter fun k => k.2.type = 3 ∧ secCtx k.2.param = c).flatMap fun k => secWings k.2.param).all fun w =>
      (x.covering 1 c w).isSome

/-- The settle table of a wing-context (R513). -/
def Stream.settleBytes (x : Stream) (c wing : Nat) : List Byte :=
  match x.covering 3 c wing with
  | some k => slice k.2.body ((wing % 64 - secFirst k.2.param) * 576) 576
  | none => List.replicate 576 0

/-- What the frames of a wing-context spell. -/
def Stream.wingPlane (x : Stream) (c wing : Nat) : WingPlane :=
  match x.covering 1 c wing with
  | some k => Config.decodeWing ((List.range 1024).map fun r => planeFrame k.2 wing r)
  | none => .empty

/-- A wing as its frames and its settle table configure it. -/
def wingOf (p : WingPlane) (settle : List Byte) : WingCfg :=
  let rank := fun (o i : Nat) => (settle.getD (o + i) 0).toNat
  { n := byteField settle 0 2 % 1024
    act := byteField settle 4 4
    cells := p.cells
    macs := p.macs
    attic := p.attic
    outs := (p.outs.filter fun o => bit (rank 64 o.idx) 7).map fun o => { o with rank := rank 64 o.idx % 8 }
    inps := (p.inps.filter fun i => bit (rank 320 i.idx) 7).map fun i => { i with rank := rank 320 i.idx % 8 }
    nocs := p.nocs
    poisonClr := p.poisonClr }

/-- The cross-seat channel that a LANESET binds a porch channel to (R448, R514). -/
def crossOf (channels : List (Nat × Nat × Nat × Bool)) (porch chan : Nat) (inbound : Bool) : Option (Nat × Nat) :=
  (channels.find? fun e => e.2.1 / 32 = porch ∧ e.2.2.1 = chan ∧ e.2.2.2 = inbound).map fun e => (e.1, e.2.1)

/-- A context built from the planes of its wings, its settle tables and its CTXINFO. -/
def buildCtx (wings : List (Nat × WingCfg)) (planes : List WingPlane) (info : Nat)
    (channels : List (Nat × Nat × Nat × Bool)) : CtxCfg :=
  { wings := wings
    porchIns := (planes.flatMap WingPlane.porchIns).map fun p => { p with cross := crossOf channels p.porch p.chan true }
    porchOuts := (planes.flatMap WingPlane.porchOuts).map fun p => { p with cross := crossOf channels p.porch p.chan false }
    pinOuts := planes.flatMap WingPlane.pinOuts
    fifos := planes.flatMap WingPlane.fifos
    device := bit info 0
    foldTag := bits info 31 16
    phase := bits info 34 32
    foldCount := bits info 38 36 }

/-- A context as a container gives it. -/
def Stream.ctxCfg (x : Stream) (c : Nat) (channels : List (Nat × Nat × Nat × Bool)) : CtxCfg :=
  let ws := x.planeWings c
  let info := match x.ctxSection 4 c with
    | some k => byteField k.2.body 8 8
    | none => 0
  buildCtx (ws.map fun w => (w, wingOf (x.wingPlane c w) (x.settleBytes c w))) (ws.map (x.wingPlane c)) info channels

/-- The PSP and NSP word of a context (R512). -/
def Stream.pspWord (x : Stream) (c : Nat) : Nat :=
  match x.ctxSection 4 c with
  | some k => byteField k.2.body 0 8
  | none => 0

/-- The entries of a CARD section: base and entries. -/
def cardEntries (sec : Section) : Nat × List Nat :=
  (bits sec.param 27 16, (List.range (bits sec.param 44 32)).map fun i => byteField sec.body (4 * i) 4)

/-- A card segment loaded: its place, its entries, its position (R102). -/
def State.loadCard (s : State) (c base : Nat) (es : List Nat) : State :=
  let s := (s.wr (Reg.STEP.CARDSEG.BASE c) base).wr (Reg.STEP.CARDSEG.LEN c) es.length
  let s := es.zipIdx.foldl (fun s e =>
    (s.wr (Reg.STEP.CARD.EDGE (base + e.2)) (e.1 % 2 ^ 16)).wrb (Reg.STEP.CARD.BREAK (base + e.2)) (bit e.1 16)) s
  s.wr ⟨Reg.STEP.CARDPOS.POS0.addr, 16 * c + 11, 16 * c⟩ base

/-! ### Stored planes -/

/-- A frame that nothing has written. -/
def Frame.none : Frame := { bytes := [], sig := 0 }

/-- The key of a stored frame. -/
def frameKey (c wing room : Nat) : Nat := (c * 512 + wing) * 1024 + room

/-- The frames of a context that a container carries, with their signatures (R536). -/
def Stream.frames (x : Stream) (c : Nat) : List (Nat × Frame) :=
  (x.planeWings c).flatMap fun w =>
    match x.covering 1 c w with
    | some k => (List.range 1024).map fun r =>
        (frameKey c w r, { bytes := planeFrame k.2 w r, sig := x.sigOf c w r })
    | none => []

/-- Where the mirror holds a frame, from the base of its region (R539). -/
def mirrorFrameAt (key : Nat) : Nat :=
  let wing := key / 1024 % 512
  key / 1024 / 512 * 2 ^ 30 + wing / 64 * 2 ^ 27 + wing % 64 * 2 ^ 21 + key % 1024 * 2 ^ 11

/-- Where the mirror holds the signature of a frame (R539). -/
def mirrorSigAt (key : Nat) : Nat :=
  let wing := key / 1024 % 512
  2 ^ 32 + key / 1024 / 512 * 2 ^ 21 + wing / 64 * 2 ^ 18 + wing % 64 * 2 ^ 12 + key % 1024 * 4

/-- The base of the mirror's region. -/
def State.mirrorBase (s : State) : Nat := s.rd Reg.CFG.MIRROR.BASE * 4096

/-- Keeper writes a frame and its signature into the mirror (R539). -/
def State.mirrorPut (s : State) (key : Nat) (f : Frame) : State :=
  let s := (State.g6Store iniKeeper 8 s (s.mirrorBase + mirrorFrameAt key) (bytesWords f.bytes)).1
  let a := s.mirrorBase + mirrorSigAt key
  let high := a % 8 = 4
  (s.g6Direct iniKeeper (a / 8 * 8) 1 (if high then 0xF0 else 0x0F) true [toWord (if high then f.sig * 2 ^ 32 else f.sig)]
    (.clean 0)).1

/-- Keeper reads a frame and its signature from the mirror (R537); `link` is how the link to the devices behaves. -/
def State.mirrorGet (s : State) (key : Nat) (link : LinkEnd) : State × Option Frame :=
  let a := s.mirrorBase + mirrorSigAt key
  let r := State.g6Load iniKeeper link 8 s (s.mirrorBase + mirrorFrameAt key) 256
  let q := r.1.g6Direct iniKeeper (a / 8 * 8) 1 255 false [] link
  match r.2 with
  | some ws =>
    if q.2.status = hsOk then
      (q.1, some { bytes := wordBytes ws, sig := fieldOf (q.2.data.getD 0 0) (8 * (a % 8) + 31) (8 * (a % 8)) })
    else (q.1, none)
  | none => (q.1, none)

/-- Frames written to the cellar, and to the mirror while it is on (R536, R539). -/
def State.storeFrames (s : State) (fs : List (Nat × Frame)) : State :=
  let s : State := { s with cfg := { s.cfg with planes := fs.foldl (fun (m : Cells Frame) (kf : Nat × Frame) => m.upd Frame.none kf.1 kf.2) s.cfg.planes } }
  if s.rdb Reg.CFG.MIRROR.ENABLED then fs.foldl (fun (s : State) (kf : Nat × Frame) => s.mirrorPut kf.1 kf.2) s else s

/-- The frames of a context dropped. -/
def State.dropFrames (s : State) (c : Nat) : State :=
  { s with cfg := { s.cfg with planes := s.cfg.planes.filter fun kv => kv.1 / 1024 / 512 ≠ c } }

/-! ### Jobs -/

/-- A job ends (R535, R541, R544): CFG_WING_DONE; its BU return, but for the rise in the step engine's demand, which the
step engine keeps after a job that completes. -/
def State.jobEnds (s : State) (j : Job) (status reason : Nat) (notSelected : Bool) : State :=
  let s := { s with cfg := { s.cfg with jobs := s.cfg.jobs.filter fun k => k.slot ≠ j.slot } }
  let s := s.ungrant 0x0E (2 + j.bu)
  let s := if status = stOk ∧ !notSelected then
      (s.grantAlways 0x0A j.bu).wr Reg.STEP.BUDGET.GRANT (min ((s.holds 0x0A) + j.bu) 2047)
    else s
  let s := if status = stOk then s
    else if j.isolated then { s with cfg := { s.cfg with brokenWc := (j.wing, j.ctx) :: s.cfg.brokenWc } } else s
  s.post 0x0903 (if status = stOk then sevInfo else sevWarn) srcDevice
    (j.id + status * 2 ^ 16 + reason * 2 ^ 24 + j.wing / 64 * 2 ^ 32 + j.wing % 64 * 2 ^ 40 + j.ctx * 2 ^ 48 +
      b2n notSelected * 2 ^ 50)

/-- A job isolates its wing in phases of its context (R175, R534): latch tags that name the context are cleared. -/
def State.jobIsolates (s : State) (j : Job) : State :=
  let clear := fun (m : Cells Latch) => if (m.at .empty j.wing).tag = j.ctx + 1 then m.upd .empty j.wing .empty else m
  { s with
    cfg := { s.cfg with jobs := s.cfg.jobs.map fun k => if k.slot = j.slot then { k with isolated := true } else k }
    fab := { s.fab with
      isoJob := (j.wing, j.ctx) :: s.fab.isoJob.filter fun x => x ≠ (j.wing, j.ctx)
      active := clear s.fab.active
      next := clear s.fab.next
      refills := s.fab.refills.filter fun r => !(r.wing = j.wing ∧ r.ctx = j.ctx) } }

/-- The groups at half width, or retired, on which Tolent placed channels of a context: cause of R266, direction, group. -/
def State.weakGroups (s : State) (c : Nat) : List (Nat × Nat × Nat) :=
  ((s.hopsOf c).filterMap fun h =>
    let st := s.corr.state h.dir (s.corr.standIn h.dir h.group)
    if st = 2 ∨ st = 3 then some (2, h.dir, s.corr.standIn h.dir h.group)
    else if st = 4 then some (3, h.dir, s.corr.standIn h.dir h.group) else none).eraseDups

/-- The channels of a context placed on the groups as they now stand (R676): those on retired groups are re-mapped, a
direction with no room for them is exhausted; PROMISE_AT_RISK is posted for each group at half width or retired.  The
step engine owes a FAULT where a direction is exhausted (R264). -/
def State.placeRoutes (s : State) (c : Nat) : State :=
  let weak := s.weakGroups c
  let s := (List.range dirCount).foldl (fun s d =>
    if s.needsRemap [c] d then
      match s.remapAll [c] d with
      | some s => s
      | none => { s.exhaust d with step := { (s.exhaust d).step with faultOwed := true } }
    else s) s
  (weak.foldl (fun s g => s.corrAtRisk g.1 g.2.1 g.2.2) s).corrSync

/-- A verified job's latch load at a step boundary (R534): the wing's new plane, its copies and INITVAL, its settle counts
and its PSP take effect.  The next LAUNCH waits for it: it takes an open time of up to 5 µs.  Its channels are placed anew (R676), and the corridor directions that the contexts in
use need now are charged (R299), without a request that could be refused (DESIGN CHOICE, assumption 103). -/
def State.jobLoads (s : State) (j : Job) : State :=
  let wc := wingOf (j.stream.wingPlane j.ctx j.wing) (j.stream.settleBytes j.ctx j.wing)
  let old := s.ctx j.ctx
  let others := old.wings.filter fun x => x.1 ≠ j.wing
  let ctxs := s.cfg.ctxs.set j.ctx { old with wings := others ++ [(j.wing, wc)] }
  let here := s.rd Reg.CTX.MODE.ACTCTX = j.ctx ∧ s.plane j.ctx = 3
  let gone := ((s.wing j.ctx j.wing).map fun w => w.outs.flatMap OutPort.route).getD []
  let s := { s with
    corr := { s.corr with moved := s.corr.moved.filter fun (m : Moved) =>
      !(m.ctx = j.ctx ∧ gone.contains { dir := m.dir, group := m.group, slot := m.slot }) }
    free := s.free + 1
    step := { s.step with loadUntil := max s.step.loadUntil (s.now + 1 + (Config.freeWord s.free).toNat % (5 * fsUs)) }
    cfg := { s.cfg with
      ctxs := ctxs
      brokenWc := s.cfg.brokenWc.filter fun x => x ≠ (j.wing, j.ctx)
      jobs := s.cfg.jobs.map fun (k : Job) => if k.slot = j.slot then { k with loaded := true } else k }
    fab := { s.fab with
      active := if here then s.fab.active.upd .empty j.wing { tag := j.ctx + 1, cfg := some wc } else s.fab.active
      next := if here then s.fab.next.upd .empty j.wing (s.fab.active.at .empty j.wing) else s.fab.next } }
  let s := s.initWing j.ctx j.wing
  let s := if j.psp = 0 then s else s.wr (Reg.STEP.PSP.PSP j.ctx) j.psp
  let s := s.setHeld 0x0B (2 * (s.dirsOf s.ctxsInUse).length)
  s.placeRoutes j.ctx

/-- The wings whose latches are loaded rejoin at the LAUNCH, and their jobs end (R534); a job loaded while no LAUNCH is to come ends at once
(DESIGN CHOICE, assumption 118). -/
def State.jobsRejoin (s : State) : State :=
  (s.cfg.jobs.filter Job.loaded).foldl (fun s j =>
    let s : State := { s with fab := { s.fab with isoJob := s.fab.isoJob.filter fun x => x ≠ (j.wing, j.ctx) } }
    s.jobEnds j stOk 0 false) s

/-- A step boundary: verified jobs load, jobs whose header has passed isolate their wings (R534). -/
def State.jobBoundary (s : State) : State :=
  let s := (s.cfg.jobs.filter fun j => j.verified && !j.loaded).foldl State.jobLoads s
  (s.cfg.jobs.filter fun j => j.stream.headerOk && j.stream.selected && !j.isolated && j.stream.failed.isNone).foldl
    State.jobIsolates s

end Sys2Proof.Machine
end

