-- ==== Sys2Proof/Machine/EngineOps.lean ====
section
/-! DEFINITION. The step engine (R51-R113): its pacing and its demand, phases, rounds and tokens, the COMMIT and the end of
a step, stops, abandoned steps and faults.  A step, a phase or a round is timed by the events that end it; the bounds that
the manual gives a strobe or a token are upper bounds and are not waited for (assumption 24). -/

namespace Sys2Proof.Machine

/-! ### Demand and pacing -/

/-- The activity of a context, in fC per step (R92, R513). -/
def CtxCfg.activity (c : CtxCfg) : Nat := (c.wings.map fun w => w.2.act).sum

/-- Q of a set of contexts under a context mode (R92): their largest sum in ROTATION, else their total. -/
def State.activityOf (s : State) (mode : Nat) (cs : List Nat) : Nat :=
  if mode = 2 then maxList (cs.map fun c => (s.ctx c).activity) else (cs.map fun c => (s.ctx c).activity).sum

/-- The promise of a step under context `c`, in 0.125 ns (R73-R75, R141). -/
def State.promise (s : State) (c : Nat) : Nat := s.rd (Reg.STEP.PSP.PSP (if s.ctxMode = 1 then 0 else c))

/-- The NSP that a rate of FREE mode takes for a set of contexts, in 0.125 ns (R92). -/
def State.nspOf (s : State) (mode : Nat) (cs : List Nat) : Nat :=
  if mode = 1 then s.rd (Reg.STEP.PSP.NSP 0)
  else match cs.map fun c => s.rd (Reg.STEP.PSP.NSP c) with
    | [] => 0
    | n :: ns => ns.foldl min n

/-- The launch interval of a step mode, in fs (R92): FREE, PACED and REEL, SINGLE. -/
def State.intervalOf (s : State) (mode cmode period : Nat) (cs : List Nat) : Nat :=
  if mode = 0 then max 20 (s.nspOf cmode cs) * fsTick
  else if mode = 2 then fsUs
  else period * fsTick

/-- The demand of R92 in BU for an activity in fC and an interval in fs: one BU is 125 mA. -/
def demandBu (q interval : Nat) : Nat := if interval = 0 then 0 else ceilDiv (8 * q) interval

/-- The demand of a set of contexts. -/
def State.demandOf (s : State) (mode cmode period : Nat) (cs : List Nat) : Nat :=
  demandBu (s.activityOf cmode cs) (s.intervalOf mode cmode period cs)

/-- The step engine's demand requested in place of its grant (R93): in full, in part where STRICT and REEL allow it, or
`none` where it is refused.  A demand above 2,047 BU shows as 2,047 in `STEP.BUDGET.DEMAND` (DESIGN CHOICE, assumption 92). -/
def State.requestDemand (s : State) (d : Nat) (full : Bool) : Option State :=
  let room := s.holds 0x0A + s.freeBu
  if d ≤ room then some ((s.setHeld 0x0A d).wr Reg.STEP.BUDGET.DEMAND (min d 2047) |>.wr Reg.STEP.BUDGET.GRANT (min d 2047))
  else if full || room == 0 then none
  else some ((s.setHeld 0x0A room).wr Reg.STEP.BUDGET.DEMAND (min d 2047) |>.wr Reg.STEP.BUDGET.GRANT room)

/-- The step engine's grant set by another rule: activation, deactivation, a set-aside (R113). -/
def State.setGrant (s : State) (g : Nat) : State := (s.setHeld 0x0A g).wr Reg.STEP.BUDGET.GRANT g

/-- The launch interval that the mode would otherwise give, in fs (R94). -/
def State.usualInterval (s : State) : Nat :=
  s.intervalOf (s.rd Reg.STEP.CTRL.MODE) s.ctxMode (s.rd Reg.STEP.PACE.PERIOD) s.ctxsInUse

/-- The budget interval in fs (R94, R573); 0 for none: Q / (G × 125 mA) where the grant is less than the demand, or the overdraw
interval. -/
def State.budgetFs (s : State) : Nat :=
  let g := s.rd Reg.STEP.BUDGET.GRANT
  let own := if g = 0 then 0 else ceilDiv (8 * s.activityOf s.ctxMode s.ctxsInUse) g
  max (if s.usualInterval < own ∧ g < s.rd Reg.STEP.BUDGET.DEMAND then own else 0) (s.step.overdraw * fsTick)

/-- The budget interval as registers and events show it, in 0.125 ns. -/
def State.budgetInterval (s : State) : Nat := ceilDiv s.budgetFs fsTick

/-- The step thermal level (R576): the highest of the towers that a context in use occupies. -/
def State.thermalLevel (s : State) : Nat :=
  maxList ((s.towersOf s.ctxsInUse).map fun t => s.rd (Reg.PWR.TEMP.STEPLVL t))

/-- The multiplier of a thermal level, in eighths (R575). -/
def State.multiplier (s : State) (l : Nat) : Nat :=
  bits (s.rd Reg.PWR.MULT.VALUE) (8 * (l - 1) + 7) (8 * (l - 1))

/-- The thermal interval in fs (R576); 0 for none. -/
def State.thermalFs (s : State) : Nat :=
  if s.thermalLevel = 0 then 0
  else s.multiplier s.thermalLevel * maxList (s.ctxsInUse.map fun c => s.rd (Reg.STEP.PSP.NSP c)) * fsTick / 8

/-- The thermal interval as registers show it, in 0.125 ns. -/
def State.thermalInterval (s : State) : Nat := ceilDiv s.thermalFs fsTick

/-- The minimum launch interval that neither the budget nor heat lengthens, in fs (R79). -/
def State.baseFs (s : State) : Nat := if s.rd Reg.STEP.CTRL.MODE = 2 then fsUs else 20 * fsTick

/-- The minimum launch interval in fs (R79). -/
def State.minFs (s : State) : Nat := max s.baseFs (max s.budgetFs s.thermalFs)

/-- The minimum launch interval and the fields that show it (R79, R94, R95, R112). -/
def State.pacingSync (s : State) : State :=
  let b := s.budgetFs
  let t := s.thermalFs
  let m := s.minFs
  let s := (s.wr Reg.STEP.PACING.MININT (min (ceilDiv m fsTick) (2 ^ 24 - 1))).wr Reg.PWR.PORCHTEMP.LEVEL s.thermalLevel
  let s := (s.wrb Reg.STEP.PACING.BUDGET (b != 0 && b == m)).wrb Reg.STEP.PACING.THERMAL (t != 0 && t == m)
  (s.wrb Reg.STEP.STAT.BPACED (b != 0)).wrb Reg.STEP.STAT.THROTTLED (t != 0)

/-! ### HOLD and STOP frames -/

/-- A HOLD or STOP frame sent on every reel group but one (R454, R457): HKIND, step number, originating seat, FAULT, hops
travelled. -/
def State.sendHold (s : State) (hkind m seat : Nat) (fault : Bool) (hops : Nat) (except : Option Nat) : State :=
  match s.time.reel with
  | none => s
  | some r =>
    let word := toWord (m % 2 ^ 48 + hkind * 2 ^ 48 + s.rd Reg.TIME.REEL.REELID * 2 ^ 52)
    let p := toWord (seat + b2n fault * 2 ^ 16 + min hops 255 * 2 ^ 24)
    (r.groups.filter fun g => some g ≠ except).foldl (fun s g => s.queueFrame g kindHold word [p]) s

/-! ### Stopping -/

/-- A run that waits for the refill of the closing SWITCH is dropped, with its command's status (R124). -/
def State.dropWait (s : State) (status : Nat) : State :=
  match s.step.startWait with
  | some (some id, _) => { s with step := { s.step with startWait := none } }.complete id status 0 []
  | _ => { s with step := { s.step with startWait := none } }

/-- The step engine enters a state (R84): from RUNNING or HUNG it posts STEP_STOPPED with a cause and signals vector 3, held
maintenance writes take effect (R224), waiting halts are answered, and a reel hears of a stop of another cause (R460). -/
def State.stopEngine (s : State) (cause st : Nat) : State :=
  let was := s.stepping
  let reel := s.rd Reg.STEP.CTRL.MODE = 3
  let cmds := s.step.haltCmds
  let s := s.dropWait stHwFault
  let s := ((s.wr Reg.STEP.STAT.STATE st).wr Reg.STEP.CTRL.HALT 0).wr Reg.STEP.SINGLE.LEFT 0
  let s := { s with step := { s.step with
    run := none, haltReq := false, haltCmds := [], faultOwed := false, ret := none } }
  let s := s.flushHeld
  let s := if was then
      let s := (s.wr Reg.STEP.STAT.STOPCAUSE cause).post 0x0101 sevInfo srcDevice cause
      let s := s.sendMsix 3
      if reel ∧ cause ≠ 1 ∧ cause ≠ 7 then s.sendHold 2 (s.rd Reg.STEP.COUNT.COUNT) s.dev.seat true 0 none else s
    else s
  (cmds.foldl (fun s id => s.complete id stOk 0 []) s).jobsRejoin.showNext

/-- The context of the phase in progress. -/
def State.phaseCtx (s : State) (r : StepRun) : Nat := if s.ctxMode = 1 then r.phase else r.ctx

/-- The step in progress is abandoned (R89, R125): nothing is committed, landings return to their copies, the inputs stay
for a rerun where it is pending (R90).  The groups found failing in it are repaired at its end (R262); a direction that this
exhausts brings the engine to FAULT, with nothing pending (R91, R264). -/
def State.abandon (s : State) (pending : Bool) : State :=
  match s.step.cur with
  | none => s
  | some r =>
    let f := s.fab.noPending
    let s := { s with
      fab := { f with landing := f.landingCopy, refills := f.refills.filter fun x => x.serves ≠ 0 ∧ x.serves ≠ 1 }
      corr := (r.tokens.flatMap fun (t : Token) => t.hops.take 1).foldl
        (fun (c : Corr) (h : Hop) => c.used (s.phaseCtx r) h s.now) s.corr }
    let rep := s.repairAll
    let pending := pending && !rep.2
    let s := { rep.1 with step := { rep.1.step with
      cur := none, aheadBad := false, faultOwed := rep.1.step.faultOwed || rep.2
      saved := if pending then some (r.inputs, r.nocIn) else none } }
    s.dropTaps.wrb Reg.STEP.STAT.PENDING pending

/-- A return has run its refill and its SWITCH, and the refill ahead of the rerun is over (R121, R125): the engine stops. -/
def State.retDone (s : State) (x : Ret) : State := s.stopEngine x.cause x.st

/-- The return of R125 goes on while nothing is outstanding: once the first context is refilled, the SWITCH and the refill ahead of the
rerun's first SWITCH; then the engine stops. -/
def State.retGoes (s : State) : State :=
  match s.step.ret with
  | none => s
  | some x =>
    if x.ahead then (if s.refilled 5 then s.retDone x else s)
    else if !s.refilled 4 then s
    else
      let s := if s.rd Reg.CTX.MODE.ACTCTX = x.ctx then s else (s.exchangeBack x.ctx).countSwitch x.ctx
      let s := { s with step := { s.step with ret := some { x with ahead := true } } }.refillAhead 5
      if s.refilled 5 then s.retDone x else s

/-- A step abandoned under context `c` stops the engine once the active sets have returned to it (R125): the wings of `c` whose active
set holds another context are refilled, unless their next set holds `c`.  A fault found meanwhile goes before (R91), and the
engine enters FAULT at once: the next run, after a step engine reset, refills and switches first (DESIGN CHOICE, assumption 93). -/
def State.stopAfter (s : State) (c cause st : Nat) : State :=
  let st := if s.step.faultOwed && st == seHalted then seFault else st
  if st = seHalted then
    let x : Ret := { ctx := c, cause := cause, st := st, ahead := false }
    let s := { s with step := { s.step with ret := some x } }
    let ws := ((s.ctx c).wings.map Prod.fst).filter fun w => s.activeTag w != c + 1
    (if s.rd Reg.CTX.MODE.ACTCTX = c then s else s.startRefillsIn ws c 4).retGoes
  else
    { s with step := { s.step with closingOwed := s.step.closingOwed || s.rd Reg.CTX.MODE.ACTCTX != c } }.stopEngine cause st

/-- An abandoned step that stops the engine. -/
def State.abandonStop (s : State) (pending : Bool) (cause st : Nat) : State :=
  match s.step.cur with
  | some r => (s.abandon pending).stopAfter r.ctx cause st
  | none => if s.step.ret.isSome then s else s.stopEngine cause st

/-- A step master that stops without a step in progress, or with one that is abandoned. -/
def State.halts (s : State) (pending : Bool) (cause st : Nat) : State :=
  if s.step.cur.isSome ∨ st = seHalted then s.abandonStop pending cause st else s.stopEngine cause st

/-- The step engine stops at once and for good, whatever is under way (R84, R527): nothing returns. -/
def State.haltNow (s : State) (cause st : Nat) : State := (s.abandon false).stopEngine cause st

/-! ### Where a step stands -/

/-- The step in progress changed. -/
def State.setCur (s : State) (r : StepRun) : State := { s with step := { s.step with cur := some r } }

/-- A wing of the phase in progress changed. -/
def StepRun.setWing (r : StepRun) (x : WingRun) : StepRun :=
  { r with wings := r.wings.map fun y => if y.wing = x.wing then x else y }

/-- The wings of the phase in a tower have all reported done (R65). -/
def StepRun.towerDone (r : StepRun) (t : Nat) : Bool := (r.wings.filter fun x => x.wing / 64 = t).all fun x => x.done

/-- Towers that the phase uses. -/
def StepRun.towers (r : StepRun) : List Nat := (r.wings.map fun x => x.wing / 64).eraseDups

/-- Porches that the phase uses (R64). -/
def State.phasePorches (s : State) (r : StepRun) : List Nat :=
  [0, 1].filter fun p => (s.ctx (s.phaseCtx r)).porchOuts.any fun o => o.porch = p

/-- Whether a porch has reported done (R64). -/
def State.porchDone (s : State) (r : StepRun) (p : Nat) : Bool :=
  (s.ctx (s.phaseCtx r)).porchOuts.all fun o => o.porch != p || r.porchGot.contains (o.porch, o.chan)

/-- Whether every done that COMMIT waits for has arrived (R66). -/
def State.allDone (s : State) (r : StepRun) : Bool :=
  if s.deviceScope r.ctx then
    r.towers.all (fun t => r.doneTowers.contains t) && (s.phasePorches r).all fun p => r.donePorches.contains p
  else r.wings.all fun x => x.done

/-- Whether the phase in progress is the step's last. -/
def StepRun.last (r : StepRun) : Bool := r.phase + 1 == r.phases

/-- Whether a closing SWITCH follows the step's COMMIT (R51, R142). -/
def State.closes (s : State) : Bool :=
  s.ctxMode == 1 || (s.ctxMode == 2 &&
    s.rotSlot ((s.rd Reg.CTX.ROTATION.POS + 1) % max 1 (s.rd Reg.CTX.MODE.ROTLEN)) != s.rotSlot (s.rd Reg.CTX.ROTATION.POS))

/-- The context that the SWITCH after the phase in progress leads to (R134, R142). -/
def State.switchTarget (s : State) (r : StepRun) : Nat :=
  if s.ctxMode = 1 then (if r.last then 0 else r.phase + 1)
  else s.rotSlot ((s.rd Reg.CTX.ROTATION.POS + 1) % max 1 (s.rd Reg.CTX.MODE.ROTLEN))

/-- The fixed remainder of a step's own end time, in fs (R86). -/
def State.remainder (s : State) (r : StepRun) : Nat :=
  (if s.deviceScope r.ctx then 900000 else 400000) + if s.closes then 1600000 else 0

/-- The instant from which COMMIT may be issued: the last done, or later under a forced overrun (R620 kind 4). -/
def State.commitFrom (s : State) (r : StepRun) : Nat :=
  if r.excess = 0 ∨ !r.last then r.lastDone
  else max r.lastDone (r.launchAt + (s.promise r.ctx + r.excess) * fsTick + r.remoteLast - s.remainder r)

/-! ### Rounds -/

/-- The highest rank among a wing's ports (R57). -/
def WingCfg.rounds (w : WingCfg) : Nat := maxList (w.outs.map (fun o => o.rank) ++ w.inps.map fun i => i.rank)

/-- Whether every inbound port of a rank has its token (R57). -/
def rankReady (w : WingCfg) (x : WingRun) (k : Nat) : Bool := w.inps.all fun i => i.rank != k || x.got.contains i.idx

/-- A wing reports done (R59): round L has ended and every token is acknowledged. -/
def State.markDone (s : State) (wing : Nat) : State :=
  match s.step.cur with
  | none => s
  | some r =>
    let upd := fun (x : WingRun) =>
      if x.wing = wing ∧ x.ended ∧ x.sent.all x.acked.contains then { x with done := true } else x
    let r' := { r with wings := r.wings.map upd }
    if !s.deviceScope r.ctx && r'.wings.all (fun x => x.done) && !r.wings.all (fun x => x.done) then
      s.setCur { r' with lastDone := s.now }
    else s.setCur r'

/-- An inbound port has received its token: the wing's next round begins if it waited for it alone (R57). -/
def State.portGot (s : State) (wing port : Nat) : State :=
  match s.step.cur with
  | none => s
  | some r =>
    match r.wings.find? fun x => x.wing = wing, s.wing (s.phaseCtx r) wing with
    | some x, some wc =>
      let x := { x with got := if x.got.contains port then x.got else port :: x.got }
      let x := if !x.active && !x.ended && rankReady wc x x.round then { x with active := true, began := s.now } else x
      s.setCur (r.setWing x)
    | _, _ => s

/-- A wing that isolation has removed counts as done and sends no token: no step waits for it (R176, R178). -/
def State.removeIsolated (s : State) : State :=
  match s.step.cur with
  | none => s
  | some r =>
    let kept := r.wings.filter fun x => !s.isolated (s.phaseCtx r) x.wing
    if kept.length = r.wings.length then s
    else
      let r' := { r with wings := kept }
      s.setCur (if s.allDone r' && !s.allDone r then { r' with lastDone := s.now } else r')

/-- Isolation has begun somewhere: the wings that it removes leave the phase, and every inbound port of the phase whose source is
isolated is released (R176-R178). -/
def State.releaseSources (s : State) : State :=
  let s := s.removeIsolated
  match s.step.cur with
  | none => s
  | some r =>
    let c := s.phaseCtx r
    let s := r.wings.foldl (fun s x =>
      match s.wing c x.wing with
      | some wc => (wc.inps.filter fun p => !x.got.contains p.idx && s.sourceOut c p.src).foldl (fun s p =>
          (s.releasePort c x.wing p).portGot x.wing p.idx) s
      | none => s) s
    (s.ctx c).porchOuts.foldl (fun s p =>
      match s.step.cur with
      | some r =>
        if r.porchGot.contains (p.porch, p.chan) || !s.sourceOut c p.src then s
        else
          let k := porchKey p.porch p.chan c
          let v := if p.isoFixed then p.initval else s.fab.porchCommitted.at 0 k
          { s.setCur { r with porchGot := (p.porch, p.chan) :: r.porchGot } with
            fab := { s.fab with porchVal := s.fab.porchVal.upd 0 k v } }
      | none => s) s

/-- A token leaves: `ready` follows the back-pressure of its first direction (R620 kind 2). -/
def State.sendToken (s : State) (src dest : Peer) (v : Word) (route : List Hop) : State :=
  let b := match route with
    | h :: _ => s.backPressure h.dir
    | [] => (0, s)
  match b.2.step.cur with
  | none => b.2
  | some r =>
    b.2.setCur { r with tokens := r.tokens ++
      [{ src := src, dest := dest, value := v, hops := route, ready := s.now + b.1, sentAt := s.now, isAck := false }] }

/-- The step number of the step in progress, as VALUE frames carry it (R448). -/
def State.stepNo (s : State) : Nat := s.rd Reg.STEP.COUNT.COUNT % 2 ^ 48

/-- A value becomes what a porch input channel presents in the step in progress, unless it has one (R64, R449). -/
def State.takeInput (s : State) (porch chan : Nat) (v : Word) : State :=
  match s.step.cur with
  | none => s
  | some r =>
    if r.inputs.any fun x => x.1 = porch ∧ x.2.1 = chan then s
    else s.setCur { r with inputs := r.inputs ++ [(porch, chan, v)] }

/-- The landing logic takes the remote values of the step in progress (R449): each becomes the value of its porch input channel, and
its slot is freed. -/
def State.takeRemotes (s : State) : State :=
  match s.step.cur with
  | none => s
  | some r =>
    let ins := (s.stepCtxs r.ctx).flatMap fun c => (s.ctx c).porchIns
    s.groups.foldl (fun s g =>
      let mine := g.landing.filter fun l => l.1 = s.stepNo
      let s := mine.foldl (fun s l =>
        (ins.filter fun p => p.cross = some (l.2.1, g.first)).foldl (fun s p =>
          s.takeInput p.porch p.chan (l.2.2.headD 0)) s) s
      (s.setGroup { g with landing := g.landing.filter fun l => l.1 ≠ s.stepNo }).freeSlotOf g.first mine.length) s

/-- The token of a porch input channel (R64, R450): the value captured at LAUNCH, or a remote value that has arrived. -/
def State.sendInput (s : State) (p : PorchIn) : State :=
  match s.step.cur with
  | none => s
  | some r =>
    match r.inputs.find? fun v => v.1 = p.porch ∧ v.2.1 = p.chan with
    | some v => s.sendToken (.porch p.porch p.chan) p.dest v.2.2 p.route
    | none => s

/-- The evaluation of the phase of context `c` begins (R57, R64, R126): round 0 of every wing that takes part, the tokens of
the porch input channels. -/
def State.beginPhase (s : State) (c : Nat) : State :=
  match s.step.cur with
  | none => s
  | some r =>
    let ws := ((s.ctx c).wings.map Prod.fst).filter fun w => !s.isolated c w
    let fresh := fun (w : Nat) =>
      (WingRun.mk w 0 true s.now [] [] [] false false)
    let runs := ws.map fresh
    let s := s.setCur { r with
      wings := runs, tokens := [], doneTowers := [], donePorches := [], porchGot := [], evalAt := s.now,
      lastDone := s.now, stage := .evaluate }
    let s := { s with fab := { s.fab with srcIso := s.fab.srcIso.filter fun k => !(k % 4 = c && ws.contains (k / 4 / 256)) } }
    let s := s.releaseSources.takeRemotes
    (s.ctx c).porchIns.foldl State.sendInput s

/-- The reads of a wing's attic ports, as its active set has them, run their error flows at the end of its last round (R217, R234,
R236). -/
def State.designReads (s : State) (c wing : Nat) (wc : WingCfg) : State :=
  let ev := s.settle c wing wc
  (wc.attic.map fun p => (p, netsNat ev (p.addr.take 12))).foldl (fun s x =>
    s.atticRead true (b2n x.1.portB) wing x.1.block x.2 false true) s

/-- A round of a wing ends (R57, R58, R115): what its active set drives is sent by its ports of that rank, and the next round begins or
waits. -/
def State.roundEnd (s : State) (wing : Nat) : State :=
  match s.step.cur with
  | none => s
  | some r =>
    let c := s.phaseCtx r
    match r.wings.find? fun x => x.wing = wing, s.wing c wing with
    | some x, some wc =>
      let lv := s.live wing
      let ev := s.settle c wing lv
      let outs := (lv.outs.filter fun o => o.rank = x.round).map fun o => (o, toWord (netsNat ev (o.nets.take 64)))
      let last := x.round = wc.rounds
      let s := s.showLive c wing
      let s := if last then s.designReads c wing lv else s
      let s := outs.foldl (fun s o => s.sendToken (.wing wing o.1.idx) o.1.dest o.2 o.1.route) s
      let x := { x with sent := x.sent ++ outs.map fun o => o.1.idx }
      let x := if last then { x with active := false, ended := true }
        else
          let go := rankReady wc x (x.round + 1)
          { x with round := x.round + 1, active := go, began := s.now }
      match s.step.cur with
      | some r => (s.setCur (r.setWing x)).markDone wing
      | none => s
    | _, _ => s

/-- A round's length in fs (R57, R67, R620 kind 1): N and the stretch, in the wing's measured SU; before any measurement the
SU is open up to the 60 ps of a promise (R73; assumption 25). -/
def State.roundTime (s : State) (wc : WingCfg) (wing : Nat) : Nat :=
  (wc.n + s.stretch wing) * (let u := s.fab.su.at 0 wing; if u = 0 then (Config.freeWord (s.free + wing)).toNat % 60001 else u)

/-! ### The end of a step -/

/-- The card entry of the step in progress: its index (R100). -/
def State.cardIndex (s : State) (c : Nat) : Nat := s.rd ⟨Reg.STEP.CARDPOS.POS0.addr, 16 * c + 11, 16 * c⟩

/-- The context whose card segment a step takes (R100). -/
def State.cardCtx (s : State) (c : Nat) : Nat := if s.ctxMode = 1 then 0 else c

/-- EDGE of the step in progress (R99). -/
def State.edge (s : State) (c : Nat) : Nat := s.rd (Reg.STEP.CARD.EDGE (s.cardIndex (s.cardCtx c)))

/-- The card position of a segment advances (R100). -/
def State.advanceCard (s : State) (seg : Nat) : State :=
  let base := s.rd (Reg.STEP.CARDSEG.BASE seg)
  let p := s.cardIndex seg + 1
  s.wr ⟨Reg.STEP.CARDPOS.POS0.addr, 16 * seg + 11, 16 * seg⟩
    (if base + s.rd (Reg.STEP.CARDSEG.LEN seg) ≤ p then base else p)

/-- The overrun check of a step that ends (R86, R87): its own end time in whole ticks against its promise; a step that
completes while the engine is HUNG counts as an overrun (R88). -/
def State.checkOverrun (s : State) (r : StepRun) : State :=
  let own := ceilDiv r.ownEnd fsTick
  let psp := s.promise r.ctx
  if own ≤ psp ∧ s.engine ≠ seHung then s
  else
    let x := own - psp
    let s := (s.count Reg.STEP.OVRCNT.COUNT 1).raise Reg.STEP.OVRCNT.WORST x
    let s := s.wr Reg.STEP.OVRSTEP.STEPNO (s.rd Reg.STEP.COUNT.COUNT)
    s.postLimited 0x0102 0 sevWarn srcDevice (min x (2 ^ 23 - 1) * 2 ^ 32)

/-- The engine's choice at a step end (R83, R84, R88, R98): stop, with the first cause in the order of R84, or go on.  `found` is the
cause that ends the step early: 4 a halt in HUNG (R89), 6 a refill failure (R124), 0 none. -/
def State.stepEndStops (s : State) (brk : Bool) (found : Nat) (exhausted : Bool) : Option (Nat × Nat) :=
  let reel := s.rd Reg.STEP.CTRL.MODE = 3
  let left := s.step.run.bind Run.left
  if found = 4 then some (4, if s.step.faultOwed || exhausted then seFault else seHalted)
  else if s.step.faultOwed || exhausted then some (5, seFault)
  else if found = 6 then some (6, seHalted)
  else if brk && !reel then some (3, seHalted)
  else if left == some 0 then some (2, seHalted)
  else if s.step.haltReq && !reel then some (1, seHalted)
  else match s.time.reel.bind Reel.stopAt with
    | some (k, cause) => if reel ∧ k < s.rd Reg.STEP.COUNT.COUNT then some (cause, seHalted) else none
    | none => none

/-- The step engine's demand follows the activity of the contexts in use (R92, R544). -/
def State.demandSync (s : State) : State :=
  s.wr Reg.STEP.BUDGET.DEMAND
    (min (s.demandOf (s.rd Reg.STEP.CTRL.MODE) s.ctxMode (s.rd Reg.STEP.PACE.PERIOD) s.ctxsInUse) 2047)

/-- A step boundary for the partial reconfiguration jobs (R534); a job that loads changes the activity (R544). -/
def State.jobStep (s : State) : State :=
  if s.cfg.jobs.any fun j => j.verified && !j.loaded then s.jobBoundary.demandSync.pacingSync else s.jobBoundary

/-- A step ends (R52, R83-R87, R100, R142): the count and the positions advance, durations and overruns are measured, groups
are repaired (R262), jobs and perturbations take their boundary, and the engine stops or goes on; `found` as in
`State.stepEndStops`. -/
def State.stepEnd (s : State) (found : Nat) : State :=
  match s.step.cur with
  | none => s
  | some r =>
    let seg := s.cardCtx r.ctx
    let brk := s.rdb (Reg.STEP.CARD.BREAK (s.cardIndex seg))
    let s := (s.checkOverrun r).spendOverrun
    let dur := min (ceilDiv (s.now - r.launchAt) fsTick) (2 ^ 24 - 1)
    let s := ((s.wr Reg.STEP.LASTSTEP.DUR dur).raise Reg.STEP.MAXSTEP.DUR dur).advanceCard seg
    let s := (List.range 8).foldl (fun s t => s.wr (Reg.STEP.NOTDONE.WINGS t) 0) s
    let s := s.wr Reg.STEP.COUNT.COUNT (s.rd Reg.STEP.COUNT.COUNT + 1)
    let s := if s.ctxMode = 2 then
        s.wr Reg.CTX.ROTATION.POS ((s.rd Reg.CTX.ROTATION.POS + 1) % max 1 (s.rd Reg.CTX.MODE.ROTLEN))
      else s
    let left := (s.step.run.bind Run.left).map fun n => n - 1
    let s := s.wr Reg.STEP.SINGLE.LEFT (left.getD 0)
    let run := s.step.run.map fun x => { x with left := left }
    let s := { s with step := { s.step with cur := none, saved := none, run := run, lastEnd := s.now } }
    let rep := s.repairAll
    let s := rep.1.pertBoundary.jobStep
    match s.stepEndStops brk found rep.2 with
    | some (cause, st) => s.stopEngine cause st
    | none => (s.wr Reg.STEP.STAT.STATE seRunning).showNext

/-! ### Faults -/

/-- A wing or room in use has failed, or a direction is exhausted (R91, R264): the step in progress is completed where its
COMMIT has been issued, else abandoned; the engine enters FAULT. -/
def State.enterFault (s : State) : State :=
  if s.engine = seUnconfigured then s
  else match s.step.cur with
    | some r =>
      let issued := r.last && (r.stage != .evaluate || s.allDone r)
      if issued then { s with step := { s.step with faultOwed := true } } else s.abandonStop false 5 seFault
    | none =>
      match s.step.ret with
      | some x =>
        let s := { s.wr Reg.STEP.STAT.PENDING 0 with step := { s.step with saved := none } }
        { s with step := { s.step with
          closingOwed := s.step.closingOwed || s.rd Reg.CTX.MODE.ACTCTX != x.ctx } }.stopEngine 5 seFault
      | none => s.stopEngine 5 seFault

/-- Failing groups repaired at once where no step is in progress (R262, R263); an exhausted direction brings the engine to
FAULT (R264). -/
def State.repairNow (s : State) : State :=
  if s.step.cur.isSome then s
  else
    let r := s.repairAll
    if r.2 then r.1.enterFault else r.1

/-- Whether a context in use uses a wing. -/
def State.wingInUse (s : State) (w : Nat) : Bool := s.ctxsInUse.any fun c => (s.wing c w).isSome

/-- A repair enters the OTP repair ledger, or always-on retention memory when it is full (R599). -/
def State.addRepair (s : State) (r : Repair) : State :=
  if s.dev.ledger.length < 256 then { s with dev := { s.dev with ledger := s.dev.ledger ++ [r] } }
  else
    let s := { s with dev := { s.dev with
      retainedRepairs := s.dev.retainedRepairs ++ [r]
      avoidOther := if r.kind = 1 then s.dev.avoidOther ++ [(1, r.wing / 64, r.wing % 64, r.item, 0)]
        else if r.kind = 2 ∨ r.kind = 5 then s.dev.avoidOther ++ [(2, r.wing / 64, r.wing % 64, 0, 0)]
        else if r.kind = 4 then s.dev.avoidOther ++ [(3, r.wing / 64, r.wing % 64, r.item, 0)] else s.dev.avoidOther } }
    if s.dev.fullPosted then s
    else { s with dev := { s.dev with fullPosted := true } }.post 0x0E05 sevWarn srcDevice 0

/-- A job on a wing ends with a status (R535, R540). -/
def State.endJobsOf (s : State) (p : Job → Bool) (status reason : Nat) : State :=
  (s.cfg.jobs.filter p).foldl (fun s j => s.jobEnds j status reason false) s

/-- A room is condemned (R598, R293): its wing is isolated, the engine follows R91, the events, the ledger, the avoid map. -/
def State.condemn (s : State) (wing room : Nat) : State :=
  if s.fab.condemned.contains (wing, room) then s
  else
    let used := s.wingInUse wing
    let s := { s with fab := { s.fab with condemned := s.fab.condemned ++ [(wing, room)] } }.releaseSources
    let t := wing / 64
    let s := if used then s.enterFault else s
    let s := s.post 0x0E03 sevError t (t + wing % 64 * 2 ^ 3 + room * 2 ^ 9)
    let s := if used then s.post 0x0106 sevError t (t + wing % 64 * 2 ^ 8 + room * 2 ^ 16) else s
    (s.addRepair { kind := 1, wing := wing, item := room, bonds := [] }).endJobsOf (fun j => j.wing = wing) stHwFault 0

/-- The detail of SIG_MISMATCH without its outcome (R537). -/
def sigDetail (wing room c : Nat) (scan : Bool) : Nat :=
  wing / 64 + wing % 64 * 2 ^ 3 + room * 2 ^ 9 + c * 2 ^ 19 + b2n scan * 2 ^ 21

/-- The outcome of a mismatch is counted and posted (R537). -/
def State.sigOutcome (s : State) (key : Nat) (scan : Bool) (outcome : Nat) : State :=
  let w := key / 1024 % 512
  let s := if outcome = 1 then s.count Reg.CFG.SIGCNT.REPAIRED 1 else s.count Reg.CFG.SIGCNT.UNREPAIRED 1
  let detail := sigDetail w (key % 1024) (key / 1024 / 512) scan + outcome * 2 ^ 22
  (s.wr Reg.CFG.LASTSIG.FRAME detail).post 0x0904 sevError (w / 64) detail

/-- A frame mismatches its signature (R537, R538): counted; a frame that has mismatched again three times, each within 1 s
of its repair, condemns its room; with the mirror on Keeper repairs it (MIRROR_REPAIR), without it the host must reload. -/
def State.sigMismatch (s : State) (wing room c : Nat) (scan : Bool) : State :=
  let key := frameKey c wing room
  let s := (s.count Reg.CFG.SIGCNT.MISMATCH 1).wr Reg.CFG.LASTSIG.FRAME (sigDetail wing room c scan)
  let s := s.wr Reg.CFG.LASTSIG.VALID 1
  let mine := s.cfg.repairs.filter fun r => r.1 = key
  let fresh := mine.any fun r => s.now ≤ r.2 + 1000 * fsMs
  let repairs := if fresh then s.cfg.repairs else s.cfg.repairs.filter fun r => r.1 ≠ key
  let s := { s with cfg := { s.cfg with repairs := repairs } }
  if fresh ∧ 3 ≤ mine.length then (s.sigOutcome key scan 3).condemn wing room
  else if s.rdb Reg.CFG.MIRROR.ENABLED then
    { s with cfg := { s.cfg with toRepair := s.cfg.toRepair ++ [(key, scan)] } }
  else s.sigOutcome key scan 0

end Sys2Proof.Machine
end

