-- ==== Sys2Proof/Machine/Debug.lean ====
section
/-! DEFINITION. The debug commands (R608-R625): PROBE_ROUTE, TRACE_SETUP, TRACE_READ, PERTURB and TEST_UNLOCK, and what an
activation pre-empts (R601, R611, R621). -/

namespace Sys2Proof.Machine

/-! ### Routes -/

/-- Whether route `r` exists and is the route of a tap (R625). -/
def State.routeOf (s : State) (wing tap r : Nat) : Bool :=
  s.rdb (Reg.DBG.ROUTE.VALID r) && s.rd (Reg.DBG.ROUTE.TOWER r) == wing / 64 &&
    s.rd (Reg.DBG.ROUTE.WING r) == wing % 64 && s.rd (Reg.DBG.ROUTE.TAP r) == tap

/-- Whether some route to a pin exists. -/
def State.anyRoute (s : State) : Bool := (List.range 128).any fun r => s.rdb (Reg.DBG.ROUTE.VALID r)

/-- A tap's route, if it has one, is removed and its pin released; the BU return with the last route (R623). -/
def State.dropRoute (s : State) (t : Tap) : State :=
  match t.pinKey, (List.range 128).find? (s.routeOf t.wing t.tap) with
  | some k, some r =>
    let s := s.store (Reg.DBG.ROUTE.VALID r).addr 0
    let s := { s with pins := { s.pins with probe := s.pins.probe.filter fun p => p.1 ≠ k } }
    if s.anyRoute then s else s.ungrant 0x13 2
  | _, _ => s

/-- A tap released, with its route. -/
def State.dropTap (s : State) (t : Tap) : State :=
  let s := s.dropRoute t
  { s with dbg := { s.dbg with taps := s.dbg.taps.filter fun x => !(x.wing = t.wing ∧ x.tap = t.tap) } }

/-- The state with a tap selected and, where it names a pin, routed (R608-R612). -/
def State.setTap (s : State) (t : Tap) : State :=
  let s := { s with dbg := { s.dbg with taps := s.dbg.taps ++ [t] } }
  if t.dest = 0 then s
  else
    match (List.range 128).find? fun r => !s.rdb (Reg.DBG.ROUTE.VALID r) with
    | none => s
    | some r =>
      let s := if s.anyRoute then s else s.grantAlways 0x13 2
      s.store (Reg.DBG.ROUTE.VALID r).addr
        (toWord (1 + b2n t.live * 2 + t.dest * 2 ^ 2 + t.bank * 2 ^ 4 + t.pin * 2 ^ 8 + t.wing / 64 * 2 ^ 16 +
          t.wing % 64 * 2 ^ 24 + t.tap * 2 ^ 32))

/-- Whether a trace records: ARMED or TRIGGERED (R617). -/
def State.tracing (s : State) : Bool :=
  s.rd Reg.DBG.TRSTAT.STATE == trArmed || s.rd Reg.DBG.TRSTAT.STATE == trTriggered

/-- Whether an armed trace uses a tap: a record holds every tap of a traced wing, and the trigger and the qualifier are
taps (R614, R615, R618). -/
def State.tapTraced (s : State) (wing tap : Nat) : Bool :=
  s.tracing && s.dbg.trace.any fun t => t.wings.contains wing || (t.trigsel == 3 && t.trigTap == wing * 64 + tap) ||
    (t.qual && t.qualTap == wing * 64 + tap)

/-- Whether the active bank setup names a pin (R611, R664). -/
def State.pinNamed (s : State) (bank pin : Nat) : Bool :=
  s.rdb (Reg.IOB.CFG.ACTIVE bank) && bits (s.pinWord bank pin) 3 0 != 0

/-- The selection word of a tap, in the layout of PROBE_ROUTE word 0 (R622). -/
def Tap.word (t : Tap) : Word :=
  toWord (b2n t.live * 2 ^ 2 + t.wing / 64 * 2 ^ 4 + t.wing % 64 * 2 ^ 8 + t.tap * 2 ^ 14 + t.room * 2 ^ 21 +
    t.cell * 2 ^ 31 + t.output * 2 ^ 37 + t.ctx * 2 ^ 40 + t.dest * 2 ^ 42 + t.bank * 2 ^ 44 + t.pin * 2 ^ 48)

/-- The selection that a PROBE_ROUTE names, with tap number `tap`. -/
def tapOf (c : Cmd) (tap : Nat) : Tap :=
  { wing := c.f 0 6 4 * 64 + c.f 0 13 8, tap := tap, room := c.f 0 30 21, cell := c.f 0 36 31, output := c.f 0 39 37,
    ctx := c.f 0 41 40, live := c.b 0 2, dest := c.f 0 43 42, bank := c.f 0 47 44, pin := c.f 0 53 48,
    value := false, pend := none }

/-- PROBE_ROUTE (R608-R612, R622, R623). -/
def probeRouteBody (c : Cmd) (s : State) : State :=
  let op := c.f 0 1 0
  let wing := c.f 0 6 4 * 64 + c.f 0 13 8
  let named := c.f 0 20 14
  let mine := s.dbg.taps.filter fun t => t.wing = wing
  let free := firstFree 64 fun n => !(mine.any fun t => t.tap = n) && !s.tapTraced wing n
  let tap := if named = 127 then free else some named
  let t := tapOf c (tap.getD 0)
  let sel := op == 0
  let old := mine.find? fun x => some x.tap = tap
  let others := s.dbg.taps.filter fun x => !(x.wing = wing ∧ some x.tap = tap)
  let routed := t.pinKey.isSome && others.any fun x => x.pinKey == t.pinKey
  let full := t.dest == 2 && decide (96 ≤ (others.filter fun x => x.dest = 2).length)
  let held := t.dest == 2 && s.pinNamed t.bank t.pin
  let needs := sel && t.dest != 0 && !s.anyRoute
  s.checked c
    [(c.reserved [[(53, 0)]] || op == 3 || (decide (63 < named) && !(sel && named == 127) && op != 2) ||
        (sel && (decide (4 < t.output) || t.dest == 3 || (t.dest == 1 && decide (31 < t.pin)) ||
          (t.dest == 2 && decide (47 < t.pin)))), stBadParam, 0),
     (op != 2 && tap.any (s.tapTraced wing), stTaken, 0),
     (sel && (tap.isNone || routed || full || held), stTaken, 0),
     (needs && decide (s.freeBu < 2), stBudget, 0)]
    fun s =>
      if op = 2 then
        s.ok c ((List.range 64).map fun n => ((mine.find? fun x => x.tap = n).map Tap.word).getD 0)
      else
        let s := match old with
          | some x => s.dropTap x
          | none => s
        if sel then (s.setTap t).answer c stOk (tap.getD 0) [] else s.ok c []

/-- PROBE_ROUTE's command. -/
def probeRouteCmd : Command := command 0x0D01 (exactly 1) probeRouteBody

/-- PROBE_ROUTE (R622). -/
def execProbeRoute (dt : Nat) (hdr : CmdHdr) (ws : List Word) (s : State) : Answer :=
  s.event dt fun s => s.issueCmd probeRouteCmd hdr ws

/-! ### Trace -/

/-- The trace's storage released: its blocks, its region, its grant and its records (R622). -/
def State.traceRelease (s : State) : State :=
  let s := if s.tracing then
      match s.dbg.trace with
      | some t => s.ungrant 0x13 (traceBu s.traceG6 t.wings.length)
      | none => s
    else s
  let owner := s.attic.owner.filter fun o => o.2 ≠ .trace
  let s := { s.releaseRegions .trace with attic := { s.attic with owner := owner }, dbg := { s.dbg with trace := none } }
  ((s.wr Reg.DBG.TRSTAT.STATE trIdle).wr Reg.DBG.TRPOS.HELD 0).wr Reg.DBG.TRPOS.TRIGIDX 0xFFFFFFFF

/-- A wing of words 14 to 20 of TRACE_SETUP. -/
def traceWing (w : Nat) : Option Nat := if bit w 16 then some (bits w 2 0 * 64 + bits w 13 8) else none

/-- A tap of words 3 and 4 of TRACE_SETUP, as wing times 64 plus tap. -/
def traceTap (w : Nat) : Nat := (bits w 6 4 * 64 + bits w 13 8) * 64 + bits w 20 14 % 64

/-- The wings that a TRACE_SETUP names. -/
def traceWings (c : Cmd) (g6 : Bool) : List Nat :=
  if g6 then (List.range 7).filterMap fun i => traceWing (c.w (14 + i))
  else (List.range 8).flatMap fun t => ((List.range 64).filter fun n => c.b (5 + t) n).map fun n => 64 * t + n

/-- The payload of TRACE_SETUP: ARM takes words 0 to 12 in ATTIC mode and 0 to 20 in GDDR6 mode, STOP and RELEASE need
word 0 only (assumption 28). -/
def traceSetupLen (ws : List Word) : Bool :=
  let w := (ws.getD 0 0).toNat
  if bits w 1 0 = 0 then ws.length == if bit w 2 then 21 else 13
  else ws.length == 1 || ws.length == 13 || ws.length == 21

/-- A trace as TRACE_SETUP sets it up. -/
def traceOf (c : Cmd) (g6 : Bool) : Trace :=
  { qual := c.b 0 4, trigsel := c.f 0 6 5, cue := c.f 0 11 8, tval := c.b 0 12, bfirst := c.f 0 20 16,
    blast := c.f 0 28 24, post := c.f 1 31 0, tstep := c.w 2, trigTap := traceTap (c.w 3), qualTap := traceTap (c.w 4),
    wings := traceWings c g6, base := if g6 then c.w 5 else 0, size := if g6 then c.w 13 else 0, recs := [],
    trigAt := none, postLeft := none, buffered := 0, cueHit := false, gap := false, count := 0, held := false }

/-- The logical blocks of an ATTIC-mode trace, numbered `24 * wing + block`. -/
def Trace.blocks (t : Trace) : List Nat :=
  t.wings.flatMap fun w => (List.range (t.blast + 1 - t.bfirst)).map fun i => 24 * w + t.bfirst + i

/-- TRACE_SETUP (R614-R618, R622, R623). -/
def traceSetupBody (c : Cmd) (s : State) : State :=
  let op := c.f 0 1 0
  let g6 := c.b 0 2
  let arm := op == 0
  let t := traceOf c g6
  let rel := s.traceRelease
  let tapBits := [(20, 0)]
  let words : List (List (Nat × Nat)) :=
    [[(6, 0), (12, 8), (20, 16), (28, 24)], [(31, 0)], [(63, 0)], tapBits, tapBits] ++
      (if g6 then [[(63, 0)]] ++ List.replicate 7 [] ++ [[(63, 0)]] ++ List.replicate 7 [(2, 0), (13, 8), (16, 16)] else [])
  let region := if arm && g6 then rel.allocRefusal t.base t.size else none
  let bad := c.reserved (if arm then words else [[(6, 0), (12, 8), (20, 16), (28, 24)]]) || op == 3 ||
    (arm && ((!g6 && (decide (23 < t.blast) || decide (t.blast < t.bfirst) || t.qual ||
        t.blocks.any fun n => s.attic.isRetired (n / 24) (n % 24))) ||
      (t.trigsel == 1 && s.cueFunc t.cue != fnTrace) || (t.trigsel == 3 && decide (63 < c.f 3 20 14)) ||
      (t.qual && decide (63 < c.f 4 20 14)) || region == some stBadParam))
  let taken := arm && (region == some stTaken ||
    (!g6 && t.blocks.any fun n => rel.attic.owner.any fun o => o.1 == n))
  s.checked c
    [(bad, stBadParam, 0), (taken, stTaken, 0),
     (arm && decide (rel.freeBu < traceBu g6 t.wings.length), stBudget, 0)]
    fun s =>
      if op = 1 then s.traceDone.ok c []
      else if op = 2 then s.traceRelease.ok c []
      else
        let s := s.traceRelease.grantAlways 0x13 (traceBu g6 t.wings.length)
        let s := if g6 then s.allocRegion t.base t.size .trace
          else { s with attic := { s.attic with owner := s.attic.owner ++ t.blocks.map fun n => (n, Owner.trace) } }
        let s := ((s.wr Reg.DBG.TRSTAT.STATE trArmed).wrb Reg.DBG.TRSTAT.MODE g6).wrb Reg.DBG.TRSTAT.POLICY (c.b 0 3)
        (s.traceSync t).ok c []

/-- TRACE_SETUP's command. -/
def traceSetupCmd : Command := command 0x0D02 traceSetupLen traceSetupBody

/-- TRACE_SETUP (R622). -/
def execTraceSetup (dt : Nat) (hdr : CmdHdr) (ws : List Word) (s : State) : Answer :=
  s.event dt fun s => s.issueCmd traceSetupCmd hdr ws

/-- A record as TRACE_READ returns it (R614, R615, R622): its number in the trace says whether it is the trigger record, and where the
attic holds its tap word. -/
def State.traceWords (s : State) (t : Trace) (wing : Nat) (n : Nat) (r : TraceRec) : List Word :=
  if s.traceG6 then
    toWord (r.step % 2 ^ 48 + b2n (t.trigAt == some n) * 2 ^ 56 + b2n r.gap * 2 ^ 57) ::
      (r.taps.take 7 ++ List.replicate (7 - r.taps.length) 0)
  else
    let (block, line, slot) := s.tracePlace t n
    [toWord (r.step % 2 ^ 48), (s.attic.word wing block (8 * line + slot)).data]

/-- TRACE_READ (R622). -/
def traceReadBody (c : Cmd) (s : State) : State :=
  let n := c.f 0 62 32
  let wing := c.f 1 2 0 * 64 + c.f 1 13 8
  let g6 := s.traceG6
  s.checked c
    [(c.reserved [[(31, 0), (62, 32)], if g6 then [] else [(2, 0), (13, 8)]] ||
        (n != 0 && !g6 && s.dbg.trace.any fun t => !t.wings.contains wing), stBadParam, 0),
     (n != 0 && s.rd Reg.DBG.TRSTAT.STATE != trDone, stState, 0)]
    fun s =>
      let recs := match s.dbg.trace with
        | some t =>
          let first := t.count - t.recs.length
          ((t.recs.zipIdx.drop (c.f 0 31 0)).take n).flatMap fun r => s.traceWords t wing (first + r.2) r.1
        | none => []
      s.ok c ([s.stored Reg.DBG.TRSTAT.STATE.addr, s.stored Reg.DBG.TRPOS.HELD.addr] ++ recs)

/-- TRACE_READ's command. -/
def traceReadCmd : Command := command 0x0D03 (exactly 2) traceReadBody

/-- TRACE_READ (R622). -/
def execTraceRead (dt : Nat) (hdr : CmdHdr) (ws : List Word) (s : State) : Answer :=
  s.event dt fun s => s.issueCmd traceReadCmd hdr ws

/-! ### Perturbations -/

/-- With no step in progress the device stands at a step boundary: perturbations begin and end at once (R620), and a group
that one marks failing is repaired (R262). -/
def State.pertNow (s : State) : State := if s.step.cur.isNone then s.pertBoundary.repairNow else s

/-- Whether an injection names a code position outside 0 to 71; 0xFF names none (assumption 23). -/
def badPositions (w : Nat) : Bool :=
  [bits w 7 0, bits w 15 8, bits w 23 16].any fun p => decide (71 < p) && p != 255

/-- Whether the parameters of a PERTURB are out of range (R620). -/
def pertBad (c : Cmd) (cap : Nat) : Bool :=
  let words : List (List (Nat × Nat)) := match c.f 0 7 0 with
    | 1 => [[(2, 0)], [(63, 0)], [(5, 0)]]
    | 2 => [[(4, 0)], [(7, 0)], []]
    | 3 => [[(10, 0)], [(15, 0)], []]
    | 4 => [[(15, 0)], [(15, 0)], []]
    | 5 => [[(4, 0)], [(5, 0)], [(1, 0)]]
    | 6 => [[(2, 0), (13, 8), (20, 16)], [(11, 0)], [(23, 0)]]
    | 7 => [[(39, 0)], [(23, 0)], []]
    | _ => [[(7, 0)], [], []]
  c.reserved ([(8, 0), (20, 16)] :: words) ||
    match c.f 0 7 0 with
    | 1 => c.f 3 5 0 == 0
    | 2 => decide (27 < c.w 1) || c.w 2 == 0
    | 3 => decide (1027 < c.w 1) || c.w 2 == 0
    | 4 => c.w 1 == 0 || c.w 2 == 0
    | 5 => decide (27 < c.w 1) || decide (33 < c.w 2) || decide (2 < c.w 3)
    | 6 => decide (23 < c.f 1 20 16) || badPositions (c.w 3)
    | 7 => decide (cap ≤ c.w 1) || c.w 1 % 8 != 0 || badPositions (c.w 2)
    | 8 => decide (36 < c.w 1)
    | _ => true

/-- What a perturbation acts on: two of one kind on one target share a slot (R621). -/
def Pert.target (p : Pert) : Nat × Nat :=
  match p.kind with
  | 4 => (0, 0)
  | 5 => (p.w1.toNat, p.w2.toNat)
  | 6 => (p.w1.toNat, p.w2.toNat)
  | _ => (p.w1.toNat, 0)

/-- PERTURB (R619, R620, R622). -/
def perturbBody (c : Cmd) (s : State) : State :=
  let off := c.b 0 8
  let slot := c.f 0 20 16
  let kind := c.f 0 7 0
  let p : Pert := { slot := 0, kind := kind, w1 := toWord (c.w 1), w2 := toWord (c.w 2), w3 := toWord (c.w 3),
                    acts := false, ending := false }
  let same := s.dbg.perts.find? fun q => q.kind = kind ∧ q.target = p.target
  let free := firstFree 32 fun i => !s.dbg.perts.any fun q => q.slot = i
  let use := match same with
    | some q => some q.slot
    | none => free
  s.checked c
    [(if off then badBits (c.w 0) [(8, 0), (20, 16)] else pertBad c s.g6Cap, stBadParam, 0),
     (!s.rdb Reg.PERT.STAT.UNLOCKED || (off && !s.dbg.perts.any fun q => q.slot = slot) ||
        (!off && kind == 7 && !s.g6Ecc), stState, 0),
     (!off && use.isNone, stTaken, 0)]
    fun s =>
      if off then
        let s := { s with dbg := { s.dbg with perts := s.dbg.perts.map fun (q : Pert) =>
          if q.slot = slot then { q with ending := true } else q } }
        s.pertNow.answer c stOk slot []
      else
        let n := use.getD 0
        let p := { p with slot := n }
        let s := match same with
          | some q => if q.kind = 8 ∧ q.acts then s.unforceClock (bits q.w1.toNat 7 0) else s
          | none => s
        let s := { s with dbg := { s.dbg with perts := s.dbg.perts.filter (fun (q : Pert) => q.slot ≠ n) ++ [p] } }
        let s := (s.pertShow p).post 0x0D05 sevWarn srcDevice (n + kind * 2 ^ 8)
        s.pertNow.answer c stOk n []

/-- The payload of PERTURB: OFF needs word 0 only (assumption 28). -/
def perturbLen (ws : List Word) : Bool := ws.length == 4 || (ws.length == 1 && flagOf (ws.getD 0 0) 8)

/-- PERTURB's command. -/
def perturbCmd : Command := command 0x0D10 perturbLen perturbBody

/-- PERTURB (R622). -/
def execPerturb (dt : Nat) (hdr : CmdHdr) (ws : List Word) (s : State) : Answer :=
  s.event dt fun s => s.issueCmd perturbCmd hdr ws

/-- The test unlock ends (R619): every perturbation is removed at the next step boundary. -/
def State.unlockEnds (s : State) : State :=
  if s.rdb Reg.PERT.STAT.UNLOCKED then
    let s := (s.wr Reg.PERT.STAT.UNLOCKED 0).post 0x0D04 sevWarn srcDevice 0
    { s with dbg := { s.dbg with perts := s.dbg.perts.map fun (q : Pert) => { q with ending := true } } }.pertNow
  else s

/-- TEST_UNLOCK (R619). -/
def testUnlockBody (c : Cmd) (s : State) : State :=
  let op := c.f 0 1 0
  let right := match s.dbg.challenge with
    | some (ch, t) => op == 1 && decide (s.now ≤ t + 1000 * fsMs) && c.f 1 31 0 + ch.toNat == 2 ^ 32 - 1
    | none => false
  s.checked c
    [(s.lockPolicy 3, stLock, 0),
     (c.reserved [[(1, 0)], if op = 1 then [(31, 0)] else []] || op == 3, stBadParam, 0)]
    fun s =>
      if op = 0 then
        let d := s.drawWord
        let ch : Half := BitVec.ofNat 32 d.1.toNat
        { d.2 with dbg := { d.2.dbg with challenge := some (ch, s.now) } }.answer c stOk ch.toNat []
      else if op = 1 then
        let s := { s with dbg := { s.dbg with challenge := none } }
        if !right then s.answer c stAuth 0 []
        else if s.rdb Reg.PERT.STAT.UNLOCKED then s.ok c []
        else ((s.wr Reg.PERT.STAT.UNLOCKED 1).post 0x0D04 sevWarn srcDevice 1).ok c []
      else s.unlockEnds.ok c []

/-- The payload of TEST_UNLOCK: word 1 is the response of OP 1 (assumption 28). -/
def testUnlockLen (ws : List Word) : Bool :=
  ws.length == 2 || (ws.length == 1 && bits (ws.getD 0 0).toNat 1 0 != 1)

/-- TEST_UNLOCK's command. -/
def testUnlockCmd : Command := command 0x0D11 testUnlockLen testUnlockBody

/-- TEST_UNLOCK (R622). -/
def execTestUnlock (dt : Nat) (hdr : CmdHdr) (ws : List Word) (s : State) : Answer :=
  s.event dt fun s => s.issueCmd testUnlockCmd hdr ws

/-- CHALLENGE_EXPIRY (R619): 1 s has passed since the challenge, and a new one is needed. -/
def execChallengeExpiry (dt : Nat) (s : State) : Answer :=
  s.event dt fun s =>
    s.whenever (s.dbg.challenge.any fun ch => decide (ch.2 + 1000 * fsMs ≤ s.now)) fun s =>
      { s with dbg := { s.dbg with challenge := none } }

/-! ### Pre-emption -/

/-- A resource is pre-empted (R602): its row of R601, counted from 0, and its index (DESIGN CHOICE, assumption 29). -/
def State.preempted (s : State) (row index : Nat) : State :=
  s.post 0x0E06 sevWarn srcDevice (row + index % 2 ^ 16 * 2 ^ 16)

/-- What the activation of a full configuration does to probes and trace (R611, R621): every tap and route goes, a trace
enters DONE, and an ATTIC-mode trace loses its blocks and its records. -/
def State.debugActivation (s : State) (named : List Nat) : State :=
  let s := s.dbg.taps.foldl (fun s t =>
    let s := match t.pinKey with
      | some k => if t.dest = 2 ∧ named.contains k then s.preempted 0 k else s
      | none => s
    s.dropTap t) s
  let s := s.traceDone
  match s.dbg.trace with
  | some t =>
    if s.traceG6 then s
    else
      let owner := s.attic.owner.filter fun o => o.2 ≠ .trace
      let s := { s with attic := { s.attic with owner := owner } }
      (s.traceSync { t with recs := [], trigAt := none }).preempted 2 t.bfirst
  | none => s

end Sys2Proof.Machine
end

