-- ==== Sys2Proof/Machine/Crossings.lean ====
section
/-! DEFINITION. The crossings between the layers of a tower (R22-R37, R172, R173): their conductors and spares, the spare map,
the tuned delays, what a start-up's calibration and bond test find, and what follows failures beyond the spares. -/

namespace Sys2Proof

/-! ### Their make -/

/-- The number of a crossing in the spare map. -/
def Crossing.key : Crossing → Nat
  | .bonds w r => 4 * (1024 * w + r)
  | .tsvs w r => 4 * (1024 * w + r) + 1
  | .memory w => 4 * w + 2
  | .channel w => 4 * w + 3

/-- The wing that a crossing serves. -/
def Crossing.wing : Crossing → Nat
  | .bonds w _ => w
  | .tsvs w _ => w
  | .memory w => w
  | .channel w => w

/-- The wing of a crossing's number. -/
def keyWing (k : Nat) : Nat := if k % 4 < 2 then k / 4 / 1024 else k / 4

/-- The conductors of a crossing, its spares among them (R22, R24, R25, R172). -/
def Crossing.size : Crossing → Nat
  | .bonds _ _ => 1072
  | .tsvs _ _ => 68
  | .memory _ => 4896
  | .channel _ => 4416

/-- The spares of a crossing (R22, R24, R25, R172). -/
def Crossing.spares : Crossing → Nat
  | .bonds _ _ => 32
  | .tsvs _ _ => 4
  | .memory _ => 94
  | .channel _ => 64

/-- The conductors of a delay group: 64 in the order of their numbers (R32; DESIGN CHOICE, assumption 91). -/
def Crossing.members (x : Crossing) (g : Nat) : List Nat :=
  (List.range (min 64 (x.size - 64 * g))).map (64 * g + ·)

/-- The tap at the centre of a passing window (R33): taps are 4 ps apart. -/
def windowCentre (first last : Nat) : Nat := (first + last) / 2

/-- Whether a passing window is too narrow (R34): under 40 ps from its first passing tap to its last. -/
def windowNarrow (first last : Nat) : Bool := decide ((last - first) * 4 < 40)

/-- The tap of a group whose window takes in every tap (R32, R33). -/
def openTap : Nat := windowCentre 0 63

end Sys2Proof

namespace Sys2Proof.Machine

/-! ### Failures -/

/-- A wing every room of which is condemned, for its memory bundle (R27, R293) or its channel bundle (R173). -/
def State.condemnWing (s : State) (w : Nat) (memory : Bool) : State :=
  if (if memory then s.fab.memFailed else s.fab.chanFailed).contains w then s
  else
    let used := s.wingInUse w
    let s := { s with fab := { s.fab with
      memFailed := if memory then s.fab.memFailed ++ [w] else s.fab.memFailed
      chanFailed := if memory then s.fab.chanFailed else s.fab.chanFailed ++ [w]
      failed := s.fab.failed.filter (fun v => v ≠ w) ++ [w] } }.releaseSources
    let s := if used then s.enterFault else s
    let s := s.post 0x0E03 sevError (w / 64) (w / 64 + w % 64 * 2 ^ 3 + 2 ^ 31)
    let s := if used then s.post 0x0106 sevError (w / 64) (w / 64 + w % 64 * 2 ^ 8 + 2 ^ 31) else s
    (s.addRepair { kind := if memory then 2 else 5, wing := w, item := 0, bonds := [] }).endJobsOf (fun j => j.wing = w)
      stHwFault 0

/-- What follows a crossing whose failures exceed its spares (R27, R173): the room or the whole wing is condemned; the result
counts the rooms that this condemns. -/
def State.condemnCrossing (s : State) : Crossing → State × Nat
  | .bonds w r => if s.fab.condemned.contains (w, r) then (s, 0) else (s.condemn w r, 1)
  | .tsvs w r => if s.fab.condemned.contains (w, r) then (s, 0) else (s.condemn w r, 1)
  | .memory w => if s.fab.memFailed.contains w then (s, 0) else (s.condemnWing w true, 1024)
  | .channel w => if s.fab.chanFailed.contains w then (s, 0) else (s.condemnWing w false, 1024)

/-- Conductors of a crossing found failed (R26, R27, R34): with those that spares stand in for already they are no more than the
spares, and spares take them, which the repair ledger records, or the crossing has failed.  A spare that fails itself counts
among the failed.  The result counts the rooms condemned. -/
def State.spareFailures (s : State) (x : Crossing) (bad : List Nat) : State × Nat :=
  let old := s.fab.spared.at [] x.key
  let new := (bad.filter fun b => decide (b < x.size) && !old.contains b).eraseDups
  if new.isEmpty then (s, 0)
  else if old.length + new.length ≤ x.spares then
    ({ s with fab := { s.fab with spared := s.fab.spared.upd [] x.key (old ++ new) } }.addRepair
      { kind := 0, wing := x.wing, item := x.key, bonds := new }, 0)
  else s.condemnCrossing x

/-- Keeper's bond test after the second failure of a burst (R36, R37): spares repair the room, which BOND_REPAIRED reports, or the
room is condemned (R27).  A test that finds no failed bond leaves nothing to repair (DESIGN CHOICE, assumption 91). -/
def State.bondTest (s : State) (wing room : Nat) (bad : List Nat) : State :=
  let x := Crossing.bonds wing room
  let n := (s.fab.spared.at [] x.key).length
  let r := s.spareFailures x bad
  let m := (r.1.fab.spared.at [] x.key).length
  if n < m then
    r.1.post 0x0E02 sevInfo (wing / 64) (wing / 64 + wing % 64 * 2 ^ 3 + room * 2 ^ 9 + min (m - n) 255 * 2 ^ 24)
  else r.1

/-! ### Start-up -/

/-- Keeper applies the spare map as a tower's crossings enter synchronous tuned-delay mode (R26, R38 step 3): what manufacturing
test set, extended by the field repairs of the ledger and of retention memory. -/
def State.applySpares (s : State) (t : Nat) : State :=
  let rs := (s.dev.made ++ s.dev.ledger ++ s.dev.retainedRepairs).filter fun r => r.kind = 0 ∧ r.wing / 64 = t
  let others := s.fab.spared.filter fun kv => keyWing kv.1 / 64 ≠ t
  { s with fab := { s.fab with
    spared := rs.foldl (fun m r => m.upd [] r.item (m.at [] r.item ++ r.bonds)) others } }

/-- A tower's tuned delays, and its trims, are those of a tower that has not been calibrated (R561). -/
def State.untune (s : State) (ts : List Nat) : State :=
  { s with fab := { s.fab with
    tuned := s.fab.tuned.filter fun t => !ts.contains t
    taps := s.fab.taps.filter fun kv => !ts.contains (keyWing (kv.1 / 128) / 64)
    trim := s.fab.trim.filter fun kv => !ts.contains (kv.1 / 64)
    su := s.fab.su.filter fun kv => !ts.contains (kv.1 / 64) } }

/-- Calibration sets the tuned delays of a tower (R33, R34, R38 step 4): each group samples at the centre of its window, and a
group whose window is too narrow has failed.  The result counts the rooms condemned. -/
def State.calibrate (s : State) (t : Nat) (windows : List (Crossing × Nat × Nat × Nat)) : State × Nat :=
  let s := s.untune [t]
  let s := { s with fab := { s.fab with tuned := s.fab.tuned ++ [t] } }
  windows.foldl (fun acc x =>
    let r : State × Nat := if windowNarrow x.2.2.1 x.2.2.2 then acc.1.spareFailures x.1 (x.1.members x.2.1)
      else ({ acc.1 with fab := { acc.1.fab with
          taps := acc.1.fab.taps.upd openTap (x.1.key * 128 + x.2.1) (windowCentre x.2.2.1 x.2.2.2) } }, 0)
    (r.1, acc.2 + r.2)) (s, 0)

/-- The bond test of a tower (R34, R38 step 5): failed bonds and TSVs by crossing. -/
def State.testBonds (s : State) (bad : List (Crossing × Nat)) : State × Nat :=
  (bad.map Prod.fst).eraseDups.foldl (fun acc x =>
    let r := acc.1.spareFailures x ((bad.filter fun b => b.1 = x).map Prod.snd)
    (r.1, acc.2 + r.2)) (s, 0)

end Sys2Proof.Machine
end

