-- ==== Sys2Proof/Machine/StartOps.lean ====
section
/-! DEFINITION. Towers that start and that are reset (R38, R39, R290, R588, R589, R595): their routers, the drain, the test
grants, what the tests find, and the end of a tower's start-up. -/

namespace Sys2Proof.Machine

/-! ### Scopes -/

/-- Scope 0, device warm. -/
def scWarm : Nat := 0
/-- Scope 1, tower. -/
def scTower : Nat := 1
/-- Scope 2, wing. -/
def scWing : Nat := 2
/-- Scope 3, step engine. -/
def scStep : Nat := 3
/-- Scope 4, hallway. -/
def scHallway : Nat := 4
/-- Scope 5, porch subsystem. -/
def scPorch : Nat := 5

/-- The detail of RESET_DONE (R605). -/
def resetDetail (j : ResetJob) : Nat :=
  j.scope + (if j.scope = scTower then j.unit * 2 ^ 4
    else if j.scope = scWing then j.unit / 64 * 2 ^ 4 + j.unit % 64 * 2 ^ 8
    else if j.scope = scPorch then j.unit * 2 ^ 16 else 0)

/-! ### Routers -/

/-- The routers of a tower (R43). -/
def towerRouters (t : Nat) : List Nat := [routerOf t 0, routerOf t 1]

/-- The wings of a tower. -/
def towerWings (t : Nat) : List Nat := (List.range 64).map (64 * t + ·)

/-- `READY.HALLWAY` follows the routers (R606). -/
def State.hallwaySync (s : State) : State := s.wrb Reg.DEV.READY.HALLWAY (s.rd Reg.NOC.STAT.INSERVICE == 2 ^ 16 - 1)

/-- A tower's routers enter or leave service (R278). -/
def State.setRouters (s : State) (t : Nat) (up : Bool) : State :=
  let s := (towerRouters t).foldl (fun s r =>
    let m := s.rd Reg.NOC.STAT.INSERVICE
    s.wr Reg.NOC.STAT.INSERVICE (setBits m r r (b2n up))) s
  s.hallwaySync

/-- The drain bits of a tower's routers (R300). -/
def State.setDrain (s : State) (t : Nat) (on : Bool) : State :=
  (towerRouters t).foldl (fun s r => s.wr Reg.NOC.STAT.DRAIN (setBits (s.rd Reg.NOC.STAT.DRAIN) r r (b2n on))) s

/-- The router through which a router that drains sends an error response: a neighbour in service (R290). -/
def State.drainVia (s : State) (r : Nat) : Option Nat := (neighbours r).find? s.routerUp

/-- The packets that some routers hold leave as ABORT_ROUTE responses, where a link in service leads away (R290); the
result counts those sent. -/
def State.abortPackets (s : State) (rs : List Nat) : State × Nat :=
  s.noc.routers.foldl (fun acc rp =>
    if !rs.contains rp.1 then acc
    else match acc.1.drainVia rp.1 with
      | none => acc
      | some v =>
        let s := { acc.1 with noc := { acc.1.noc with routers := acc.1.noc.routers.erase rp } }
        let s := s.count Reg.NOC.ABORTS.ROUTE 1
        (s.enterRouter v { rp.2.response hsAbort 0 [] with type := 0xA, ready := s.now }, acc.2 + 1)) (s, 0)

/-- A tower's routers drain (R290 steps 1 to 4): out of service, what they and the tower's targets hold aborted. -/
def State.drainTower (s : State) (t : Nat) : State :=
  let s := (s.setRouters t false).setDrain t true
  let mine := fun (x : Nat × Packet) => x.1 = t ∨ x.1 = 8 + t
  let owed := (s.attic.waiting.filter fun w => w.1.wing / 64 = t).filterMap Prod.snd
  let held := ((s.noc.targets.filter fun x => decide (mine x)) ++ owed).map fun x => (routerOf t 0, x.2)
  let s := { s with
    noc := { s.noc with
      targets := s.noc.targets.filter fun x => !decide (mine x)
      routers := s.noc.routers ++ held }
    attic := { s.attic with waiting := s.attic.waiting.filter fun w => w.1.wing / 64 ≠ t } }
  let r := s.abortPackets (towerRouters t)
  { r.1 with noc := { r.1.noc with drains := r.1.noc.drains.filter (fun d => d.1 ≠ t) ++ [(t, s.now, r.2)] } }

/-- Wings' NoC ports release their tags (R290 step 6): each tag in use enters quarantine, requests that wait and responses
that are buffered are dropped. -/
def State.releaseTags (s : State) (ws : List Nat) : State :=
  let mine := fun (i : Nat) => i < 1024 ∧ ws.contains (i / 2)
  { s with noc := { s.noc with
    waiting := s.noc.waiting.filter fun w => !decide (mine w.1)
    resp := s.noc.resp.filter fun r => !decide (mine r.1)
    tags := s.noc.tags.map fun (t : TagUse) =>
      if mine t.init then { t with quarantine := some (t.quarantine.getD s.now) } else t } }

/-- A tower's drain ends (R290 steps 5 and 6): what is still held is discarded, NOC_DRAIN is posted. -/
def State.drainEnds (s : State) (t : Nat) : State :=
  match s.noc.drains.find? fun d => d.1 = t with
  | none => s
  | some d =>
    let left := s.noc.routers.filter fun x => (towerRouters t).contains x.1
    let s := { s with noc := { s.noc with
      drains := s.noc.drains.filter fun e => e.1 ≠ t
      routers := s.noc.routers.filter fun x => !(towerRouters t).contains x.1 } }
    ((s.setDrain t false).releaseTags (towerWings t)).post 0x0407 sevInfo t
      (t + min d.2.2 65535 * 2 ^ 16 + min left.length 65535 * 2 ^ 32)

/-! ### Corridors -/

/-- The corridor directions that end at a die are to be tested again and take the states that Keeper recorded (R268). -/
def State.retestCorridors (s : State) (die : Nat) : State :=
  let mine := fun (dir : Nat) => let e := dirEnds dir; e.1 = die ∨ e.2 = die
  let group := s.corr.group.filter fun kv => !decide (mine (kv.1 / 34))
  let c := { s.corr with
    group := group
    halfNow := s.corr.halfNow.filter fun h => !decide (mine h.1)
    failing := s.corr.failing.filter fun f => !decide (mine f.dir) }
  { s with corr := (c.record.filter fun (r : Nat × Nat × Nat) => decide (mine r.1)).foldl (fun (c : Corr) (r : Nat × Nat × Nat) => c.setState r.1 r.2.1 r.2.2) c }.corrSync

/-- The wire test of the corridors at a die finds groups that fail, with the half that fails if one half alone does (R268): each is
repaired before any channel uses it, as R262 states. -/
def State.corridorsTested (s : State) (die : Nat) (bad : List (Nat × Nat × Option Bool)) : State :=
  let mine := bad.filter fun b => let e := dirEnds b.1; e.1 = die ∨ e.2 = die
  let r := mine.foldl (fun (acc : State × Bool) b =>
    let x := acc.1.repairGroup { dir := b.1, group := b.2.1, half := b.2.2 }
    (x.1, acc.2 || x.2)) (s.retestCorridors die, false)
  if r.2 then r.1.corrSync.enterFault else r.1.corrSync

/-! ### Test grants -/

/-- The test grants that a tower needs (R39): 1 BU for each wing whose floor supply is off. -/
def State.testBu (s : State) (t : Nat) : Nat := ((towerWings t).filter fun w => !s.fab.powered.contains w).length

/-- Towers that wait for their test grants take them in tower order, as long as the BU allow (R39): from the free BU, and at
an exit from PATROL from the BU set aside too.  The 387 ms of R589 run from there (DEDUCED, assumption 127). -/
def State.admitTowers (s : State) : State :=
  let step := fun (acc : State × Bool) (t : Nat) =>
    match acc.1.dev.startup.find? fun x => x.1 = t with
    | some (_, _, none) =>
      let s := acc.1
      let n := s.testBu t
      let asideBu := (s.ledger.aside.map Prod.snd).sum - s.ledger.lent
      if acc.2 || decide (s.freeBu + asideBu < n) then (s, true)
      else
        let lent := n - s.freeBu
        let s := { s with
          ledger := { s.ledger with lent := s.ledger.lent + lent }
          dev := { s.dev with startup := s.dev.startup.map fun (x : Nat × Nat × Option Nat) =>
            if x.1 = t then (t, s.now, some n) else x } }
        (s.grantAlways 0x01 n, false)
    | _ => acc
  ((List.range 8).foldl step (s, false)).1

/-- Towers begin R38 (R586, R588, R594). -/
def State.startTowers (s : State) (ts : List Nat) : State :=
  let s := ts.foldl (fun s t => s.wr Reg.DEV.READY.TOWER (setBits (s.rd Reg.DEV.READY.TOWER) t t 0)) (s.untune ts)
  { s with dev := { s.dev with
    startup := s.dev.startup.filter (fun (x : Nat × Nat × Option Nat) => !ts.contains x.1) ++
      ts.map fun t => (t, s.now, none) } }.admitTowers

/-- A tower leaves R38: its test grants return, and first those that were lent (R39). -/
def State.leaveStartup (s : State) (t : Nat) : State :=
  let n := match s.dev.startup.find? fun x => x.1 = t with
    | some (_, _, some n) => n
    | _ => 0
  let s := s.ungrant 0x01 n
  { s with
    ledger := { s.ledger with lent := s.ledger.lent - n }
    dev := { s.dev with startup := s.dev.startup.filter fun (x : Nat × Nat × Option Nat) => x.1 ≠ t } }

/-! ### Wings -/

/-- Wings under a reset (R175, R594): isolated, their copies at their initial values in every context, their landings 0,
their ports released. -/
def State.resetWings (s : State) (ws : List Nat) : State :=
  let s := { s with fab := { s.fab with
    isoReset := s.fab.isoReset.filter (fun w => !ws.contains w) ++ ws
    refills := s.fab.refills.filter fun r => !ws.contains r.wing } }
  let s := ws.foldl (fun s w => [0, 1, 2, 3].foldl (fun s c => s.initWing c w) s) s
  { s with fab := { s.fab with
    landing := s.fab.landing.filter fun kv => !ws.contains (kv.1 / 65536)
    landingCopy := s.fab.landingCopy.filter fun kv => !ws.contains (kv.1 / 65536) } }.releaseSources

/-- Wings out of reset (R595): the active sets hold the context of the next step, or C0 of a fold; the next-set tags are
clear, and the refill for the next step's first SWITCH starts where a step has not already (R121). -/
def State.reloadWings (s : State) (ws : List Nat) : State :=
  let c := s.nextCtx
  let load := fun (w : Nat) =>
    if (s.wing c w).isSome && s.fab.powered.contains w && !s.wingBad w then s.latchOf c w else Latch.empty
  let s := { s with fab := { s.fab with
    isoReset := s.fab.isoReset.filter fun w => !ws.contains w
    active := ws.foldl (fun m w => m.upd .empty w (load w)) s.fab.active
    next := ws.foldl (fun m w => m.upd .empty w .empty) s.fab.next } }
  if s.engine = seUnconfigured ∨ s.ctxMode = 0 then s
  else match s.step.cur with
    | none => s.refillAhead 6
    | some r => if r.last && !s.closes then s.refillAhead 1 else s.startRefills (s.switchTarget r) 0

/-- A wing fails (R69, R600): isolated, in the avoid map; where a context in use uses it, the engine follows R91 and WING_FAULT is
posted. -/
def State.failWing (s : State) (w : Nat) : State :=
  if s.fab.failed.contains w then s
  else
    let s := { s with
      fab := { s.fab with failed := s.fab.failed ++ [w] }
      dev := { s.dev with avoidOther := s.dev.avoidOther ++ [(2, w / 64, w % 64, 0, 0)] } }.releaseSources
    if s.wingInUse w then s.enterFault.post 0x0106 sevError (w / 64) (w / 64 + w % 64 * 2 ^ 8 + 2 ^ 31) else s

/-! ### The attic test -/

/-- Pending moves and retirements of a tower take effect (R243). -/
def State.applyMoves (s : State) (p : Nat → Bool) : State :=
  let now := s.attic.moves.filter fun m => p (m.1 / 64)
  now.foldl (fun s m =>
    if m.2.2 then { s with attic := { s.attic with
      retired := if s.attic.retired.contains (m.1, m.2.1) then s.attic.retired else s.attic.retired ++ [(m.1, m.2.1)] } }
    else { s with attic := { s.attic with
      spareFor := s.attic.spareFor.upd 31 m.1 m.2.1
      fieldRepair := if s.attic.fieldRepair.contains m.1 then s.attic.fieldRepair else s.attic.fieldRepair ++ [m.1] } })
    { s with attic := { s.attic with moves := s.attic.moves.filter fun m => !p (m.1 / 64) } }

/-- Every word of a tower's attic clear, every line CRC that of zeros (R240). -/
def Attic.clearTower (m : Attic) (t : Nat) : Attic :=
  { m with
    words := m.words.filter fun kv => kv.1 / 4096 / 25 / 64 ≠ t
    lineCrc := m.lineCrc.filter fun kv => kv.1 / 512 / 25 / 64 ≠ t
    stale := m.stale.filter fun k => k / 512 / 25 / 64 ≠ t
    held := m.held.filter fun w => w.wing / 64 ≠ t
    waiting := m.waiting.filter fun w => w.1.wing / 64 ≠ t
    checks := m.checks.filter fun c => c.wing / 64 ≠ t }

/-- The self-test's record of a move or a retirement: ATC_REMAP reports one that the OTP ledger holds (R239, R241). -/
def State.recordMove (s : State) (r : Repair) : State :=
  let t := s.addRepair r
  if s.dev.ledger.length < 256 then t.post 0x0307 sevInfo (r.wing / 64) (towerBlock r.wing r.item) else t

/-- A block that fails the self-test: moved to the spare, or retired (R241); the result says whether it was retired. -/
def State.badBlock (s : State) (wing ab : Nat) : State × Bool :=
  let t := wing / 64
  let b := towerBlock wing ab
  if s.attic.isRetired wing ab then (s, false)
  else if s.attic.spareFor.at 31 wing = 31 then
    let s := { s with attic := { s.attic with
      spareFor := s.attic.spareFor.upd 31 wing ab, fieldRepair := s.attic.fieldRepair ++ [wing] } }
    (s.recordMove { kind := 3, wing := wing, item := ab, bonds := [] }, false)
  else
    let s := { s with attic := { s.attic with retired := s.attic.retired ++ [(wing, ab)] } }
    let s := s.recordMove { kind := 4, wing := wing, item := ab, bonds := [] }
    (s.post 0x0306 sevError t b, true)

/-- The attic self-test of a tower (R240, R241, R243, R245). -/
def State.atticTest (s : State) (t : Nat) (bad : List (Nat × Nat)) : State × Bool :=
  let s := { s with attic := s.attic.clearTower t }
  let r := bad.foldl (fun (acc : State × Bool) b =>
    let x := acc.1.badBlock (64 * t + b.1 % 64) (b.2 % 24)
    (x.1, acc.2 || x.2)) (s, false)
  ((r.1.wrb (Reg.ATC.STAT.SELFTEST t) (!r.2)).wrb (Reg.DEV.SELFTEST.ATTIC t) (!r.2), r.2)

/-! ### The end of a start-up -/

/-- The code of a check in SELFTEST_FAIL (R605). -/
def checkCodeOf : CheckFail → Nat
  | .beatLoop => 1
  | .calibration => 2
  | .bonds => 3
  | .su => 4
  | .timeout => 5

/-- SELFTEST_FAIL (R589, R605). -/
def State.selftestFail (s : State) (t : Nat) (f : CheckFail) : State :=
  { s with dev := { s.dev with bad := true } }.post 0x0E07 sevError t (t + checkCodeOf f * 2 ^ 8)

/-- When every tower has reported ready, the self-test is complete (R586, R589); BU that an exit from PATROL lent are back
with their holders (R39). -/
def State.selftestEnds (s : State) : State :=
  if !s.dev.startup.isEmpty || s.rd Reg.DEV.READY.TOWER != 255 then s
  else
    let s := (s.wr Reg.DEV.READY.SELFTEST 1).wrb Reg.DEV.READY.PASSED (!s.dev.bad)
    if s.dev.cold then
      let s := { s with dev := { s.dev with cold := false } }
      let ms := min ((s.now - s.dev.releasedAt) / fsMs) 65535
      (s.wr Reg.DEV.BOOT.TESTMS ms).post 0x0E01 sevInfo srcDevice (255 + b2n (!s.dev.bad) * 2 ^ 8)
    else s

/-- A tower reports ready (R38 step 9, R290, R595); `routers` says whether its routers return to service (R589), `wires` what the
test of its corridors found (R268). -/
def State.towerReports (s : State) (t ms : Nat) (routers : Bool) (wires : List (Nat × Nat × Option Bool)) : State :=
  let s := (s.drainEnds t).leaveStartup t
  let s := s.wr (Reg.DEV.SELFTEST.MS t) (min ms 65535)
  let s := s.wr (Reg.DEV.SELFTEST.FAILED t) ((s.fab.failed.filter fun w => w / 64 = t).length)
  let s := if routers then s.setRouters t true else s
  let s := s.wr Reg.DEV.READY.TOWER (setBits (s.rd Reg.DEV.READY.TOWER) t t 1)
  ((s.reloadWings (towerWings t)).corridorsTested t wires).admitTowers.selftestEnds

/-- The settle unit of a wing is calibrated (R67-R69): the trim code that meets R67 is set and one SU is 1.08 times the delay of the
reference path, or the wing has failed. -/
def State.trimWing (s : State) (w delay : Nat) (code : Option Nat) : State :=
  match code with
  | some c => { s with fab := { s.fab with
      trim := s.fab.trim.upd 0 w (c % 64), su := s.fab.su.upd 0 w (delay * 108 / 100) } }
  | none => s.failWing w

/-- A tower completes R38 (R38, R68, R69, R240, R241, R589, R598): the spare map, the tuned delays, the bond test, the attic test, the
settle units, and the report. -/
def State.towerTested (s : State) (t : Nat) (x : TowerTest) : State :=
  let cal := (s.applySpares t).calibrate t x.windows
  let bonds := cal.1.testBonds x.badBonds
  let a := bonds.1.atticTest t x.badBlocks
  let checkers := (x.badCheckers.map fun w => 64 * t + w % 64).filter fun w => !a.1.fab.failed.contains w
  let s := checkers.foldl State.failWing a.1
  let s := if checkers.isEmpty then s
    else (s.wrb (Reg.ATC.STAT.SELFTEST t) false).wrb (Reg.DEV.SELFTEST.ATTIC t) false
  let before := s.fab.failed
  let s := x.su.foldl (fun s y => s.trimWing (64 * t + y.1 % 64) y.2.1 y.2.2) s
  let untrimmed := !(s.fab.failed.all before.contains)
  let s := (s.wrb (Reg.DEV.SELFTEST.CALIB t) (cal.2 == 0)).wrb (Reg.DEV.SELFTEST.BONDS t) (bonds.2 == 0)
  let s := (s.wrb (Reg.DEV.SELFTEST.SU t) !untrimmed).wr (Reg.DEV.SELFTEST.CONDEMNED t) (min (cal.2 + bonds.2) 1023)
  let fails := (if cal.2 = 0 then [] else [CheckFail.calibration]) ++ (if bonds.2 = 0 then [] else [CheckFail.bonds]) ++
    if untrimmed then [CheckFail.su] else []
  let s := fails.foldl (fun s f => s.selftestFail t f) s
  let s := if a.2 || !checkers.isEmpty then { s with dev := { s.dev with bad := true } } else s
  s.towerReports t x.ms true x.badWires

/-- Whether the time clock reaches the cellars (R46, R50): its loop is locked, or coasts. -/
def State.timeClockUp (s : State) : Bool := bit (s.rd Reg.CLK.STAT.LOCKED) s.timeLoop || s.coasts s.timeLoop

/-- A tower that does not complete step 7 in time (R589): its routers are out of service.  Without a time clock it has never left step 1
(R50), and its beat loop is the check that failed (DEDUCED, assumption 127). -/
def State.towerTimesOut (s : State) (t : Nat) : State :=
  let s := (s.setRouters t false).powerOff (towerWings t)
  let s := (towerWings t).foldl State.failWing s
  (s.selftestFail t (if s.timeClockUp then .timeout else .beatLoop)).towerReports t 387 false []

end Sys2Proof.Machine
end

