-- ==== Sys2Proof/Machine/PowerOps.lean ====
section
/-! DEFINITION. What power states, deactivation and thermal trips share (R401, R410, R527, R560-R567): groups that sleep
and are released, the deactivation of a configuration, wake sources, domains that wake in HOLD. -/

namespace Sys2Proof.Machine

/-! ### Power states -/

/-- Whether a thermal trip holds the device until DEV_RST_N (R579). -/
def State.tripped (s : State) : Bool := s.rdb Reg.PWR.STATE.TRIPPED

/-- What the PCIe endpoint supports and reports (R468, R470, R474). -/
structure PcieCaps where
  speeds : Nat
  widths : List Nat
  functions : Nat
  classCode : Nat
  payloads : List Nat
  readRequests : List Nat
  tagBits : Nat
  vectors : Nat
  l1ExitNs : Nat
  bars : List (Nat × Nat × Bool)
  deriving DecidableEq, Repr

/-- The endpoint's capabilities: speeds 1 to 5 are 2.5 to 32.0 GT/s; sizes in bytes; the L1 exit latency that it reports, 8 µs (R470);
the BARs with their sizes and whether they are prefetchable (R474). -/
def pcieCaps : PcieCaps :=
  { speeds := 5, widths := [1, 2, 4, 8, 16], functions := 1, classCode := 0x120000, payloads := [128, 256, 512],
    readRequests := [128, 256, 512, 1024, 2048, 4096], tagBits := 10, vectors := 4, l1ExitNs := 8000,
    bars := [(0, 2 ^ 24, false), (2, 2 ^ 36, true), (4, 2 ^ 14, false)] }

/-- The link trains (R469, R471): down without PERST_N or its reference, held at 2.5 GT/s x1 in NAP and PATROL, else at a speed and a width
that both ends support, which are open.  A change that Keeper asks for sets the Link Autonomous Bandwidth Status bit. -/
def State.linkTrain (s : State) : State :=
  let low := decide (2 ≤ s.power)
  if s.hif.perst || !bit (s.rd Reg.CLK.STAT.REFOK) 1 then
    ((s.wr Reg.HIF.LINK.SPEED 0).wr Reg.HIF.LINK.WIDTH 0).wr Reg.HIF.LINK.LOWRATE 0
  else
    let asked := s.rdb Reg.HIF.LINK.LOWRATE != low && s.rd Reg.HIF.LINK.SPEED != 0
    let s := { s with hif := { s.hif with autoBw := s.hif.autoBw || asked } }
    if low then ((s.wr Reg.HIF.LINK.SPEED 1).wr Reg.HIF.LINK.WIDTH 1).wr Reg.HIF.LINK.LOWRATE 1
    else
      let d := s.drawWord
      let n := d.1.toNat
      let width := pcieCaps.widths.getD (n / 5 % 5) 1
      ((d.2.wr Reg.HIF.LINK.SPEED (1 + n % pcieCaps.speeds)).wr Reg.HIF.LINK.WIDTH width).wr Reg.HIF.LINK.LOWRATE 0

/-- HOLD is left: nothing is stopped, and GDDR6 leaves self-refresh (R560). -/
def State.unHold (s : State) : State :=
  (List.range 8).foldl (fun s k => s.leaveRefresh k false) { s with pwr := { s.pwr with domIdle := [] } }

/-- STEP_RUN, STEP_SINGLE and REEL_JOIN return the device from HOLD to ACTIVE before they act (R567). -/
def State.leaveHold (s : State) : State :=
  if s.power = 1 ∧ s.pwr.target = none then (s.unHold.wr Reg.PWR.STATE.STATE 0).post 0x0B01 sevInfo srcDevice 0 else s

/-- An exit from NAP or PATROL begins (R564-R566): from PATROL, every tower runs R38 (R565). -/
def State.beginExit (s : State) (state : Nat) (cmd : Option Nat) (cause : Nat) : State :=
  let s := ({ s with pwr := { s.pwr with target := some (state, cmd, s.now), wake := none } }.wr
    Reg.PWR.STATE.CHANGING 1).wr Reg.PWR.STATE.LASTWAKE cause
  if s.power = 3 then { s with dev := { s.dev with bad := false } }.startTowers (List.range 8) else s

/-- A change of state is complete (R560, R562, R581): the state is shown, the link trains, the command replies; a wake that
came during an entry starts the exit (R580). -/
def State.stateShown (s : State) (t : Nat) (cmd : Option Nat) : State :=
  let out := decide (2 ≤ s.power)
  let wake := s.pwr.wake
  let s := (s.wr Reg.PWR.STATE.STATE t).wr Reg.PWR.STATE.CHANGING 0
  let s := { s with pwr := { s.pwr with target := none, wake := none } }.linkTrain
  let cause := if out && cmd.isNone then s.rd Reg.PWR.STATE.LASTWAKE else 0
  let s := s.post 0x0B01 sevInfo srcDevice (t + cause * 2 ^ 4)
  let s := match cmd with
    | some id => s.complete id stOk 0 []
    | none => s
  match wake with
  | some w => if 2 ≤ t then s.beginExit 0 none w else s
  | none => s

/-- A wake source of R566: the device leaves NAP or PATROL; during an entry, the exit begins when the entry completes
(R580). -/
def State.wakeLogic (s : State) (cause : Nat) : State :=
  if s.tripped then s
  else match s.pwr.target with
    | some (t, _, _) => if t = 2 ∨ t = 3 then { s with pwr := { s.pwr with wake := some (s.pwr.wake.getD cause) } } else s
    | none => if 2 ≤ s.power then s.beginExit 0 none cause else s

/-- An access to a register of BAR0 (R476, R477): it takes effect where the hallway reaches the register's home, and it is
a wake source (R566); in HOLD it wakes the tower it reaches (R567). -/
def State.access (s : State) (a : Nat) (effect : State → State) : State :=
  if s.hif.perst then s
  else
    let st := s.bar0Status a
    let home := registerHome a
    let s := if st = hsOk then effect (if home < 0x10 then s.touch (home - 8) else s) else s.hallwayError false st a
    s.wakeLogic 1

/-! ### Lane groups -/

/-- The BU that a group holds now (R410): its transmitters hold none while they sleep. -/
def State.groupBu (s : State) (g : Group) : Nat :=
  let rate := s.rd (Reg.LANE.CFG.RATE g.first)
  if s.rdb (Reg.LANE.STAT.TXSLEEP g.first) then laneRxBu g.wlog rate else laneBu g.wlog rate

/-- A group's transmitters or receivers go to sleep (R401, R412). -/
def State.sleepGroup (s : State) (g : Group) (tx rx : Bool) : State :=
  let first := g.first
  let s := if tx && !s.rdb (Reg.LANE.STAT.TXSLEEP first) then
      (s.laneSet Reg.LANE.STAT.TXSLEEP first g.wlog 1).ungrant 0x11 (2 ^ g.wlog)
    else s
  let s := if rx then s.laneSet Reg.LANE.STAT.RXSLEEP first g.wlog 1 else s
  if tx || rx then s.laneSet Reg.LANE.STAT.STATE first g.wlog 3 else s

/-- A group released: disabled, its BU returned, its Reel link state gone (R410, R527). -/
def State.laneOff (s : State) (first : Nat) : State :=
  match s.group first with
  | none => s
  | some g =>
    let s := s.ungrant 0x11 (s.groupBu g)
    let s := (groupLanes first g.wlog).foldl (fun s n =>
      (s.store (Reg.LANE.CFG.RATE n).addr 0).store (Reg.LANE.STAT.STATE n).addr 0) s
    let s := s.store (Reg.LANE.LINK2.HELD first).addr 0
    { s with groups := s.groups.filter fun h => h.first ≠ first }

/-! ### Deactivation -/

/-- Every context becomes EMPTY (R527). -/
def State.emptyContexts (s : State) : State :=
  let s := (List.range 4).foldl (fun s c =>
    ((s.wr (planeStateF c) 0).wr (planeFreshF c) 0).wr (Reg.CTX.DIGEST.DIGEST c) 0) s
  { s with cfg := { s.cfg with ctxs := [.empty, .empty, .empty, .empty], planes := [], brokenWc := [] } }

/-- The active configuration is deactivated in the order of R527; an engine found RUNNING or HUNG stops with cause 9. -/
def State.deactivate (s : State) : State :=
  let s := match s.step.op with
    | some o => { s with step := { s.step with op := none } }.complete o.cmd stAborted 0 []
    | none => s
  let s := s.dropWait stAborted
  let s := s.haltNow 9 seUnconfigured
  let s := (s.wr Reg.STEP.STAT.STATE seUnconfigured).wr Reg.STEP.STAT.PENDING 0
  let s := { s with step := { s.step with saved := none, closingOwed := false, aheadBad := false } }.emptyContexts
  let s := (List.range 16).foldl (fun s b =>
    (s.store (Reg.IOB.CFG.ACTIVE b).addr
      (toWord (b2n (s.rdb (Reg.IOB.CFG.VLOWSEEN b)) * 2 ^ 15)))) s
  let s := { s with pins := { s.pins with
    output := [], timed := [], pinWord := [], fifos := [] } }
  let s := s.releaseCuesOf fnOutput
  let s := s.cfg.lanesetGroups.foldl State.laneOff s
  let owners := s.attic.owner.filter fun o => o.2 = .trace
  let s := { s with
    cfg := { s.cfg with lanesetGroups := [], channels := [] }
    attic := { s.attic with owner := owners } }
  let s := s.powerOff s.fab.powered
  let s := { s with fab := { s.fab with isoJob := [] } }
  let s := (s.setHeld 0x0B 0).setGrant 0
  let s := (s.wr Reg.STEP.BUDGET.DEMAND 0).wr Reg.CFG.STAT.ACTIVE 0
  ((s.wr Reg.CFG.DIGEST.DIGEST 0).pacingSync).corrSync.showNext

/-! ### Set-aside -/

/-- BU of a holder set aside (R571). -/
def State.setAside (s : State) (h n : Nat) : State :=
  let n := min n (s.holds h)
  { s.ungrant h n with ledger := { (s.ungrant h n).ledger with
      aside := s.ledger.aside.upd 0 h (s.ledger.aside.at 0 h + n) } }

/-- Every BU set aside returns to its holder (R571). -/
def State.returnAside (s : State) : State :=
  let s' := s.ledger.aside.foldl (fun s a => s.grantAlways a.1 a.2) s
  { s' with ledger := { s'.ledger with aside := [] } }

end Sys2Proof.Machine
end

