-- ==== Sys2Proof/Machine/G6Serve.lean ====
section
/-! DEFINITION. How a GDDR6 controller answers and serves the requests of its queue (R315, R326, R335), and how a configuration start
ends protection (R342, R367). -/

namespace Sys2Proof.Machine

/-- The request that controller `k` serves next: while a full G6_INIT waits for the requests queued before it, the first of
those (R335). -/
def State.g6Turn (s : State) (k : Nat) : Option (Packet × Option Nat) :=
  if s.g6.job.any fun j => decide (0 < j.older.at 0 k) then (s.g6Queue k).head?.map fun p => (p, none) else s.g6Next k

/-- Whether controller `k` serves a request queued before a full G6_INIT (R335). -/
def State.g6Older (s : State) (k : Nat) : Bool := s.g6.job.any fun j => decide (0 < j.older.at 0 k)

/-- A request leaves a controller's queue; `turn` is the real-time port in panic that it was served for (R330). -/
def State.g6Take (s : State) (k : Nat) (p : Packet) (turn : Option Nat) : State :=
  let s := s.leaveTarget (0x20 + k, p)
  { s with
    g6 := { s.g6 with
      answered := s.g6.answered.erase p
      rtTurn := match turn with
        | some j => s.g6.rtTurn.upd 3 k j
        | none => s.g6.rtTurn } }

/-- A controller answers a request (R272, R274, R326). -/
def State.g6Answer (s : State) (k : Nat) (p : Packet) (e : G6End) : State :=
  let q := p.response e.status e.err e.data
  s.enterRouter (s.responseRouter (0x20 + k) p)
    { q with type := if e.plain then 0xA else q.type, data := if e.plain then [] else q.data, ready := s.now }

/-- A write that joins a controller's queue is answered then (R315), unless performing it now would end with another status: that
answer comes when it is performed. -/
def State.g6Accept (s : State) (k : Nat) (p : Packet) : State :=
  if p.type = 2 ∧ !(s.g6.job.any fun (j : G6Job) => j.full) ∧ (s.g6Perform p false (.clean 0) false).2.status = hsOk then
    { s with g6 := { s.g6 with answered := s.g6.answered ++ [p] } }.g6Answer k p (.refusal hsOk)
  else s

/-- A request served by its controller, with what the link does, what has changed in the devices, and whether the root of its channel
cannot be read.  A write answered in the queue (R315) that fails all the same has its error response sent as well (R326; DEDUCED,
assumption 112). -/
def State.serveG6 (s : State) (k : Nat) (p : Packet) (turn : Option Nat) (link : LinkEnd) (changed : List (Nat × List Nat))
    (rootBad : Bool) : State :=
  let older := s.g6Older k
  let early := s.g6.answered.contains p
  let s := (s.g6Take k p turn).disturb changed
  let s :=
    if s.expired p ∧ !early then s.countExpired (s.responseRouter (0x20 + k) p)
    else
      let r := s.g6Perform p (older || early) link rootBad
      if early ∧ r.2.status = hsOk then r.1 else r.1.g6Answer k p r.2
  (s.touch (8 + k)).rtSync k

/-- Requests to protected units that are in the controllers' queues complete (R342 step 1). -/
def State.drainProtected (s : State) : State :=
  (List.range 8).foldl (fun s k =>
    (s.g6Queue k).foldl (fun s p =>
      let u := p.addr / 0x40000000
      if s.unitMode u = 1 ∨ s.unitMode u = 2 then s.serveG6 k p none (.clean 0) [] false else s) s) s

/-- A SET or REINIT in progress ends with a status. -/
def State.cryptJobEnds (s : State) (status : Nat) : State :=
  match s.crypt.job with
  | some j => ({ s with crypt := { s.crypt with job := none } }.wr Reg.CRYPT.STAT.BUSY 0).complete j.1 status 0 []
  | none => s

/-- Every copy of the start key is erased with what depends on it (R341, R342, R361). -/
def State.eraseKey (s : State) : State :=
  let s := (s.cryptJobEnds stAborted).unprotect
  let s := { s with crypt := { s.crypt with highwater := [], stuck := [] } }
  (s.wr Reg.CRYPT.STAT.FATAL 0).wr Reg.CRYPT.STAT.KEY 0

end Sys2Proof.Machine
end

