-- ==== Sys2Proof/Machine/Lanes.lean ====
section
/-! DEFINITION. Fabric lanes and time lanes (10_lanes.md): LANE_SETUP, LANE_LOOP, LANE_STATUS and LANE_SLEEP, groups that
come up and go down, acknowledgement timers, wake patterns, Ethernet links. -/

namespace Sys2Proof.Machine

/-! ### Setup -/

/-- Whether a spread lies in the window of R378: a depth in 0.05%, a rate in kHz. -/
def spreadOk (depth rate : Nat) : Bool := depth == 0 || (decide (depth ≤ 10) && decide (30 ≤ rate) && decide (rate ≤ 33))

/-- Whether a spread on the system reference path lies outside the window of R378: the declared one, or one of an output
with SYSREF (R551). -/
def State.spreadBad (s : State) : Bool :=
  !spreadOk (s.rd Reg.CLK.SYSSPREAD.DEPTH) (s.rd Reg.CLK.SYSSPREAD.RATE) ||
    (List.range 4).any fun o =>
      s.rdb (Reg.CLK.DOM.SYSREF (8 + o)) && !spreadOk (s.clk.outDepth.at 0 o) (s.clk.outRate.at 0 o)

/-- Lanes of a span that belong to an enabled group with another FIRST or WLOG (R409). -/
def State.lanesTaken (s : State) (first wlog : Nat) : Bool :=
  s.groups.any fun g => !(g.first == first && g.wlog == wlog) &&
    decide (g.first < first + 2 ^ wlog) && decide (first < g.first + 2 ^ g.wlog)

/-- The BU that a group holds now, 0 where none has that first lane. -/
def State.groupHolds (s : State) (first : Nat) : Nat := ((s.group first).map s.groupBu).getD 0

/-- A group set up from LANE_SETUP words 0 to 2 (R409, R514): enabled and awake, its Reel link new, training. -/
def State.enableGroup (s : State) (w0 w1 w2 : Nat) (inUse : Bool) : State :=
  let first := bits w0 6 0
  let wlog := bits w0 10 8
  let rate := bits w0 13 12
  let s := s.setHeld 0x11 (s.holds 0x11 - s.groupHolds first + laneBu wlog rate)
  let s := if (s.group first).isSome then s.discardLink first else s
  let s := { s with groups := s.groups.filter (fun (g : Group) => g.first ≠ first) ++
    [{ Group.new first wlog (bits w2 9 0) (bits w2 21 16) with syncAt := s.now }] }
  let s := s.store (Reg.LANE.LINK2.HELD first).addr 0
  (groupLanes first wlog).foldl (fun s n =>
    let i := n - first
    let s := s.store (Reg.LANE.CFG.RATE n).addr (toWord (rate + wlog * 2 ^ 2 + first * 2 ^ 5 + 2 ^ 11 +
      b2n (bit w1 i) * 2 ^ 12 + b2n (bit w1 (16 + i)) * 2 ^ 13 + bits w1 35 32 * 2 ^ 14 + b2n (bit w0 18) * 2 ^ 18 +
      b2n (bit w0 17) * 2 ^ 19 + bits w0 31 24 * 2 ^ 20 + b2n inUse * 2 ^ 28))
    let s := (s.wr (Reg.LANE.STAT.STATE n) 1).wr (Reg.LANE.STAT.BLOCKLOCK n) 0
    (s.wr (Reg.LANE.STAT.TXSLEEP n) 0).wr (Reg.LANE.STAT.RXSLEEP n) 0) s

/-- A time lane set up or disabled (R405, R409, R410). -/
def State.setupTimeLane (s : State) (t : Nat) (on : Bool) (mode addr : Nat) : State :=
  let was := s.rd (Reg.ETH.CFG.MODE t) != 0
  let s := if on && !was then s.grantAlways 0x12 2 else if !on && was then s.ungrant 0x12 2 else s
  let s := s.ethLink t false
  (s.wr (Reg.ETH.CFG.MODE t) (if on then mode else 0)).wr (Reg.ETH.CFG.ADDR t) (if on then addr else 0)

/-- Whether the words of a LANE_SETUP break R380 or R409. -/
def laneWordsBad (w0 : Nat) : Bool :=
  let first := bits w0 6 0
  let wlog := bits w0 10 8
  decide (67 < first) ||
    (if first < 64 then decide (4 < wlog) || decide (first % 2 ^ wlog ≠ 0)
      else wlog != 0 || bits w0 13 12 == 0) ||
    (bit w0 17 && bits w0 31 24 == 0)

/-- The payload of LANE_SETUP: word 3 belongs to time lanes only (R409). -/
def laneSetupLen (ws : List Word) : Bool :=
  ws.length == if bits ((ws.getD 0 0).toNat) 6 0 < 64 then 3 else 4

/-- LANE_SETUP (R409, R411, R412). -/
def laneSetupBody (c : Cmd) (s : State) : State :=
  let first := c.f 0 6 0
  let wlog := c.f 0 10 8
  let rate := c.f 0 13 12
  let on := c.b 0 16
  let old := s.group first
  let asked := if on then (if old.isSome && s.rd (Reg.LANE.CFG.RATE first) == rate && !s.rdb (Reg.LANE.STAT.TXSLEEP first)
    then s.groupHolds first else laneBu wlog rate) else 0
  let timeBu := if on && s.rd (Reg.ETH.CFG.MODE (first - 64)) == 0 then 2 else 0
  s.checked c
    [(c.reserved [[(6, 0), (10, 8), (13, 12), (16, 16), (17, 17), (18, 18), (31, 24)], [(15, 0), (31, 16), (35, 32)],
        [(9, 0), (21, 16)], [(47, 0)]] || laneWordsBad (c.w 0), stBadParam, 0),
     (decide (first < 64) && old.isSome && s.rdb (Reg.LANE.CFG.INUSE first), stState, 0),
     (decide (first < 64) && on && s.spreadBad, stState, 0),
     (old.any fun g => g.loop.isSome, stBusy, 0),
     (decide (first < 64) && s.lanesTaken first wlog, stTaken, 0),
     (if first < 64 then decide (asked > s.groupHolds first + s.freeBu) else decide (timeBu > s.freeBu), stBudget, 0)]
    fun s =>
      let s := if first < 64 then
          if on then s.enableGroup (c.w 0) (c.w 1) (c.w 2) false
          else if old.isSome then (s.discardLink first).laneOff first else s
        else s.setupTimeLane (first - 64) on rate (c.f 3 47 0)
      s.ok c []

/-- LANE_SETUP's command. -/
def laneSetupCmd : Command := command 0x0701 laneSetupLen laneSetupBody

/-- LANE_SETUP (R409). -/
def execLaneSetup (dt : Nat) (hdr : CmdHdr) (ws : List Word) (s : State) : Answer :=
  s.event dt fun s => s.issueCmd laneSetupCmd hdr ws

/-! ### Loops -/

/-- The enabled group that a lane belongs to. -/
def State.groupOf (s : State) (lane : Nat) : Option Group :=
  s.groups.find? fun g => g.first ≤ lane ∧ lane < g.first + 2 ^ g.wlog

/-- A loop ends: the group comes up again under R383 (R398). -/
def State.endLoop (s : State) (g : Group) : State :=
  (s.setGroup { g with loop := none }).laneSet Reg.LANE.STAT.STATE g.first g.wlog 1

/-- LANE_LOOP (R398, R399, R408, R409). -/
def laneLoopBody (c : Cmd) (s : State) : State :=
  let lane := c.f 0 5 0
  let loop := c.f 0 9 8
  let prbs := c.b 0 12
  let dur := c.f 1 31 0
  let g := s.groupOf lane
  s.checked c
    [(c.reserved [[(5, 0), (9, 8), (12, 12)], [(31, 0)]] || decide (10000000 < dur) || g.isNone ||
        (prbs && loop == 3) || (prbs && loop != 0 && dur == 0), stBadParam, 0),
     (g.any (fun g => s.rdb (Reg.LANE.CFG.INUSE g.first)), stState, 0),
     (loop != 0 && g.any (fun g => g.loop.isSome), stBusy, 0)]
    fun s =>
      match g with
      | none => s
      | some g =>
        if loop = 0 then
          match g.loop with
          | some (l, _, cmd, _) =>
            if l = lane then
              let s := s.endLoop g
              ((cmd.map fun id => s.complete id stAborted 0 []).getD s).ok c []
            else s.ok c []
          | none => s.ok c []
        else
          let until_ := if dur = 0 then 0 else s.now + dur * fsUs
          let s := s.setGroup { g with loop := some (lane, loop, if prbs then some c.id else none, until_) }
          let s := (s.laneSet Reg.LANE.STAT.STATE g.first g.wlog 3).wr (Reg.LANE.STAT.STATE lane) 4
          if prbs then s else s.ok c []

/-- LANE_LOOP's command. -/
def laneLoopCmd : Command := command 0x0702 (exactly 2) laneLoopBody

/-- LANE_LOOP (R398). -/
def execLaneLoop (dt : Nat) (hdr : CmdHdr) (ws : List Word) (s : State) : Answer :=
  s.event dt fun s => s.issueCmd laneLoopCmd hdr ws

/-- LOOP_DURATION_END (R399): a loop's DURATION has passed; a PRBS loop replies with the bits checked and the bit errors. -/
def execLoopDurationEnd (dt lane nbits errors : Nat) (s : State) : Answer :=
  s.event dt fun s =>
    match s.groupOf lane with
    | none => s
    | some g =>
      match g.loop with
      | none => s
      | some (l, _, cmd, until_) => s.whenever (l == lane && until_ != 0 && decide (until_ ≤ s.now)) fun s =>
          let s := s.endLoop g
          match cmd with
          | some id => s.complete id stOk 0 [toWord nbits, toWord errors]
          | none => s

/-! ### Status and sleep -/

/-- LANE_STATUS (R409). -/
def laneStatusBody (c : Cmd) (s : State) : State :=
  let first := c.f 0 6 0
  let n := c.f 0 14 8
  s.checked c [(c.reserved [[(6, 0), (14, 8)]] || n == 0 || decide (68 < first + n), stBadParam, 0)] fun s =>
    let lanes := (List.range n).map (first + ·)
    let two := fun (l : Nat) =>
      if l < 64 then [s.readReg (Reg.LANE.CFG.RATE l).addr, s.readReg (Reg.LANE.STAT.STATE l).addr]
      else [s.readReg (Reg.ETH.CFG.MODE (l - 64)).addr, s.readReg (Reg.ETH.STAT.LINK (l - 64)).addr]
    let links := (lanes.filter fun l => (s.group l).isSome).map fun l => s.readReg (Reg.LANE.LINK2.HELD l).addr
    s.ok c (lanes.flatMap two ++ links)

/-- LANE_STATUS's command. -/
def laneStatusCmd : Command := command 0x0703 (exactly 1) laneStatusBody

/-- LANE_STATUS (R409). -/
def execLaneStatus (dt : Nat) (hdr : CmdHdr) (ws : List Word) (s : State) : Answer :=
  s.event dt fun s => s.issueCmd laneStatusCmd hdr ws

/-- A group's transmitters or receivers wake (R402, R412); the transmitters send the wake pattern for 2 µs. -/
def State.wakeGroup (s : State) (g : Group) (tx rx : Bool) : State :=
  let txWakes := tx && s.rdb (Reg.LANE.STAT.TXSLEEP g.first)
  let rxWakes := rx && s.rdb (Reg.LANE.STAT.RXSLEEP g.first)
  let s := if txWakes then
      ((s.laneSet Reg.LANE.STAT.TXSLEEP g.first g.wlog 0).grantAlways 0x11 (2 ^ g.wlog)).setGroup
        { g with wakeUntil := some (s.now + 2 * fsUs) }
    else s
  let s := if rxWakes then s.laneSet Reg.LANE.STAT.RXSLEEP g.first g.wlog 0 else s
  if txWakes || rxWakes then s.trainIfAwake g else s

/-- LANE_SLEEP (R401, R408, R409, R412). -/
def laneSleepBody (c : Cmd) (s : State) : State :=
  let first := c.f 0 5 0
  let tx := c.b 0 8
  let rx := c.b 0 9
  let sleep := c.b 0 10
  let g := s.group first
  let need := match g with
    | some g => if tx && !sleep && s.rdb (Reg.LANE.STAT.TXSLEEP first) then 2 ^ g.wlog else 0
    | none => 0
  s.checked c
    [(c.reserved [[(5, 0), (8, 8), (9, 9), (10, 10), (12, 12)]] || g.isNone, stBadParam, 0),
     (s.rdb (Reg.LANE.CFG.INUSE first), stState, 0),
     (g.any (fun g => g.loop.isSome), stBusy, 0),
     (decide (s.freeBu < need), stBudget, 0)]
    fun s =>
      match g with
      | none => s
      | some g =>
        let s := s.laneSet Reg.LANE.CFG.WAKESRC first g.wlog (b2n (c.b 0 12))
        (if sleep then s.sleepGroup g tx rx else s.wakeGroup g tx rx).ok c []

/-- LANE_SLEEP's command. -/
def laneSleepCmd : Command := command 0x0704 (exactly 1) laneSleepBody

/-- LANE_SLEEP (R401). -/
def execLaneSleep (dt : Nat) (hdr : CmdHdr) (ws : List Word) (s : State) : Answer :=
  s.event dt fun s => s.issueCmd laneSleepCmd hdr ws

/-! ### Groups come up and go down -/

/-- Whether a group tries to come up (R383, R384): training, or down but not for a miswire, awake, not in a loop, past its
wake pattern, its porch's loop running. -/
def State.tries (s : State) (g : Group) : Bool :=
  let st := s.rd (Reg.LANE.STAT.STATE g.first)
  (st == 1 || (st == 3 && s.rd (Reg.LANE.STAT.CAUSE g.first) != 5)) && !s.rdb (Reg.LANE.STAT.TXSLEEP g.first) &&
    !s.rdb (Reg.LANE.STAT.RXSLEEP g.first) && g.loop.isNone && g.wakeUntil.isNone && !s.coasts (5 + g.first / 32)

/-- GROUP_UP (R382, R383): the lanes lock and align; a skew above 32 blocks or a partner other than the one set takes the
group down, else it is UP and its Reel link starts. -/
def execGroupUp (dt first seat seenFirst seenWlog : Nat) (skews : List Nat) (s : State) : Answer :=
  s.event dt fun s =>
    match s.group first with
    | none => s
    | some g => s.whenever (s.tries g) fun s =>
        let used := (List.range (2 ^ g.wlog)).map fun i => skews.getD i 0
        let s := used.zipIdx.foldl (fun s x => s.wr (Reg.LANE.STAT.SKEW (first + x.2)) (min x.1 63)) s
        if used.any fun k => decide (32 < k) then s.groupDown first g.wlog 4
        else if seat ≠ g.pseat ∨ seenFirst ≠ g.pfirst ∨ seenWlog ≠ g.wlog then
          (s.groupDown first g.wlog 5).post 0x0703 sevError (laneSource first)
            (first + seat % 1024 * 2 ^ 16 + seenFirst % 64 * 2 ^ 26)
        else
          let s := s.laneSet Reg.LANE.STAT.STATE first g.wlog 2
          let s := s.laneSet Reg.LANE.STAT.BLOCKLOCK first g.wlog 1
          let s := (s.laneSet Reg.LANE.STAT.LOS first g.wlog 0).laneSet Reg.LANE.STAT.LOL first g.wlog 0
          (s.post 0x0701 sevInfo (laneSource first) (first + g.wlog * 2 ^ 8)).linkStart first

/-- The code of `LANE.STAT.CAUSE` (R414). -/
def downCode : DownCause → Nat
  | .los => 1
  | .lol => 2
  | .blockLock => 3
  | .skew => 4
  | .rate => 6
  | .reflossSys => 8

/-- What a lane's detectors show of a loss (R400): a lane with a direction asleep counts no loss of signal, and one whose receiver
sleeps keeps only its wake detector (R401). -/
def State.laneLoss (s : State) (lane : Nat) (cause : DownCause) : State :=
  let tx := s.rdb (Reg.LANE.STAT.TXSLEEP lane)
  let rx := s.rdb (Reg.LANE.STAT.RXSLEEP lane)
  match cause with
  | .los => if tx || rx then s else (s.wr (Reg.LANE.STAT.LOS lane) 1).count (Reg.LANE.ERR.LOSCNT lane) 1
  | .lol => if rx then s else (s.wr (Reg.LANE.STAT.LOL lane) 1).count (Reg.LANE.ERR.LOLCNT lane) 1
  | _ => s

/-- GROUP_GOES_DOWN (R377, R384, R400): a lane's detectors show a loss, after the blocks that it received; an UP group goes down whole. -/
def execGroupGoesDown (dt lane : Nat) (loss : LaneLoss) (s : State) : Answer :=
  s.event dt fun s =>
    match s.groupOf lane with
    | none => s
    | some g =>
      let s := (s.strayBlocks g.first loss.others).laneLoss lane loss.cause
      if s.laneUp g.first then s.groupDown g.first g.wlog (downCode loss.cause) else s

/-- MISWIRE_RETRY (R384): a miswired group tries again every 10 ms. -/
def execMiswireRetry (dt first : Nat) (s : State) : Answer :=
  s.event dt fun s =>
    match s.group first with
    | none => s
    | some g =>
      s.whenever (s.rd (Reg.LANE.STAT.STATE first) == 3 && s.rd (Reg.LANE.STAT.CAUSE first) == 5 &&
          decide (g.downAt + 10 * fsMs ≤ s.now)) fun s => s.trainIfAwake g

/-! ### Acknowledgement -/

/-- ACK_NACK_RECEIVE (R386, R390, R392). -/
def execAckNackReceive (dt first start : Nat) (data : FrameData) (ending : FrameEnd) (s : State) : Answer :=
  let frame : LaneFrame := ⟨start, data.word, data.payload, ending.crc, ending.others⟩
  s.event dt fun s =>
    s.whenever (s.laneHears first && (rxKind frame == kindAck || rxKind frame == kindNack)) fun s =>
      s.hearFrame first frame fun s =>
        if rxKind frame = kindNack then (s.count (Reg.LANE.LINK1.NACKS first) 1).goBack first else s

/-- ACK_TIMER_EXPIRY (R392): frames accepted that no START has acknowledged, and no START sent for 1 µs. -/
def execAckTimerExpiry (dt first : Nat) (s : State) : Answer :=
  s.event dt fun s =>
    match s.group first with
    | none => s
    | some g => s.whenever (s.laneSends first && g.unacked && decide (g.startAt + fsUs ≤ s.now)) fun s =>
        s.sendNow first kindAck 0 []

/-- REPLAY_TIMEOUT (R392): the oldest held frame has had no acknowledgement for 4 µs. -/
def execReplayTimeout (dt first : Nat) (s : State) : Answer :=
  s.event dt fun s =>
    match s.group first with
    | none => s
    | some g => s.whenever (s.laneSends first && !g.txHeld.isEmpty && decide (g.ackedAt + 4 * fsUs ≤ s.now)) fun s =>
        s.goBack first

/-- NACK_HOLDOFF_END (R391): 2 µs after a NACK another may be sent. -/
def execNackHoldoffEnd (dt first : Nat) (s : State) : Answer :=
  s.event dt fun s =>
    match s.group first with
    | none => s
    | some g => s.whenever (g.nackUntil.any fun t => decide (t ≤ s.now)) fun s =>
        s.setGroup { g with nackUntil := none }

/-! ### Wake -/

/-- WAKE_PATTERN_DETECT (R403, R404, R566): a sleeping receiver wakes, and a group with WAKESRC signals the wake logic; in
NAP and PATROL only such a group's detectors are powered. -/
def execWakePatternDetect (dt first : Nat) (s : State) : Answer :=
  s.event dt fun s =>
    match s.group first with
    | none => s
    | some g =>
      let src := s.rdb (Reg.LANE.CFG.WAKESRC first)
      s.whenever (s.rdb (Reg.LANE.STAT.RXSLEEP first) && (src || decide (s.power < 2))) fun s =>
        let s := if s.power < 2 then (s.laneSet Reg.LANE.STAT.RXSLEEP first g.wlog 0).trainIfAwake g else s
        let s := s.post 0x0705 sevInfo (laneSource first) (first + b2n src * 2 ^ 8)
        if src then s.wakeLogic 2 else s

/-- WAKE_PATTERN_END (R402): after 2 µs the transmitters go on with IDLE and MARKER blocks. -/
def execWakePatternEnd (dt first : Nat) (s : State) : Answer :=
  s.event dt fun s =>
    match s.group first with
    | none => s
    | some g => s.whenever (g.wakeUntil.any fun t => decide (t ≤ s.now)) fun s =>
        s.setGroup { g with wakeUntil := none }

/-! ### Time lanes -/

/-- ETH_LINK_CHANGE (R405): the link of an enabled time lane comes up or goes down. -/
def execEthLinkChange (dt lane : Nat) (up : Bool) (s : State) : Answer :=
  s.event dt fun s => s.whenever (decide (lane < 4) && s.rd (Reg.ETH.CFG.MODE lane) != 0 &&
    (!up || (!s.coasts (7 + lane / 2) && decide (s.power < 2)))) fun s => s.ethLink lane up

end Sys2Proof.Machine
end

