-- ==== Sys2Proof/Machine/CtxOps.lean ====
section
/-! DEFINITION. CTX_MODE and CTX_SELECT (R151-R153): what a new set of contexts needs, the refills that bring fresh
contexts into use, and what a failed refill puts back. -/

namespace Sys2Proof.Machine

/-- The contexts that a context mode puts in use (R119). -/
def newSet (mode sel qcount rotlen slots : Nat) : List Nat :=
  if mode = 1 then List.range qcount
  else if mode = 2 then ((List.range rotlen).map fun i => bits slots (2 * i + 1) (2 * i)).eraseDups
  else [sel]

/-- Whether contexts `C0` to `C(n-1)` make up a fold (R133). -/
def foldOk (cs : List CtxCfg) (n : Nat) : Bool :=
  (cs.take n).zipIdx.all fun x =>
    x.1.foldTag == (cs.headD .empty).foldTag && x.1.foldCount == n && x.1.phase == x.2

/-- Whether a context owns the banks of a slice (R206). -/
def CtxCfg.ownsSlice (c : CtxCfg) : Bool := c.wings.any fun w => w.2.macs.any fun m => m.2.bankDesign

/-- The largest hop bound of a set of reel groups, in 0.125 ns (R376): 96 ns, or 180 ns at RATE 3. -/
def State.reelHop (s : State) (groups : List Nat) : Nat :=
  maxList (groups.map fun g => if s.rd (Reg.LANE.CFG.RATE g) = 3 then 1440 else 768)

/-- The promises of a set of contexts under a context mode (R73, R74, R141). -/
def State.promises (s : State) (cmode : Nat) (cs : List Nat) : List Nat :=
  (if cmode = 1 then [0] else cs).map fun c => s.rd (Reg.STEP.PSP.PSP c)

/-- Whether a set of contexts breaks the pace period: R80 in PACED mode, R446 in REEL mode (R153). -/
def State.paceBroken (s : State) (cmode : Nat) (cs : List Nat) : Bool :=
  let p := s.rd Reg.STEP.PACE.PERIOD
  let top := maxList (s.promises cmode cs)
  match s.rd Reg.STEP.CTRL.MODE with
  | 1 => decide (p < top)
  | 3 => decide (p < top + s.reelHop ((s.time.reel.map Reel.groups).getD []))
  | _ => false

/-- The refusals of CTX_MODE and CTX_SELECT beside their own fields (R151, R153); `other` is a state not allowed. -/
def State.setRefusals (s : State) (other : Bool) (cmode : Nat) (cs : List Nat) : List (Bool × Nat × Nat) :=
  [(s.paceBroken cmode cs, stBadParam, 0),
   (other || s.engine ≠ seHalted || s.rdb Reg.STEP.STAT.PENDING || cs.any (fun c => s.plane c != 2 && s.plane c != 3),
      stState, 0),
   (s.engineBusy, stBusy, 0)]

/-- What a CTX_MODE or CTX_SELECT put in use, put back, with its command's reply (R153). -/
def State.opUndo (s : State) (o : CtxOp) (status detail : Nat) : State :=
  let s := s.powerOff o.wings
  let s := { s with
    fab := { s.fab with
      active := o.oldActive, next := o.oldNext
      refills := s.fab.refills.filter fun r => r.serves ≠ 2 }
    step := { s.step with op := none } }
  let s := ((s.wr Reg.CTX.MODE.ACTCTX o.oldActctx).store Reg.CTX.SWCOUNT.COUNT.addr o.oldSwcount).store
    Reg.STEP.BUDGET.DEMAND.addr o.oldBudget
  ((s.setHeld 0x0A o.oldGrant).setHeld 0x0B o.oldDirs).complete o.cmd status detail []

/-- A fault that the step engine owes with no step in progress (R91, R264). -/
def State.owedFault (s : State) : State :=
  if s.step.faultOwed ∧ s.step.cur.isNone then s.stopEngine 5 seFault else s

/-- Every refill of a CTX_MODE or CTX_SELECT has acknowledged: the new set is in use (R119, R152, R164, R676). -/
def State.opDone (s : State) (o : CtxOp) : State :=
  let act := s.rd Reg.CTX.MODE.ACTCTX
  let before := s.ctxsInUse
  let s := ((s.store Reg.CTX.MODE.MODE.addr o.modeWord).wr Reg.CTX.MODE.ACTCTX act).store Reg.CTX.ROTATION.SLOTS.addr
    o.rotWord
  let s := before.foldl (fun s c => if o.ctxs.contains c then s else s.wr (planeStateF c) 2) s
  let s := o.ctxs.foldl (fun s c => (s.wr (planeStateF c) 3).wr (planeFreshF c) 0) s
  let s := o.wings.foldl (fun s w => (o.ctxs.filter fun c => !o.fresh.contains c).foldl (fun s c => s.initWing c w) s) s
  let s := o.fresh.foldl State.initCtx s
  let s := s.setHeld 0x0B (2 * (s.dirsOf o.ctxs).length)
  let s := { s with step := { s.step with op := none, closingOwed := false, aheadBad := false } }
  let s := o.fresh.foldl State.placeRoutes s
  (s.showNext.pacingSync.corrSync.complete o.cmd stOk 0 []).owedFault

/-- The refills of a CTX_MODE or CTX_SELECT go on while nothing is outstanding: the SWITCH of the context refilled, then
the next context's refill (R152). -/
def State.opNext : Nat → State → State
  | 0, s => s
  | n + 1, s =>
    match s.step.op with
    | none => s
    | some o =>
      if !s.refilled 2 then s
      else match o.todo with
        | [] => s.opDone o
        | (c, sw) :: rest =>
          let s := if sw then s.doSwitch c else s
          let o := { o with todo := rest }
          let s := { s with step := { s.step with op := some o } }
          match rest with
          | [] => s.opDone o
          | (d, _) :: _ => State.opNext n (s.startRefills d 2)

/-- The context that the first SWITCH of the next step leads to under new mode registers, if any (R121). -/
def aheadOf (cmode rotlen slots : Nat) : Option Nat :=
  let slot := fun (i : Nat) => bits slots (2 * i + 1) (2 * i)
  if cmode = 1 then some 1
  else if cmode = 2 then
    let n := max 1 rotlen
    ((List.range n).map fun i => slot ((1 + i) % n)).find? fun c => c ≠ slot 0
  else none

/-- What a new set of contexts needs, granted together (R153, R180, R299): the wings that are off, the directions it adds, the
demand; `none` where they do not fit. -/
def State.askSet (s : State) (cmode : Nat) (cs : List Nat) : Option State :=
  let more := 2 * ((s.dirsOf cs).filter fun d => !(s.dirsOf s.ctxsInUse).contains d).length
  let smode := s.rd Reg.STEP.CTRL.MODE
  let demand := s.demandOf smode cmode (s.rd Reg.STEP.PACE.PERIOD) cs
  ((s.grant 0x09 (s.wingsOff cs).length).bind fun s => s.grant 0x0B more).bind fun s =>
    s.requestDemand demand (s.step.strict || smode == 3)

/-- What a CTX_MODE or CTX_SELECT has to do, and what it puts back where a refill fails (R152, R153): its fresh contexts are refilled
and switched in, then the context of the next step, then the context of that step's first SWITCH is refilled (R121). -/
def State.setOp (s : State) (cmd cmode sel qcount rotlen slots : Nat) : CtxOp :=
  let cs := newSet cmode sel qcount rotlen slots
  let fresh := cs.filter fun d => s.rdb (planeFreshF d)
  let target := if cmode = 1 then 0 else if cmode = 2 then bits slots 1 0 else sel
  let act := s.rd Reg.CTX.MODE.ACTCTX
  let switches := fresh ++ if fresh.getLastD act = target then [] else [target]
  let ahead := match aheadOf cmode rotlen slots with
    | some d => [(d, false)]
    | none => []
  CtxOp.mk cmd
    (toWord (cmode + (if cmode = 1 then qcount * 2 ^ 4 else 0) + if cmode = 2 then rotlen * 2 ^ 8 else 0))
    (toWord (if cmode = 2 then slots % 2 ^ (2 * rotlen) else 0))
    cs fresh ((switches.map fun d => (d, true)) ++ ahead) (s.wingsOff cs) s.fab.active s.fab.next act
    (s.stored Reg.CTX.SWCOUNT.COUNT.addr) (s.stored Reg.STEP.BUDGET.DEMAND.addr) (s.holds 0x0A) (s.holds 0x0B)

/-- A CTX_MODE or CTX_SELECT that is granted begins: its wings are powered and its first refill is on its way (R152, R164). -/
def State.beginSet (s : State) (o : CtxOp) : State :=
  let s := { s with
    step := { s.step with op := some o }
    fab := { s.fab with powered := s.fab.powered ++ o.wings } }
  match o.todo with
  | [] => s.opDone o
  | (d, _) :: _ => State.opNext (o.todo.length + 1) (s.startRefills d 2)

/-- A new set of contexts brought into use (R152, R153). -/
def State.bringSet (s : State) (c : Cmd) (cmode sel qcount rotlen slots : Nat) : State :=
  match s.askSet cmode (newSet cmode sel qcount rotlen slots) with
  | none => s.answer c stBudget 0 []
  | some t => t.beginSet (s.setOp c.id cmode sel qcount rotlen slots)

/-- CTX_MODE (R151). -/
def ctxModeBody (c : Cmd) (s : State) : State :=
  let mode := c.f 0 1 0
  let q := c.f 0 10 8
  let len := c.f 0 20 16
  let slots := c.f 1 31 0
  let cs := newSet mode (c.f 0 5 4) q len slots
  let bad := mode == 3 || (mode == 1 && !(decide (2 ≤ q) && decide (q ≤ 4))) ||
    (mode == 2 && !(decide (1 ≤ len) && decide (len ≤ 16)))
  let loaded := cs.all fun d => s.plane d == 2 || s.plane d == 3
  let fold := mode == 1 && loaded && !foldOk s.cfg.ctxs q
  let owns := mode != 0 && cs.any fun d => (s.plane d == 2 || s.plane d == 3) && (s.ctx d).ownsSlice
  s.checked c ((c.reserved [[(1, 0), (5, 4), (10, 8), (20, 16)], [(31, 0)]] || bad || fold || owns, stBadParam, 0) ::
      s.setRefusals false mode cs)
    fun s => s.bringSet c mode (c.f 0 5 4) q len slots

/-- CTX_MODE's command. -/
def ctxModeCmd : Command := command 0x0202 (exactly 2) ctxModeBody

/-- CTX_MODE (R151). -/
def execCtxMode (dt : Nat) (hdr : CmdHdr) (ws : List Word) (s : State) : Answer :=
  s.event dt fun s => s.issueCmd ctxModeCmd hdr ws

/-- CTX_SELECT (R151). -/
def ctxSelectBody (c : Cmd) (s : State) : State :=
  let sel := c.f 0 1 0
  s.checked c ((c.reserved [[(1, 0)]], stBadParam, 0) :: s.setRefusals (s.ctxMode != 0) 0 [sel])
    fun s => s.bringSet c 0 sel 0 0 0

/-- CTX_SELECT's command. -/
def ctxSelectCmd : Command := command 0x0203 (exactly 1) ctxSelectBody

/-- CTX_SELECT (R151). -/
def execCtxSelect (dt : Nat) (hdr : CmdHdr) (ws : List Word) (s : State) : Answer :=
  s.event dt fun s => s.issueCmd ctxSelectCmd hdr ws

end Sys2Proof.Machine
end

