-- ==== Sys2Proof/Machine/RunOps.lean ====
section
/-! DEFINITION. Runs of the step engine: what a run needs, how it starts and halts (R80, R85, R90, R111, R124), a LAUNCH
(R78-R81, R104), the COMMIT and SWITCH of a phase (R66, R99, R126, R136), and how refills end (R35-R37, R121-R124). -/

namespace Sys2Proof.Machine

/-! ### Starting a run -/

/-- The contexts that the next steps use, with the card segments they take (R100, R101). -/
def State.runSegments (s : State) : List Nat := if s.ctxMode = 1 then [0] else s.ctxsInUse

/-- Whether a context in use uses a part that keeps steps from running (R69, R242, R596): a failed wing, a wing with a
condemned room, a retired attic block, an exhausted corridor direction. -/
def State.badParts (s : State) : Bool :=
  let cs := s.ctxsInUse
  (s.wingsOf cs).any s.wingBad ||
    s.attic.retired.any (fun r => cs.any fun c => (s.attic.ownerOf r.1 r.2).any fun o => o.has c) ||
    (s.dirsOf cs).any s.corr.exhausted.contains

/-- The STEP cue that a run waits for is not armed (R80). -/
def State.cueMissing (s : State) : Bool :=
  let k := s.rd Reg.STEP.PACE.CUE
  s.rdb Reg.STEP.PACE.CUESTART && !(s.cueFunc k == fnStep && s.cueArmed k)

/-- The refusals of a run beside its own fields, in the order of R495 (R85, R101, R111, R447, R596, R677).  Steps cannot
run in NAP or PATROL, where the floor is off (R560). -/
def State.runRefusals (s : State) : List (Bool × Nat × Nat) :=
  [(s.engine ≠ seHalted || s.rd Reg.STEP.CTRL.MODE == 3 || s.cueMissing ||
      s.runSegments.any (fun c => s.rd (Reg.STEP.CARDSEG.LEN c) == 0) || decide (2 ≤ s.power) ||
      s.pwr.target.isSome, stState, 0),
   (s.engineBusy, stBusy, 0),
   (s.rd Reg.STEP.BUDGET.GRANT == 0 && s.rd Reg.STEP.BUDGET.DEMAND != 0, stBudget, 0),
   (s.badParts, stHwFault, 0)]

/-- The engine enters RUNNING (R80): the pacer starts at the next 0.125 ns boundary, or at the match of the STEP cue. -/
def State.beginRun (s : State) (left : Option Nat) : State :=
  let s := (s.wr Reg.STEP.STAT.STATE seRunning).wr Reg.STEP.SINGLE.LEFT (left.getD 0)
  let r := Run.mk (s.rdb Reg.STEP.PACE.CUESTART && s.rd Reg.STEP.CTRL.MODE != 3) false left
    ((s.now / fsTick + 1) * fsTick) s.now 0 0 s.now false
  { s with step := { s.step with run := some r } }

/-- A run that waited for the closing SWITCH goes on once its refill has acknowledged (R124). -/
def State.resumeStart (s : State) : State :=
  match s.step.startWait with
  | none => s
  | some (cmd, left) =>
    if !s.refilled 3 then s
    else
      let s := s.doSwitch s.nextCtx
      let s := { s with step := { s.step with startWait := none, closingOwed := false } }
      let s := (s.refillAhead 1).beginRun left
      match cmd with
      | some id => s.complete id stOk 0 []
      | none => s

/-- A run starts: HOLD ends (R567), a closing SWITCH that R124 left runs first, then the engine is RUNNING. -/
def State.startRun (s : State) (cmd : Option Nat) (left : Option Nat) : State :=
  let s := s.leaveHold
  if s.step.closingOwed then
    ({ s with step := { s.step with startWait := some (cmd, left) } }.startRefills s.nextCtx 3).resumeStart
  else
    let s := s.beginRun left
    match cmd with
    | some id => s.complete id stOk 0 []
    | none => s

/-- A run control of the registers: accepted, or ignored with CTLERR (R85). -/
def State.registerRun (s : State) (bad : Bool) (left : Option Nat) : State :=
  if bad || (firstRefusal s.runRefusals).isSome then s.wr Reg.STEP.STAT.CTLERR 1 else s.startRun none left

/-- W of R453. -/
def Reel.window (r : Reel) : Nat := if r.period = 0 then 0 else ceilDiv (2 * r.guard) r.period

/-- A halt in REEL mode (R458): STOP for step k = c + W + 1, where c is the step in progress or the last one ended. -/
def State.reelStop (s : State) : State :=
  match s.time.reel with
  | none => s
  | some r =>
    let n := s.rd Reg.STEP.COUNT.COUNT
    let k := (if s.step.cur.isSome then n + 1 else n) + r.window
    let stop := match r.stopAt with
      | some (k', c') => if k' ≤ k then (k', c') else (k, 1)
      | none => (k, 1)
    { s with time := { s.time with reel := some { r with stopAt := some stop } } }.sendHold 2 k s.dev.seat false 0 none

/-- A halt in HUNG (R83, R89): the step is abandoned.  One whose last COMMIT has completed, and that waits for the refill of its closing
SWITCH alone, cannot be: it stands committed and ends, and the next run runs that SWITCH as under R124 (DESIGN CHOICE,
assumption 93). -/
def State.hangHalts (s : State) : State :=
  match s.step.cur with
  | some r =>
    if r.stage = .switch ∧ r.last then
      { s with
        step := { s.step with closingOwed := true }
        fab := { s.fab with refills := s.fab.refills.filter fun x => x.serves ≠ 0 } }.stepEnd 4
    else s.abandonStop true 4 seHalted
  | none => s.abandonStop true 4 seHalted

/-- A halt request (R83, R85, R89, R458); `cmd` is the STEP_HALT that waits for the engine to leave RUNNING and HUNG. -/
def State.requestHalt (s : State) (cmd : Option Nat) : State :=
  let s := s.dropWait stAborted
  let s := { s with step := { s.step with haltCmds := s.step.haltCmds ++ cmd.toList } }
  if !s.stepping then
    cmd.elim s fun id => { s with step := { s.step with haltCmds := s.step.haltCmds.filter (· ≠ id) } }.complete id stOk 0 []
  else if s.step.ret.isSome then s
  else if s.engine = seHung then s.hangHalts
  else
    let s := { s with step := { s.step with haltReq := true } }
    if s.rd Reg.STEP.CTRL.MODE = 3 then s.reelStop
    else if s.step.cur.isNone then s.stopEngine 1 seHalted
    else s

/-! ### LAUNCH -/

/-- A pacer tick in fs at the rate of ML2: P/(1 - d/2) under a declared spread (R550), longer while the loop coasts (R554). -/
def State.tickPeriod (s : State) : Nat := s.rd Reg.STEP.PACE.PERIOD * fsTick * 4000000 / s.loopRate 2

/-- The instant of the tick that the next step launches on (R80). -/
def State.tickAt (s : State) (r : Run) : Nat := r.lastFall - (r.fallen - 1 - r.tick) * s.tickPeriod

/-- Whether a re-map of R263 holds the next LAUNCH: one between dies that are both ready (R294). -/
def State.remapHolds (s : State) : Bool :=
  s.corr.remaps.any fun m =>
    let e := dirEnds m.1
    (8 ≤ e.1 || s.towerReady e.1) && (8 ≤ e.2 || s.towerReady e.2)

/-- Whether the engine may launch now, but for a full trace buffer (R52, R78-R81, R262, R263, R534,
R677). -/
def State.launchDue (s : State) (r : Run) : Bool :=
  let mode := s.rd Reg.STEP.CTRL.MODE
  s.step.cur.isNone && s.step.ret.isNone && s.engine == seRunning && (!r.waitCue || r.cueHit) && !s.remapHolds &&
    decide (s.step.loadUntil ≤ s.now) &&
    (s.rd Reg.STEP.BUDGET.GRANT != 0 || s.rd Reg.STEP.BUDGET.DEMAND == 0) &&
    s.step.lastLaunch.all (fun t => decide (t + s.minFs ≤ s.now)) &&
    ((mode != 1 && mode != 3) || decide (r.tick < r.fallen))

/-- The NoC ports' inputs at LAUNCH, for each context of the step (R176, R288, R289): the free-tag flag, the tag index of the port's last request, the oldest
visible response. -/
def State.captureNocIn (s : State) (cs : List Nat) : List NocIn :=
  let ports := cs.flatMap fun c => ((s.ctx c).wings.flatMap fun w => w.2.nocs.map fun p => (2 * w.1 + p.port, c)).eraseDups
  ports.map fun k =>
    { init := k.1, ctx := k.2, free := (s.noc.freeTag k.1).isSome, tag := s.noc.lastTag.at 0 k.1
      resp := match s.noc.resp.find? fun r => r.1 = k.1 ∧ r.2.1 = k.2 with
        | some r => if r.2.2.2 ≤ s.now then r.2.2.1 else []
        | none => [] }

/-- Whether the budget interval stretches the launch that comes now (R94): without it the step would have launched earlier, at the latest
of the run's start, the last step's end, its tick, and the rest of the minimum launch interval after the last LAUNCH. -/
def State.budgetStretches (s : State) (r : Run) : Bool :=
  let mode := s.rd Reg.STEP.CTRL.MODE
  match s.step.lastLaunch with
  | none => false
  | some t =>
    let tick := if mode = 1 ∨ mode = 3 then s.tickAt r else 0
    decide (max (max r.began s.step.lastEnd) (max tick (t + max s.baseFs s.thermalFs)) < t + s.budgetFs)

/-- The pacing bookkeeping of a LAUNCH (R79, R81, R94): the late launch and its policy, BUDGET_PACED once in a run. -/
def State.launchPaced (s : State) (r : Run) : State :=
  let mode := s.rd Reg.STEP.CTRL.MODE
  let late := (mode = 1 ∨ mode = 3) ∧ s.tickAt r < s.now
  let s := if late then s.count Reg.STEP.LATECNT.COUNT 1 else s
  let slip := late ∧ mode = 1 ∧ s.rdb Reg.STEP.PACE.SLIP
  let stretched := s.budgetStretches r ∧ !r.pacedPosted
  let s := if stretched then s.post 0x0105 sevWarn srcDevice (min s.budgetInterval (2 ^ 24 - 1)) else s
  let r := { r with
    tick := r.tick + 1
    pacedPosted := r.pacedPosted || decide stretched
    fallen := if slip then r.tick + 1 else r.fallen
    lastFall := if slip then s.now else r.lastFall
    nextFall := if slip then s.now + s.tickPeriod else r.nextFall }
  { s with step := { s.step with run := some r, lastLaunch := some s.now } }

/-- The refills under way, those that serve `a` now serving `b` (R124). -/
def State.reserve (s : State) (a b : Nat) : List Refill :=
  s.fab.refills.map fun (x : Refill) => if x.serves = a then { x with serves := b } else x

/-- LAUNCH (R51, R104): inputs are captured, or presented again for a pending step (R90), landings keep a copy (R125), the
refills ahead now serve this step (R124), and the first phase begins.  A step whose refill ahead has failed is abandoned at once
(R123, R124). -/
def State.launch (s : State) (r : Run) (pins : List (Nat × Bool)) : State :=
  let s := (s.drivePins pins).levelSync.jobsRejoin
  let s := s.launchPaced r
  let c := s.nextCtx
  let cs := s.stepCtxs c
  let cap : (List (Nat × Nat × Word) × List NocIn) × State :=
    match s.step.saved with
    | some v => (v, s)
    | none => let i := s.captureInputs cs; ((i.1, i.2.captureNocIn cs), i.2)
  let s := cap.2.wr Reg.STEP.STAT.PENDING 0
  let s := { s with
    fab := { s.fab with
      landingCopy := s.fab.landing
      refills := s.reserve 1 0 }
    step := { s.step with
      saved := none
      cur := some {
          ctx := c, phase := 0, phases := cs.length, launchAt := s.now, evalAt := s.now, stage := .evaluate, wings := [],
          tokens := [], inputs := cap.1.1, nocIn := cap.1.2, doneTowers := [], donePorches := [], porchGot := [],
          lastDone := s.now, commitAt := s.now, commits := 0, ownEnd := 0, remoteLast := 0,
          excess := s.forcedExcess, hungPosted := false, closeFailed := false } } }
  if s.step.aheadBad then s.abandonStop true 6 seHalted else (s.refillAhead 0).beginPhase c

/-! ### COMMIT and SWITCH -/

/-- The instant from which a bank's clock side sees what a COMMIT issued at `t` pushes, or a LAUNCH sees what was written on the bank's
clock at `t` (R106, R107). -/
def State.bankSeen (s : State) (t bank : Nat) : Nat := t + 3 * s.domPeriod (s.rd (Reg.IOB.CFG.DOMAIN bank)) + 4 * fsNs

/-- Values delivered in the step become the last committed ones (R177). -/
def State.commitChannels (s : State) : State :=
  s.fab.tokenStep.foldl (fun s x =>
    if x.1 % 2 = 0 then { s with fab := { s.fab with inCommitted := s.fab.inCommitted.upd 0 (x.1 / 2) x.2 } }
    else { s with fab := { s.fab with porchCommitted := s.fab.porchCommitted.upd 0 (x.1 / 2) x.2 } }) s

/-- A port accepts at most one request per step, its first (R288): `seen` are the ports whose request has been accepted. -/
def acceptedRequests : List Nat → List (Nat × Nat × Option NocReq) → List (Nat × Nat × Option NocReq)
  | _, [] => []
  | seen, x :: xs =>
    if x.2.2.isNone then x :: acceptedRequests seen xs
    else if seen.contains x.1 then acceptedRequests seen xs
    else x :: acceptedRequests (x.1 :: seen) xs

/-- The NoC ports' part of the step's COMMIT (R288, R289): pops remove the response presented, requests leave, or are
discarded and counted where the free-tag flag was 0. -/
def State.commitNoc (s : State) (r : StepRun) : State :=
  (acceptedRequests [] s.fab.nocPend).foldl (fun s x =>
    match r.nocIn.find? fun y => y.init = x.1 ∧ y.ctx = x.2.1, x.2.2 with
    | none, _ => s
    | some y, none =>
      if y.resp.isEmpty then s
      else match s.noc.resp.find? fun z => z.1 = x.1 ∧ z.2.1 = x.2.1 with
        | some z => { s with noc := { s.noc with resp := s.noc.resp.erase z } }
        | none => s
    | some y, some q =>
      if !y.free then s.count (Reg.NOC.INI.TAGS.DROPS x.1) 1
      else s.issue (requestPacket x.1 q.write q.addr q.words q.firstbe q.lastbe q.data) (.wingPort x.2.1)) s |>.pump

/-- Each outbound cross-seat channel queues a VALUE frame for the next step with the value it presents (R177, R448). -/
def State.commitCross (s : State) (cs : List Nat) : State :=
  let n := (s.stepNo + 1) % 2 ^ 48
  cs.foldl (fun s c => (s.ctx c).porchOuts.foldl (fun s p =>
    match p.cross with
    | some (chan, first) =>
      s.queueFrame first kindValue (toWord (n + chan % 2 ^ 16 * 2 ^ 48))
        [s.fab.porchVal.at 0 (porchKey p.porch p.chan c)]
    | none => s) s) s

/-- The step's COMMIT (R51, R99, R136): everything pending takes effect at once. -/
def State.commitStep (s : State) (r : StepRun) : State :=
  let cs := s.stepCtxs r.ctx
  let edge := s.edge r.ctx
  let issue := s.commitFrom r
  let own := issue - r.launchAt - r.remoteLast + s.remainder r
  let s := s.commitFabric cs edge
  let s := s.commitAttic.commitPoison cs
  let s := s.commitFifos (s.bankSeen issue)
  let s := (s.commitPins cs issue).commitChannels
  let s := (s.commitNoc r).commitCross cs
  let s := s.commitTaps.traceRecord (s.rd Reg.STEP.COUNT.COUNT)
  let s := { s with fab := s.fab.noPending }
  s.setCur { r with ownEnd := own, commitAt := s.now, commits := r.commits + 1 }

/-- A step that needs no SWITCH ends; refills it did not wait for belong to the following step (R124). -/
def State.finishStep (s : State) : State :=
  let s := { s with fab := { s.fab with
    refills := s.reserve 0 1 } }
  s.stepEnd 0

/-- The COMMIT of a phase (R135-R138): the phase is captured; the last phase commits the step, and a SWITCH or the step's
end follows; a closing SWITCH whose refill has failed under a fault does not run (R91, R124). -/
def State.commitPhase (s : State) (r : StepRun) : State :=
  let c := s.phaseCtx r
  let s := (s.capturePhase c (s.edge r.ctx) r.last).captureTaps c
  if !r.last then s.setCur { r with stage := .switch, commitAt := s.now, commits := r.commits + 1 }
  else
    let closes := s.closes
    let s := s.commitStep r
    if !closes then s.finishStep
    else if r.closeFailed then { s with step := { s.step with closingOwed := true } }.finishStep
    else match s.step.cur with
      | some r => s.setCur { r with stage := .switch }
      | none => s

/-- A SWITCH completes (R126, R134, R142): the next phase begins with the refill of the context after it, or the step
ends and the refill for the following step starts. -/
def State.switchPhase (s : State) (r : StepRun) : State :=
  let target := s.switchTarget r
  let s := s.doSwitch target
  if r.last then (s.finishStep).refillAhead 1
  else
    let s := s.setCur { r with phase := r.phase + 1 }
    let next := if r.phase + 2 < r.phases then r.phase + 2 else 0
    (s.startRefills next 0).beginPhase target

/-! ### How refills end -/

/-- The detail registers of a refill failure (R155): its room, its context, its kind. -/
def State.noteRefillFail (s : State) (x : Refill) (room kind : Nat) : State :=
  (s.wr ⟨Reg.CTX.LASTFAIL.TOWER.addr, 21, 0⟩
    (x.wing / 64 + x.wing % 64 * 2 ^ 3 + room * 2 ^ 9 + x.ctx * 2 ^ 19 + kind * 2 ^ 21)).wr Reg.CTX.LASTFAIL.VALID 1

/-- A refill is over: its wing's next set holds its context, or nothing where it failed (R116). -/
def State.endRefill (s : State) (x : Refill) (ok : Bool) : State :=
  { s with fab := { s.fab with
    refills := s.fab.refills.filter fun y => y.wing ≠ x.wing
    next := s.fab.next.upd .empty x.wing (if ok then s.latchOf x.ctx x.wing else .empty) } }

/-- A refill changed. -/
def State.setRefill (s : State) (x : Refill) : State :=
  { s with fab := { s.fab with refills := s.fab.refills.map fun y => if y.wing = x.wing then x else y } }

/-- Resets whose scope is back, and which waited for the refills of their latch loads alone, are complete (R121, R591, R595). -/
def State.resetsBack (s : State) : State :=
  if !s.refilled 6 then s
  else
    let done := s.dev.resets.filter fun j => j.back
    done.foldl (fun s j => s.post 0x0E04 sevInfo srcDevice (resetDetail j))
      { s with dev := { s.dev with resets := s.dev.resets.filter fun j => !j.back } }

/-- An exit from NAP that waited for its refills alone is complete (R121, R564). -/
def State.napReturns (s : State) : State :=
  match s.pwr.target with
  | some (t, cmd, _) =>
    if s.pwr.napBack && s.refilled 7 then { s with pwr := { s.pwr with napBack := false } }.stateShown t cmd else s
  | none => s

/-- Nothing of an operation's refills is outstanding: CTX_MODE and CTX_SELECT go on, CFG_END replies (R121, R530), a run that waited
starts (R124), a return ends (R125), an exit from NAP and a reset are complete (R121). -/
def State.refillsSettle (s : State) : State :=
  let s := match s.step.op with
    | some o => State.opNext (o.todo.length + 1) s
    | none => s
  let s := if s.refilled 2 && s.cfg.stream.isNone then
      match s.cfg.endCmd with
      | some id => ({ s with cfg := { s.cfg with endCmd := none } }.wr Reg.CFG.STAT.STREAM 0).complete id stOk 0 []
      | none => s
    else s
  s.resumeStart.retGoes.napReturns.resetsBack

/-- The refill of a return has failed: the active sets stay as they are and the engine stops; the next run refills and switches first, as
after a closing SWITCH that has failed (R124; DESIGN CHOICE, assumption 93). -/
def State.retFails (s : State) : State :=
  let s := { s with fab := { s.fab with refills := s.fab.refills.filter fun y => y.serves ≠ 4 } }
  match s.step.ret with
  | some x => s.retDone x
  | none => s

/-- A refill has failed for good (R36, R123, R124, R153): what it served is abandoned, ended or refused.  The engine may
already have stopped for a condemned room (R91). -/
def State.refillFails (s : State) (x : Refill) : State :=
  let s := s.endRefill x false
  match x.serves with
  | 0 =>
    match s.step.cur with
    | some r =>
      if r.stage = .switch ∧ r.last then
        ({ s with step := { s.step with closingOwed := true } }.wr Reg.STEP.STAT.PENDING 0).stepEnd 6
      else if s.step.faultOwed then s.setCur { r with closeFailed := true }
      else s.abandonStop true 6 seHalted
    | none => s
  | 1 => { s with step := { s.step with aheadBad := true } }
  | 2 =>
    match s.step.op with
    | some o => s.opUndo o stHwFault x.ctx
    | none =>
      match s.cfg.endCmd with
      | some id =>
        ({ s with cfg := { s.cfg with endCmd := none }
                  fab := { s.fab with refills := s.fab.refills.filter fun y => y.serves ≠ 2 } }.wr
          Reg.CFG.STAT.STREAM 0).complete id stHwFault x.ctx []
      | none => s
  | 4 => { s with step := { s.step with closingOwed := true } }.retFails
  | 5 => s.retGoes
  | 6 => s.resetsBack
  | 7 => s.napReturns
  | _ =>
    let s' := s.dropWait stHwFault
    let s' := { s' with fab := { s'.fab with refills := s'.fab.refills.filter fun y => y.serves ≠ 3 } }
    if s.step.startWait.any (fun w => w.1.isNone) then s'.wr Reg.STEP.STAT.CTLERR 1 else s'

end Sys2Proof.Machine
end

