-- ==== Sys2Proof/Machine/Loading.lean ====
section
/-! DEFINITION. Loading a full configuration (R525-R531): the stream, its failures, the consistency checks of CFG_END, the
claims and grants, and the activation. -/

namespace Sys2Proof.Machine

/-! ### The stream -/

/-- Whether a stream is open, or its activation still waits for refills. -/
def State.streamOpen (s : State) : Bool := s.cfg.stream.isSome || s.cfg.endCmd.isSome

/-- DETAIL of CFG_END (R542): section index, reason, not selected. -/
def endDetail (index reason : Nat) (notSelected : Bool) : Nat :=
  index % 2 ^ 16 + reason % 256 * 2 ^ 16 + b2n notSelected * 2 ^ 24

/-- The stream ends with a status (R529, R545): its BU return. -/
def State.streamEnds (s : State) (status : Nat) : State :=
  let s := { s with cfg := { s.cfg with stream := none } }.ungrant 0x0E 6
  (s.wr Reg.CFG.STAT.STREAM 0).wr Reg.CFG.STAT.LASTSTATUS status

/-- The stream fails (R528, R529): CFG_FAILED at once; a CFG_END that waits replies with the failure's status, and a
failure of reason 10, 11 or 17 closes the stream. -/
def State.streamFails (s : State) (reason index : Nat) : State :=
  match s.cfg.stream with
  | none => s
  | some x =>
    let fresh := x.failed.isNone
    let s := { s with cfg := { s.cfg with stream := some (x.fail reason index) } }
    let s := (s.wr Reg.CFG.STAT.REASON reason).wr Reg.CFG.STAT.SECTION index
    let s := s.wr Reg.CFG.STAT.STREAM 3
    let st := reasonStatus reason
    let s := if fresh then s.post 0x0902 sevError srcDevice (st + reason * 2 ^ 8 + index % 2 ^ 16 * 2 ^ 16) else s
    match s.cfg.endCmd with
    | some id =>
      ({ s with cfg := { s.cfg with endCmd := none } }.streamEnds st).complete id st (endDetail index reason false) []
    | none => if reason = 10 ∨ reason = 11 ∨ reason = 17 then s.streamEnds st else s

/-- The registers that show what the stream has received (R545). -/
def State.streamSync (s : State) (x : Stream) : State :=
  let s := s.wr Reg.CFG.RXBYTES.BYTES x.bytes.length
  if 64 ≤ x.bytes.length then s.wr Reg.CFG.LENGTH.BYTES x.length else s

/-- The place of an ATTIC section: wing, block, first word (R512). -/
def atticSecPlace (p : Nat) : Nat × Nat × Nat := (bits p 2 0 * 64 + bits p 21 16, bits p 28 24, bits p 43 32)

/-- The words of the ATTIC sections among those kept, each put by `f` into its place. -/
def putAttic (f : Attic → Nat → Nat → Nat → Word → Attic) (m : Attic) (secs : List Section) : Attic :=
  (secs.filter fun x => x.type = 7).foldl (fun m x =>
    let p := atticSecPlace x.param
    (bytesWords x.body).zipIdx.foldl (fun m w => f m p.1 p.2.1 (p.2.2 + w.2) w.1) m) m

/-- Bytes arrive for the stream (R518, R527, R529): the header's checks deactivate the active configuration, sections of
attic contents are written, a failure is posted. -/
def State.streamData (s : State) (bs : List Byte) : State :=
  match s.cfg.stream with
  | none => s
  | some x =>
    if x.failed.isSome then s
    else
      let y := s.feed .full x bs
      let s := { s with cfg := { s.cfg with stream := some { y with failed := none } } }.streamSync y
      let s := if y.headerOk && !x.headerOk then
          let s := s.wr Reg.CFG.STAT.STREAM 2
          if y.selected then s.deactivate else s
        else s
      let new := (y.kept.drop x.kept.length).map Prod.snd
      let s := { s with attic := putAttic Attic.write s.attic new }
      match y.failed with
      | some f => s.streamFails f.1 f.2
      | none => s

/-! ### The checks of CFG_END -/

/-- The first kept section of a type. -/
def Stream.section (x : Stream) (type : Nat) : Option (Nat × Section) := x.kept.find? fun k => k.2.type = type

/-- The contexts that a container carries. -/
def Stream.carried (x : Stream) : List Nat := (List.range 4).filter x.carries

/-- The MODE words of a container (R512). -/
def Stream.modeWords (x : Stream) : Nat × Nat :=
  match x.section 10 with
  | some k => (bodyWord k.2.body 0, bodyWord k.2.body 1)
  | none => (3, 0)

/-- The contexts that MODE words put in use (R119). -/
def modeSet (m : Nat × Nat) : List Nat := newSet (bits m.1 1 0) (bits m.1 5 4) (bits m.1 10 8) (bits m.1 20 16) m.2

/-- Whether MODE words are in range, and their contexts are carried (R132, R133, R151). -/
def modeOk (m : Nat × Nat) (carried : List Nat) (ctxs : List CtxCfg) : Bool :=
  let mode := bits m.1 1 0
  let q := bits m.1 10 8
  let len := bits m.1 20 16
  mode != 3 && (mode != 1 || (decide (2 ≤ q) && decide (q ≤ 4) && foldOk ctxs q)) &&
    (mode != 2 || (decide (1 ≤ len) && decide (len ≤ 16))) && (modeSet m).all carried.contains

/-- The channel entries of the LANESET sections (R514): channel number, first lane, porch channel, inbound. -/
def Stream.channels (x : Stream) : List (Nat × Nat × Nat × Bool) :=
  (x.kept.filter fun k => k.2.type = 9).flatMap fun k =>
    let g := bits k.2.param 7 0
    (List.range (bits k.2.param 23 8)).map fun i =>
      let w := bodyWord k.2.body (3 * g + i)
      (bits w 15 0, bits w 21 16, bits w 41 32, bit w 48)

/-- The enabled group entries of the LANESET sections: LANE_SETUP words 0 to 2 (R512). -/
def Stream.laneGroups (x : Stream) : List (Nat × Nat × Nat) :=
  ((x.kept.filter fun k => k.2.type = 9).flatMap fun k =>
    (List.range (bits k.2.param 7 0)).map fun i =>
      (bodyWord k.2.body (3 * i), bodyWord k.2.body (3 * i + 1), bodyWord k.2.body (3 * i + 2))).filter fun g => bit g.1 16

/-- The contexts as the container gives them; those it does not carry are empty (R154). -/
def Stream.ctxs (x : Stream) : List CtxCfg :=
  (List.range 4).map fun c => if x.carries c then x.ctxCfg c x.channels else .empty

/-- The card segment of a context: base and entries; none where no CARD section gives it (R102). -/
def Stream.cardOf (x : Stream) (c : Nat) : Nat × List Nat :=
  match x.ctxSection 5 c with
  | some k => cardEntries k.2
  | none => (0, [])

/-- Whether segments, each a base and a length, meet R97. -/
def segmentsOk : List (Nat × Nat) → Bool
  | [] => true
  | a :: rest => decide (a.1 + a.2 ≤ 4096) &&
      (rest.all fun b => a == b || !rangesMeet a.1 a.2 b.1 b.2) && segmentsOk rest

/-- The tower blocks that a context's ATTICOWN gives, numbered `24 * wing + block`. -/
def Stream.blocksOf (x : Stream) (c : Nat) : List Nat :=
  match x.ctxSection 6 c with
  | some k => ownBlocks k.2.body
  | none => []

/-- Whether two contexts conflict over a slice of which one owns the banks (R206). -/
def slicesClash (a b : CtxCfg) : Bool :=
  a.wings.any fun w => w.2.macs.any fun m => m.2.bankDesign &&
    b.wings.any fun v => v.1 == w.1 && v.2.macs.any fun n => n.1 == m.1 && n.2.mulmode != .off

/-- Whether every ATTIC section of a context lies in a block that the context owns (R530). -/
def Stream.atticInside (x : Stream) (c : Nat) : Bool :=
  (x.kept.filter fun k => k.2.type = 7 ∧ bits k.2.param 9 8 = c).all fun k =>
    let p := atticSecPlace k.2.param
    (x.blocksOf c).contains (24 * p.1 + p.2.1)

/-- The VCCIO of a code, in mV (R664). -/
def vccioMv (code : Nat) : Nat := [1000, 1200, 1500, 1800, 2500, 3300].getD code 0

/-- Whether a pin word of a bank setup breaks R666; `next` is the word of the next pin. -/
def pinBad (bank code n w next : Nat) (cueEn : Bool) : Bool :=
  let std := bits w 3 0
  let term := bits w 22 21
  let high := bank == 7 || bank == 15
  let avail := match std with
    | 0 => true
    | 1 => true
    | 2 => code == 1 && !high
    | 3 => code == 2 && !high
    | 4 => code == 1 && !high
    | 5 => code == 3 && !high
    | 6 => code == 3 && !high
    | _ => false
  let diff := std == 5 || std == 6
  !avail || (diff && (n % 2 == 1 || next != 0)) || bits w 5 4 == 3 || bits w 7 6 == 3 ||
    (bits w 7 6 == 2 && (bits w 5 4 == 0 || !cueEn)) || (decide (std < 2) && term != 0) || (diff && decide (2 ≤ term))

/-- Whether an IOBANK section breaks R666, with the VCCIO measured now. -/
def State.bankBad (s : State) (sec : Section) : Bool :=
  let b := bits sec.param 3 0
  let w := bodyWord sec.body 0
  let code := bits w 2 0
  let menu := if b = 7 ∨ b = 15 then decide (3 ≤ code) && decide (code ≤ 5) else decide (code ≤ 3)
  let mv := s.rd (Reg.IOB.VMEAS.MV b)
  let nominal := vccioMv code
  !menu || decide (5 * nominal < 100 * (max mv nominal - min mv nominal)) ||
    (List.range 48).any fun n =>
      pinBad b code n (bodyWord sec.body (1 + n)) (if n = 47 then 0 else bodyWord sec.body (2 + n)) (bit w 12)

/-- The failure that the consistency checks of CFG_END find, if any: reason and section index (R515, R530).  The manual
gives no index for reason 15 at CFG_END; the model reports SECTIONS, as R512 does for a missing section (DESIGN CHOICE,
assumption 30). -/
def State.inconsistent (s : State) (x : Stream) : Option (Nat × Nat) :=
  let n := x.sections
  let cs := x.carried
  let ctxs := x.ctxs
  let m := x.modeWords
  let fold := if bits m.1 1 0 = 1 then List.range (bits m.1 10 8) else []
  let pairs := cs.flatMap fun a => (cs.filter fun b => b ≠ a).map fun b => (a, b)
  let segs := cs.map fun c => let e := x.cardOf c; (e.1, e.2.length)
  if !cs.all x.settleOk then some (6, n)
  else if (x.section 10).isNone || !modeOk m cs ctxs || !segmentsOk segs ||
      (bits m.1 1 0 != 0 && (modeSet m).any fun c => (ctxs.getD c .empty).ownsSlice) ||
      (pairs.any fun p => slicesClash (ctxs.getD p.1 .empty) (ctxs.getD p.2 .empty)) ||
      (pairs.any fun p => !(fold.contains p.1 && fold.contains p.2) &&
        (x.blocksOf p.1).any (x.blocksOf p.2).contains) ||
      !(List.range 4).all x.atticInside then some (15, n)
  else ((x.kept.filter fun k => k.2.type = 8).find? fun k => s.bankBad k.2).map fun k => (6, k.1)

/-! ### Claims and grants -/

/-- The OUTPUT cues that the bank setups of a container name (R437, R664). -/
def Stream.outCues (x : Stream) : List Nat :=
  (x.kept.filter fun k => k.2.type = 8).filterMap fun k =>
    let w := bodyWord k.2.body 0
    if bit w 12 then some (bits w 11 8) else none

/-- Whether two lane spans meet. -/
def spansMeet (a b : Nat × Nat × Nat) : Bool :=
  rangesMeet (bits a.1 6 0) (2 ^ bits a.1 10 8) (bits b.1 6 0) (2 ^ bits b.1 10 8)

/-- Whether the lane groups of a configuration conflict with each other or with enabled groups (R530). -/
def State.lanesConflict (s : State) : List (Nat × Nat × Nat) → Bool
  | [] => false
  | g :: rest => s.lanesTaken (bits g.1 6 0) (bits g.1 10 8) ||
      (s.group (bits g.1 6 0)).any (fun h => h.loop.isSome) || rest.any (spansMeet g) || s.lanesConflict rest

/-- The BU that the lane groups of a configuration add (R410). -/
def State.lanesBu (s : State) (gs : List (Nat × Nat × Nat)) : Nat :=
  (gs.map fun g => laneBu (bits g.1 10 8) (bits g.1 13 12) - s.groupHolds (bits g.1 6 0)).sum

/-! ### Activation -/

/-- The bank setup of an IOBANK section takes effect (R664, R665, R672). -/
def State.setBank (s : State) (sec : Section) : State :=
  let b := bits sec.param 3 0
  let w := bodyWord sec.body 0
  let s := (s.wr (Reg.IOB.CFG.VCCIO b) (bits w 2 0)).wr (Reg.IOB.CFG.DOMAIN b) (bits w 6 4)
  let s := (s.wr (Reg.IOB.CFG.OUTCUE b) (bits w 11 8)).wrb (Reg.IOB.CFG.CUEEN b) (bit w 12)
  let s := s.wr (Reg.IOB.CFG.ACTIVE b) 1
  let words := (List.range 48).map fun n => (pinKey b n, toWord (bodyWord sec.body (1 + n)))
  { s with pins := { s.pins with
    pinWord := words.foldl (fun m kw => m.upd 0 kw.1 kw.2) s.pins.pinWord
    keeper := s.pins.keeper.filter fun k => k.1 / 48 ≠ b } }

/-- At activation every user output takes the committed value of its source, which is its initial value (R667). -/
def State.initPins (s : State) (cs : List Nat) : State :=
  cs.foldl (fun s c => (s.ctx c).pinOuts.foldl (fun s p =>
    match s.wing c p.wing with
    | none => s
    | some wc =>
      let on := match p.enable with
        | some e => s.settle c p.wing wc e
        | none => true
      if on then s.setPin p.bank p.pin (s.settle c p.wing wc p.src) else s) s) s

/-- Whether two contexts are of one fold (R133). -/
def State.sameFold (s : State) (c d : Nat) : Bool :=
  decide (2 ≤ (s.ctx c).foldCount) && (s.ctx c).foldTag == (s.ctx d).foldTag && (s.ctx c).foldCount == (s.ctx d).foldCount

/-- The owner that a block has once the contexts `cs` are given it: with them the contexts of the same fold that have it already
(R131, R214). -/
def State.ownerWith (s : State) (n : Nat) (cs : List Nat) : Owner :=
  let kept := (List.range 4).filter fun d => !cs.contains d && cs.all (s.sameFold d) &&
    (s.attic.ownerOf (n / 24) (n % 24)).any fun o => o.has d
  .ofCtxs ((List.range 4).filter fun d => cs.contains d || kept.contains d)

/-- The attic blocks of the contexts a container carries: owners, valid bits, initial contents (R214, R228). -/
def State.giveAttic (s : State) (x : Stream) (cs : List Nat) : State :=
  let blocks := (cs.flatMap x.blocksOf).eraseDups
  let owned := blocks.map fun n => (n, s.ownerWith n (cs.filter fun c => (x.blocksOf c).contains n))
  let m := owned.foldl (fun m o => m.clearBlock (o.1 / 24) (o.1 % 24)) s.attic
  let m := putAttic Attic.write m ((x.kept.map Prod.snd).filter fun k => cs.contains (bits k.param 9 8))
  { s with attic := { m with owner := (m.owner.filter fun o => !owned.any fun p => p.1 = o.1) ++ owned } }

/-- The mode registers of a configuration (R132, R154, R155); a rotation starts with slot 0 (DESIGN CHOICE, assumption 76). -/
def State.setMode (s : State) (m : Nat × Nat) : State :=
  let mode := bits m.1 1 0
  let q := bits m.1 10 8
  let len := bits m.1 20 16
  let run := if mode = 0 then bits m.1 5 4 else if mode = 1 then 0 else bits m.2 1 0
  let s := s.store Reg.CTX.MODE.MODE.addr (toWord (mode + run * 2 ^ 2 + (if mode = 1 then q * 2 ^ 4 else 0) +
    if mode = 2 then len * 2 ^ 8 else 0))
  s.store Reg.CTX.ROTATION.SLOTS.addr (toWord (if mode = 2 then m.2 % 2 ^ (2 * len) else 0))

/-- The contexts of a container take their place (R102, R154, R155, R512): plane states, promises, cards, digests. -/
def State.placeCtx (s : State) (x : Stream) (inUse : List Nat) (c : Nat) : State :=
  if !x.carries c then (s.wr (planeStateF c) 0).loadCard c 0 []
  else
    let s := (s.wr (planeStateF c) (if inUse.contains c then 3 else 2)).wr (planeFreshF c) 0
    let w := x.pspWord c
    let s := (s.wr (Reg.STEP.PSP.PSP c) (bits w 19 0)).wr (Reg.STEP.PSP.NSP c) (bits w 51 32)
    let e := x.cardOf c
    let s := (s.loadCard c e.1 e.2).storeFrames (x.frames c)
    s.wr (Reg.CTX.DIGEST.DIGEST c) (digest64 x.digest)

/-- Steps 5 and 6 of R530: the configuration is activated. -/
def State.activate (s : State) (x : Stream) : State :=
  let m := x.modeWords
  let inUse := modeSet m
  let cs := x.carried
  let banks := (x.kept.filter fun k => k.2.type = 8).map Prod.snd
  let named := banks.flatMap fun sec =>
    ((List.range 48).filter fun n => bits (bodyWord sec.body (1 + n)) 3 0 ≠ 0).map fun n => pinKey (bits sec.param 3 0) n
  let s := ((s.wr Reg.CFG.STAT.STREAM 5).debugActivation named).applyMoves fun _ => true
  let s := { s with
    cfg := { s.cfg with ctxs := x.ctxs, channels := x.channels, brokenWc := [], sha := x.digest
                        lanesetGroups := x.laneGroups.map fun (g : Nat × Nat × Nat) => bits g.1 6 0 }
    corr := { s.corr with moved := [] }
    fab := { s.fab with poison := [], poisonRaise := [] }
    pins := { s.pins with tap := .bypass } }
  let s := s.setMode m
  let s := (List.range 4).foldl (fun s c => s.placeCtx x inUse c) s
  let s := s.powerOn (s.wingsOf cs)
  let s := cs.foldl State.initCtx s
  let s := (((s.wr Reg.STEP.STAT.STATE seHalted).wr Reg.STEP.COUNT.COUNT 0).wr Reg.STEP.STAT.PENDING 0).wr
    Reg.CTX.SWCOUNT.COUNT 0
  let s := s.demandSync.setGrant 0
  let s := s.giveAttic x cs
  let s := s.loadActive (s.rd Reg.CTX.MODE.ACTCTX)
  let s := cs.foldl State.placeRoutes (banks.foldl State.setBank s)
  let s := x.laneGroups.foldl (fun s g => s.enableGroup g.1 g.2.1 g.2.2 true) s
  let s := (s.initPins inUse).wr Reg.CFG.STAT.ACTIVE 1
  let s := (s.wr Reg.CFG.STAT.REASON 0).wr Reg.CFG.STAT.SECTION 0
  let s := s.wr Reg.CFG.DIGEST.DIGEST (digest64 x.digest)
  s.post 0x0901 sevInfo srcDevice (digest64 x.digest)

/-- A refusal of CFG_END at step 3 or 4 (R530): the stream stays VERIFIED and the command may be repeated. -/
def State.endRefused (s : State) (status : Nat) : State :=
  let cmd := s.cfg.endCmd
  let s := { s with cfg := { s.cfg with endCmd := none } }.wr Reg.CFG.STAT.STREAM 4
  match cmd with
  | some id => s.complete id status 0 []
  | none => s

/-- CFG_END once LENGTH bytes have been received (R530); its command is `cfg.endCmd`. -/
def State.cfgFinish (s : State) : State :=
  match s.cfg.stream, s.cfg.endCmd with
  | some x, some id =>
    if !s.trailerOk x then s.streamFails 14 x.sections
    else if !x.selected then
      ({ s with cfg := { s.cfg with endCmd := none } }.streamEnds stOk).complete id stOk (endDetail 0 0 true) []
    else match s.inconsistent x with
      | some f => s.streamFails f.1 f.2
      | none =>
        let cues := x.outCues
        let groups := x.laneGroups
        let wings := (x.carried.flatMap x.planeWings).eraseDups.length
        let routes := x.ctxs.map fun c => (c.wings.flatMap fun w => w.2.outs.flatMap fun o => o.route) ++
          c.porchIns.flatMap fun p => p.route
        let hops := (modeSet x.modeWords).flatMap fun c => routes.getD c []
        let dirs := 2 * ((hops.map Hop.dir).eraseDups).length
        let lanes := s.lanesBu groups
        if cues.any (fun k => !s.cueFree k fnOutput) || s.lanesConflict groups then s.endRefused stTaken
        else if s.freeBu < wings + dirs + lanes then s.endRefused stBudget
        else
          let s := cues.foldl (fun s k => s.claimCue k fnOutput) s
          let s := (s.grantAlways 0x09 wings).grantAlways 0x0B dirs
          let s := ((s.activate x).streamEnds stOk).owedFault
          let s := s.pacingSync.corrSync.showNext.refillAhead 2
          if s.refilled 2 then { s with cfg := { s.cfg with endCmd := none } }.complete id stOk 0 []
          else s.wr Reg.CFG.STAT.STREAM 5
  | _, _ => s

/-! ### The commands -/

/-- Whether every tower has reported ready (R38). -/
def State.allReady (s : State) : Bool := (List.range 8).all s.towerReady

/-- A stream opens (R525): the new start key ends protection first (R342). -/
def State.openStream (s : State) (src : Bool) (addr timeout : Nat) : State :=
  let units := s.protectedUnits.length
  let s := s.drainProtected.eraseKey
  let s := { s with crypt := { s.crypt with keys := s.crypt.keys + 1 } }.wr Reg.CRYPT.STAT.KEY 1
  let s := (s.post 0x0606 sevInfo srcDevice (units % 64)).grantAlways 0x0E 6
  let x : Stream := { bytes := [], parsed := 0, next := 0, kept := [], headerOk := false, selected := false,
                      streamKey := [], failed := none, descs := [], descAddr := addr, descDone := src, lastByte := s.now,
                      timeoutMs := timeout }
  let s := { s with cfg := { s.cfg with stream := some x } }
  let s := (s.wr Reg.CFG.STAT.STREAM 1).wrb Reg.CFG.STAT.SRC src
  (s.wr Reg.CFG.RXBYTES.BYTES 0).wr Reg.CFG.LENGTH.BYTES 0

/-- CFG_BEGIN (R525, R542). -/
def cfgBeginBody (c : Cmd) (s : State) : State :=
  let t := c.f 2 19 0
  s.checked c
    [(c.reserved [[(0, 0)], [(63, 0)], [(19, 0)]] || decide (t < 100) || decide (600000 < t), stBadParam, 0),
     (s.stepping || s.tripped, stState, 0),
     (s.streamOpen || s.cfg.staging.isSome || !s.cfg.jobs.isEmpty || !s.allReady, stBusy, 0),
     (decide (s.freeBu < 6), stBudget, 0)]
    fun s => (s.openStream (c.b 0 0) (c.w 1) t).ok c []

/-- CFG_BEGIN's command. -/
def cfgBeginCmd : Command := command 0x0901 (exactly 3) cfgBeginBody

/-- CFG_BEGIN (R542). -/
def execCfgBegin (dt : Nat) (hdr : CmdHdr) (ws : List Word) (s : State) : Answer :=
  s.event dt fun s => s.issueCmd cfgBeginCmd hdr ws

/-- CFG_END (R528-R530): with a descriptor list it waits until the list has been read; through the window, fewer than
LENGTH bytes are SHORT at once (DEDUCED, assumption 31). -/
def cfgEndBody (c : Cmd) (s : State) : State :=
  s.checked c [(s.cfg.stream.isNone, stState, 0), (s.cfg.endCmd.isSome, stBusy, 0)] fun s =>
    match s.cfg.stream with
    | none => s
    | some x =>
      match x.failed with
      | some f => (s.streamEnds (reasonStatus f.1)).answer c (reasonStatus f.1) (endDetail f.2 f.1 false) []
      | none =>
        let s := { s with cfg := { s.cfg with endCmd := some c.id } }
        if x.whole then s.cfgFinish
        else if s.rdb Reg.CFG.STAT.SRC then s.streamFails 9 x.next
        else s

/-- CFG_END's command. -/
def cfgEndCmd : Command := command 0x0902 (exactly 0) cfgEndBody

/-- CFG_END (R542). -/
def execCfgEnd (dt : Nat) (hdr : CmdHdr) (ws : List Word) (s : State) : Answer :=
  s.event dt fun s => s.issueCmd cfgEndCmd hdr ws

/-- CFG_STREAM_TIMEOUT (R528 reason 10): no CFG_END within TIMEOUT of the last byte, or of CFG_BEGIN. -/
def execCfgStreamTimeout (dt : Nat) (s : State) : Answer :=
  s.event dt fun s =>
    match s.cfg.stream with
    | none => s
    | some x =>
      s.whenever (x.failed.isNone && s.cfg.endCmd.isNone && s.rd Reg.CFG.STAT.STREAM != 4 &&
          decide (x.lastByte + x.timeoutMs * fsMs ≤ s.now)) fun s => s.streamFails 10 0

/-- CFG_ABORT (R531, R535, R542). -/
def cfgAbortBody (c : Cmd) (s : State) : State :=
  let job := s.cfg.jobs.find? fun j => j.id = c.f 0 31 16
  s.checked c
    [(c.reserved [[(0, 0), (31, 16)]], stBadParam, 0),
     (if c.b 0 0 then job.isNone else s.cfg.stream.isNone, stState, 0)]
    fun s =>
      let s := if c.b 0 0 then
          match job with
          | some j => s.jobEnds j stAborted 17 false
          | none => s
        else s.streamFails 17 0
      s.ok c []

/-- CFG_ABORT's command. -/
def cfgAbortCmd : Command := command 0x0903 (exactly 1) cfgAbortBody

/-- CFG_ABORT (R542). -/
def execCfgAbort (dt : Nat) (hdr : CmdHdr) (ws : List Word) (s : State) : Answer :=
  s.event dt fun s => s.issueCmd cfgAbortCmd hdr ws

end Sys2Proof.Machine
end

