-- ==== Sys2Proof/Machine/Stepping.lean ====
section
/-! DEFINITION. The step family: the step commands (R111), the register run controls (R85), and the events of a step:
LAUNCH, pacer ticks, rounds, tokens, completion, COMMIT, SWITCH, refills, the hang limit, the SU monitor (R51-R113,
R114-R127). -/

namespace Sys2Proof.Machine

/-! ### Step commands -/

/-- STEP_CONFIGURE (R111, R93). -/
def stepConfigureBody (c : Cmd) (s : State) : State :=
  let mode := c.f 0 1 0
  let period := c.f 1 19 0
  let cueStart := c.b 0 6
  let cue := c.f 0 11 8
  let cs := s.ctxsInUse
  let badPeriod := mode == 1 && (decide (period < 20) || decide (period < maxList (s.promises s.ctxMode cs)))
  let demand := s.demandOf mode s.ctxMode period cs
  s.checked c
    [(c.reserved [[(1, 0), (4, 4), (5, 5), (6, 6), (11, 8)], [(19, 0)]] || mode == 3 || badPeriod, stBadParam, 0),
     (s.engine ≠ seHalted, stState, 0),
     (s.engineBusy, stBusy, 0),
     (cueStart && !s.cueFree cue fnStep, stTaken, 0),
     ((s.requestDemand demand (c.b 0 4)).isNone, stBudget, 0)]
    fun s =>
      let s := (s.requestDemand demand (c.b 0 4)).getD s
      let s := if s.rd Reg.STEP.CTRL.MODE = 3 then
          { (s.releaseCue (s.rd Reg.TIME.REEL.CUE)).store Reg.TIME.REEL.REELID.addr 0 with
            time := { s.time with reel := none } }
        else s
      let old := s.rd Reg.STEP.PACE.CUE
      let s := if s.rdb Reg.STEP.PACE.CUESTART && s.cueFunc old == fnStep && !(cueStart && old == cue) then
          s.releaseCue old else s
      let s := if cueStart then s.claimCue cue fnStep else s
      let s := (s.wr Reg.STEP.CTRL.MODE mode).wr Reg.STEP.PACE.PERIOD period
      let s := ((s.wrb Reg.STEP.PACE.SLIP (c.b 0 5)).wrb Reg.STEP.PACE.CUESTART cueStart).wr Reg.STEP.PACE.CUE cue
      let s := { s with step := { s.step with strict := c.b 0 4 } }.pacingSync
      s.answer c stOk (s.rd Reg.STEP.BUDGET.GRANT + s.rd Reg.STEP.BUDGET.DEMAND * 2 ^ 16) []

/-- STEP_CONFIGURE's command. -/
def stepConfigureCmd : Command := command 0x0101 (exactly 2) stepConfigureBody

/-- STEP_CONFIGURE (R111). -/
def execStepConfigure (dt : Nat) (hdr : CmdHdr) (ws : List Word) (s : State) : Answer :=
  s.event dt fun s => s.issueCmd stepConfigureCmd hdr ws

/-- The entries of a CARD_LOAD, one in each half word, low half first (R111). -/
def Cmd.cardWords (c : Cmd) : List Nat :=
  (List.range (c.f 0 44 32)).map fun i => bits (c.w (1 + i / 2)) (32 * (i % 2) + 31) (32 * (i % 2))

/-- CARD_LOAD (R97, R102, R111). -/
def cardLoadBody (c : Cmd) (s : State) : State :=
  let seg := c.f 0 1 0
  let base := c.f 0 27 16
  let len := c.f 0 44 32
  let es := c.cardWords
  let overlaps := [0, 1, 2, 3].any fun k => k != seg &&
    (let b := s.rd (Reg.STEP.CARDSEG.BASE k)
     let n := s.rd (Reg.STEP.CARDSEG.LEN k)
     rangesMeet base len b n && !(b == base && n == len))
  let spare := len % 2 == 1 && bits (c.w ((len + 1) / 2)) 63 32 != 0
  s.checked c
    [(badBits (c.w 0) [(1, 0), (27, 16), (44, 32)] || es.any (fun e => decide (2 ^ 17 ≤ e)) || spare ||
        decide (4096 < base + len) || overlaps, stBadParam, 0),
     (s.engine ≠ seHalted && s.engine ≠ seUnconfigured, stState, 0),
     (s.step.startWait.isSome, stBusy, 0)]
    fun s => (s.loadCard seg base es).ok c []

/-- The payload of CARD_LOAD: one word, then two entries to a word (R111). -/
def cardLoadLen (ws : List Word) : Bool :=
  match ws with
  | w :: rest => rest.length == (fieldOf w 44 32 + 1) / 2
  | [] => false

/-- CARD_LOAD's command. -/
def cardLoadCmd : Command := command 0x0102 cardLoadLen cardLoadBody

/-- CARD_LOAD (R111). -/
def execCardLoad (dt : Nat) (hdr : CmdHdr) (ws : List Word) (s : State) : Answer :=
  s.event dt fun s => s.issueCmd cardLoadCmd hdr ws

/-- STEP_RUN (R111). -/
def stepRunBody (c : Cmd) (s : State) : State :=
  s.checked c ((s.rd Reg.STEP.CTRL.MODE = 2, stBadParam, 0) :: s.runRefusals) fun s => s.startRun (some c.id) none

/-- STEP_RUN's command. -/
def stepRunCmd : Command := command 0x0103 (exactly 0) stepRunBody

/-- STEP_RUN (R111). -/
def execStepRun (dt : Nat) (hdr : CmdHdr) (ws : List Word) (s : State) : Answer :=
  s.event dt fun s => s.issueCmd stepRunCmd hdr ws

/-- STEP_HALT (R83, R89, R111, R458). -/
def stepHaltBody (c : Cmd) (s : State) : State := s.checked c [] fun s => s.requestHalt (some c.id)

/-- STEP_HALT's command. -/
def stepHaltCmd : Command := command 0x0104 (exactly 0) stepHaltBody

/-- STEP_HALT (R111). -/
def execStepHalt (dt : Nat) (hdr : CmdHdr) (ws : List Word) (s : State) : Answer :=
  s.event dt fun s => s.issueCmd stepHaltCmd hdr ws

/-- STEP_SINGLE (R111). -/
def stepSingleBody (c : Cmd) (s : State) : State :=
  let n := c.f 0 31 0
  s.checked c ((badBits (c.w 0) [(31, 0)] || n == 0, stBadParam, 0) :: s.runRefusals)
    fun s => s.startRun (some c.id) (some n)

/-- STEP_SINGLE's command. -/
def stepSingleCmd : Command := command 0x0105 (exactly 1) stepSingleBody

/-- STEP_SINGLE (R111). -/
def execStepSingle (dt : Nat) (hdr : CmdHdr) (ws : List Word) (s : State) : Answer :=
  s.event dt fun s => s.issueCmd stepSingleCmd hdr ws

/-- STEP_STATUS (R111): ten registers, read without clearing, and the NOTDONE registers. -/
def stepStatusBody (c : Cmd) (s : State) : State :=
  s.checked c [] fun s => s.ok c
    ([Reg.STEP.CTRL.MODE.addr, Reg.STEP.STAT.STATE.addr, Reg.STEP.COUNT.COUNT.addr, Reg.STEP.CARDPOS.POS0.addr,
      Reg.STEP.LASTSTEP.DUR.addr, Reg.STEP.OVRCNT.COUNT.addr, Reg.STEP.OVRSTEP.STEPNO.addr,
      Reg.STEP.PACING.MININT.addr, Reg.STEP.BUDGET.DEMAND.addr, Reg.STEP.LATECNT.COUNT.addr].map s.readReg ++
      (List.range 8).map fun t => s.readReg (Reg.STEP.NOTDONE.WINGS t).addr)

/-- STEP_STATUS's command. -/
def stepStatusCmd : Command := command 0x0106 (exactly 0) stepStatusBody

/-- STEP_STATUS (R111). -/
def execStepStatus (dt : Nat) (hdr : CmdHdr) (ws : List Word) (s : State) : Answer :=
  s.event dt fun s => s.issueCmd stepStatusCmd hdr ws

/-! ### The state image -/

/-- The image that STATE_SAVE writes (R111, R207). -/
def State.image (s : State) : Image :=
  { ff := s.fab.ff, landing := s.fab.landing, mac := s.fab.mac, bsel := s.fab.bsel,
    count := s.rd Reg.STEP.COUNT.COUNT, pos := [0, 1, 2, 3].map s.cardIndex, digest := s.cfg.sha }

/-- A STATE region that equals the one asked for (R333). -/
def State.stateRegion (s : State) (a : Nat) : Bool :=
  s.g6.regions.any fun r => r.2.base == a && r.2.size == imageSize && r.2.owner == .state

/-- STATE_SAVE (R111, R332, R333): the region is allocated, or reused, and the image is on its way. -/
def stateSaveBody (c : Cmd) (s : State) : State :=
  let a := c.w 0
  let refusal := if s.stateRegion a then none else s.allocRefusal a imageSize
  s.checked c
    [(decide (a % 4096 ≠ 0) || refusal == some stBadParam, stBadParam, 0),
     (s.engine ≠ seHalted, stState, 0),
     (s.g6.save.isSome, stBusy, 0),
     (refusal == some stTaken, stTaken, 0)]
    fun s =>
      let s := if s.stateRegion a then s else s.allocRegion a imageSize .state
      { s with g6 := { s.g6 with
        save := some (c.id, a, s.image)
        images := s.g6.images.filter fun g => !rangesMeet g.1 imageSize a imageSize } }

/-- STATE_SAVE's command. -/
def stateSaveCmd : Command := command 0x0107 (exactly 1) stateSaveBody

/-- STATE_SAVE (R111). -/
def execStateSave (dt : Nat) (hdr : CmdHdr) (ws : List Word) (s : State) : Answer :=
  s.event dt fun s => s.issueCmd stateSaveCmd hdr ws

/-- The lines of a region of a state image that lie in a channel. -/
def State.imageUnits (s : State) (a ch : Nat) : Nat :=
  8 * ((List.range (imageSize / 512)).filter fun b => s.g6Chan (a + 512 * b) = ch).length

/-- The lines of a region of a state image that lie in protected units. -/
def State.imageSealed (s : State) (a : Nat) : List Nat :=
  if s.protectedUnits.any fun u => rangesMeet a imageSize (u * 0x40000000) 0x40000000 then
    ((List.range (imageSize / 64)).map fun i => a + 64 * i).filter fun l => s.protectedUnits.contains (l / 0x40000000)
  else []

/-- Every channel accessed for a state image (R318, R338). -/
def State.imageAccess (s : State) (a : Nat) (write : Bool) : State :=
  let s := (List.range 8).foldl (fun s k => s.leaveRefresh k false) s
  (List.range 16).foldl (fun s ch => { s.countUnits ch write (s.imageUnits a ch) with
    g6 := { s.g6 with lastAccess := s.g6.lastAccess.upd 0 ch s.now } }) s

/-- The words of image `n` written to its region (R111), in protected units through their engines (R367), and whether all of them could
be written.  The layout of an image is not in the manual: its words are open values. -/
def State.writeImage (s : State) (a n : Nat) : State × Bool :=
  let s := s.imageAccess a true
  let lines := s.imageSealed a
  let r := lines.foldl (fun (acc : State × Bool) l =>
    let x := acc.1.sealLine iniKeeper l ((List.range 8).map fun i => (i, 255, Config.imageWord n (l / 8 + i - a / 8))) false
    (x.1, acc.2 && x.2.status == hsOk)) (s.fillWith (.image a n), true)
  (r.1, r.2 && (List.range 16).all fun ch => !r.1.chanDown ch)

/-- The image is in external memory (R111).  Where some of it cannot be written the status is HW_FAULT (R335; DESIGN CHOICE,
assumption 113, for a line that its engine refuses). -/
def State.saveImage (s : State) : State :=
  match s.g6.save with
  | none => s
  | some (id, a, img) =>
    let r := { s with free := s.free + 1, g6 := { s.g6 with save := none } }.writeImage a s.free
    if r.2 then { r.1 with g6 := { r.1.g6 with images := r.1.g6.images ++ [(a, img)] } }.complete id stOk 0 []
    else r.1.complete id stHwFault 0 []

/-- STATE_SAVE_COMPLETE (R111). -/
def execStateSaveComplete (dt : Nat) (s : State) : Answer := s.event dt State.saveImage

/-- The image at an address read back (R111, R324, R325, R367): whether every word of it is delivered. -/
def State.readImage (s : State) (a : Nat) : State × Bool :=
  let s := s.imageAccess a false
  let plain := (s.g6.flips.filter fun kv => a ≤ 8 * kv.1 && 8 * kv.1 < a + imageSize &&
    s.unitMode (8 * kv.1 / 0x40000000) == 0).map Prod.fst
  let r := s.g6ReadAll iniKeeper false plain
  let x := (s.imageSealed a).foldl (fun (acc : State × Bool) l =>
    let y := acc.1.openLine iniKeeper l false false
    (y.1, acc.2 && y.2.status == hsOk)) (r.1, r.2.2.isEmpty)
  (x.1, x.2 && (List.range 16).all fun ch => !x.1.chanDown ch)

/-- An image loaded (R111, R207): copies, landings, banks, the step count, the card positions; PENDING is cleared. -/
def State.loadImage (s : State) (img : Image) : State :=
  let s := { s with
    fab := { s.fab with ff := img.ff, landing := img.landing, mac := img.mac, bsel := img.bsel }
    step := { s.step with saved := none } }
  let s := (s.wr Reg.STEP.COUNT.COUNT img.count).wr Reg.STEP.STAT.PENDING 0
  img.pos.zipIdx.foldl (fun s x => s.wr ⟨Reg.STEP.CARDPOS.POS0.addr, 16 * x.2 + 11, 16 * x.2⟩ x.1) s

/-- STATE_RESTORE (R111).  The manual does not say what an image that cannot be read gives: HW_FAULT, and nothing is loaded (DESIGN
CHOICE, assumption 113). -/
def stateRestoreBody (c : Cmd) (s : State) : State :=
  let found := s.g6.images.find? fun g => g.1 = c.w 0 ∧ g.2.digest = s.cfg.sha
  s.checked c
    [(found.isNone, stBadParam, 0), (s.engine ≠ seHalted, stState, 0), (s.step.startWait.isSome, stBusy, 0)]
    fun s =>
      match found with
      | none => s
      | some (a, img) =>
        let r := s.readImage a
        if r.2 then (r.1.loadImage img).ok c [] else r.1.complete c.id stHwFault 0 []

/-- STATE_RESTORE's command. -/
def stateRestoreCmd : Command := command 0x0108 (exactly 1) stateRestoreBody

/-- STATE_RESTORE (R111). -/
def execStateRestore (dt : Nat) (hdr : CmdHdr) (ws : List Word) (s : State) : Answer :=
  s.event dt fun s => s.issueCmd stateRestoreCmd hdr ws

/-! ### Register run controls -/

/-- A write of 1 to `STEP.CTRL.RUN` (R85). -/
def State.writeRun (s : State) : State := s.registerRun (s.rd Reg.STEP.CTRL.MODE == 2) none

/-- A write of 1 to `STEP.CTRL.HALT` (R83, R85). -/
def State.writeHalt (s : State) : State :=
  (if s.engine = seRunning then s.wr Reg.STEP.CTRL.HALT 1 else s).requestHalt none

/-- A write of `STEP.SINGLE.NSTEP` (R85); a write of 0 does nothing. -/
def State.writeNstep (s : State) (n : Nat) : State :=
  if n % 2 ^ 32 = 0 then s else s.registerRun false (some (n % 2 ^ 32))

/-- STEP_CTRL_RUN (R85). -/
def execStepCtrlRun (dt : Nat) (s : State) : Answer :=
  s.event dt fun s => s.access Reg.STEP.CTRL.RUN.addr State.writeRun

/-- STEP_CTRL_HALT (R83, R85): with RUN set beside it, it acts as a halt. -/
def execStepCtrlHalt (dt : Nat) (_alsoRun : Bool) (s : State) : Answer :=
  s.event dt fun s => s.access Reg.STEP.CTRL.HALT.addr State.writeHalt

/-- STEP_SINGLE_NSTEP (R85). -/
def execStepSingleNstep (dt n : Nat) (s : State) : Answer :=
  s.event dt fun s => s.access Reg.STEP.SINGLE.NSTEP.addr fun s => s.writeNstep n

/-! ### Launching -/

/-- STEP_LAUNCH (R51, R78): the LAUNCH where the launch rule allows; a full trace buffer under policy STALL holds it
(R616). -/
def execStepLaunch (dt : Nat) (pins : List (Nat × Bool)) (s : State) : Answer :=
  s.event dt fun s =>
    match s.step.run with
    | none => s
    | some r =>
      s.whenever (s.launchDue r) fun s =>
        match s.dbg.trace, s.traceStalls with
        | some t, true =>
          if t.held then s
          else { s with dbg := { s.dbg with trace := some { t with held := true } } }.count Reg.DBG.TRCNT.STALLS 1
        | some t, false => { s with dbg := { s.dbg with trace := some { t with held := false } } }.launch r pins
        | none, _ => s.launch r pins

/-- PACER_TICK (R80, R81, R550, R554): a tick falls, and the next falls a period of the pacer's loop later. -/
def execPacerTick (dt : Nat) (s : State) : Answer :=
  s.event dt fun s =>
    match s.step.run with
    | none => s
    | some r =>
      s.whenever (s.rd Reg.STEP.CTRL.MODE == 1 && (!r.waitCue || r.cueHit) && decide (r.nextFall ≤ s.now)) fun s =>
        let r := { r with
          fallen := r.fallen + 1
          lastFall := r.nextFall
          nextFall := r.nextFall + s.tickPeriod }
        { s with step := { s.step with run := some r } }

/-! ### Rounds, tokens and completion -/

/-- WING_ROUND_END (R57, R58): the round in progress of a wing has lasted its settle count. -/
def execWingRoundEnd (dt wing : Nat) (s : State) : Answer :=
  s.event dt fun s =>
    match s.step.cur with
    | none => s
    | some r =>
      match r.wings.find? fun x => x.wing = wing, s.wing (s.phaseCtx r) wing with
      | some x, some wc =>
        s.whenever (r.stage == .evaluate && x.active && decide (x.began + s.roundTime wc wing ≤ s.now)) fun s =>
          s.roundEnd wing
      | _, _ => s

/-- A token's value at a wing port (R62, R177): presented until the next, and the last committed value after COMMIT. -/
def State.presentPort (s : State) (c wing port : Nat) (v : Word) : State :=
  let k := portKey wing port c
  ({ s with fab := { s.fab with
    inVal := s.fab.inVal.upd 0 k v
    srcIso := s.fab.srcIso.filter fun x => x ≠ k
    tokenStep := s.fab.tokenStep ++ [(2 * k, v)] } }).portGot wing port

/-- A token's value at a porch output channel (R64). -/
def State.presentPorch (s : State) (c porch chan : Nat) (v : Word) : State :=
  let k := porchKey porch chan c
  let s := { s with fab := { s.fab with
    porchVal := s.fab.porchVal.upd 0 k v, tokenStep := s.fab.tokenStep ++ [(2 * k + 1, v)] } }
  match s.step.cur with
  | some r => s.setCur { r with porchGot := (porch, chan) :: r.porchGot }
  | none => s

/-- The acknowledge of a token starts back to its sender (R61, R63), over the returns of the groups that the token has crossed
(R257). -/
def State.sendAck (s : State) (t : Token) : State :=
  match s.step.cur, t.src with
  | some r, .wing w p =>
    let route := ((s.outPort (s.phaseCtx r) w p).map OutPort.route).getD []
    let back := (route.take (route.length - t.hops.length)).reverse
    s.setCur { r with tokens := r.tokens ++
      [{ src := t.dest, dest := .wing w p, value := 0, hops := back, ready := s.now, sentAt := s.now, isAck := true }] }
  | _, _ => s

/-- A token reaches its destination: an isolated wing, or a port that has been released, only acknowledges it (R176,
R178). -/
def State.tokenArrives (s : State) (r : StepRun) (t : Token) : State :=
  let c := s.phaseCtx r
  let s := s.setCur { r with tokens := r.tokens.erase t }
  let s := match t.dest with
    | .wing w p =>
      let got := r.wings.any fun x => x.wing == w && x.got.contains p
      if s.isolated c w || got then s else s.presentPort c w p t.value
    | .porch q ch => if r.porchGot.contains (q, ch) then s else s.presentPorch c q ch t.value
  s.sendAck t

/-- The end of a channel as the fabric names it. -/
def endPeer : ChanEnd → Peer
  | .wing w p => .wing w p
  | .porch q c => .porch q c

/-- TOKEN_ARRIVAL (R62-R64): a token that has crossed every corridor of its route reaches a port. -/
def execTokenArrival (dt : Nat) (dest : ChanEnd) (s : State) : Answer :=
  s.event dt fun s =>
    match s.step.cur with
    | none => s
    | some r =>
      match r.tokens.find? fun t => !t.isAck && t.dest == endPeer dest && (t.hops.isEmpty || s.routeCut t.hops) &&
          decide (t.ready ≤ s.now) with
      | some t => s.tokenArrives r t
      | none => s

/-- TOKEN_ACK_ARRIVAL (R59, R61): an acknowledge that has crossed every corridor of its way back returns to an outbound port; where a
tower under reset cuts the way, the sending corridor end acknowledges (R291). -/
def execTokenAckArrival (dt wing port : Nat) (s : State) : Answer :=
  s.event dt fun s =>
    match s.step.cur with
    | none => s
    | some r =>
      match r.tokens.find? fun t => t.isAck && t.dest == Peer.wing wing port && (t.hops.isEmpty || s.routeCut t.hops) with
      | none => s
      | some t =>
        let upd := fun (x : WingRun) => if x.wing = wing then { x with acked := port :: x.acked } else x
        (s.setCur { r with tokens := r.tokens.erase t, wings := r.wings.map upd }).markDone wing

/-- DONE_AT_STEP_MASTER (R48, R65, R66): in device scope the done of a tower, or of a porch, reaches the step master. -/
def execDoneAtStepMaster (dt : Nat) (porch : Bool) (unit : Nat) (s : State) : Answer :=
  s.event dt fun s =>
    match s.step.cur with
    | none => s
    | some r =>
      if porch then
        s.whenever (s.deviceScope r.ctx && r.stage == .evaluate && (s.phasePorches r).contains unit && s.porchDone r unit &&
            !r.donePorches.contains unit) fun s =>
          s.setCur { r with donePorches := unit :: r.donePorches, lastDone := s.now }
      else
        s.whenever (s.deviceScope r.ctx && r.stage == .evaluate && r.towers.contains unit && r.towerDone unit &&
            !r.doneTowers.contains unit) fun s =>
          s.setCur { r with doneTowers := unit :: r.doneTowers, lastDone := s.now }

/-- COMMIT_COMPLETE (R66, R99, R162): COMMIT has reached every flip-flop. -/
def execCommitComplete (dt : Nat) (s : State) : Answer :=
  s.event dt fun s =>
    match s.step.cur with
    | none => s
    | some r => s.whenever (r.stage == .evaluate && s.allDone r && decide (s.commitFrom r ≤ s.now)) fun s => s.commitPhase r

/-- SWITCH_COMPLETE (R122, R126): every room refilled for it has acknowledged and the phase floor of 2.0 ns has passed. -/
def execSwitchComplete (dt : Nat) (s : State) : Answer :=
  s.event dt fun s =>
    match s.step.cur with
    | none => s
    | some r =>
      s.whenever (r.stage == .switch && s.refilled 0 && decide (r.evalAt + 2 * fsNs ≤ s.now)) fun s => s.switchPhase r

/-! ### Refills -/

/-- Whether a stored frame fails its golden signature (R123, R536). -/
def Frame.bad (f : Frame) : Bool := crc32 f.bytes != f.sig

/-- Whether some stored frame of a wing-context fails its golden signature. -/
def State.framesBad (s : State) (c wing : Nat) : Bool :=
  s.cfg.planes.any fun kv => kv.1 / 1024 == c * 512 + wing && kv.2.bad

/-- A stored frame that a read finds in error: where its contents were sound, an upset has changed its signature
(R117). -/
def State.upsetFrame (s : State) (c wing room : Nat) : State :=
  let k := frameKey c wing room
  let f := s.cfg.planes.at Frame.none k
  if f.bad then s
  else
    let d := s.drawWord
    { d.2 with cfg := { d.2.cfg with
      planes := d.2.cfg.planes.upd Frame.none k { f with sig := Nat.xor f.sig (2 ^ (d.1.toNat % 32)) } } }

/-- A repeated burst has held the closing SWITCH of the step in progress until now: the lengthening counts toward the step's own end time
(R35, R86, R87). -/
def State.burstHeld (s : State) (x : Refill) : State :=
  match s.step.cur with
  | some r =>
    if x.serves = 0 ∧ !x.main ∧ r.stage = .switch ∧ r.last then
      s.setCur { r with ownEnd := max r.ownEnd (s.now + 1600000 - r.launchAt - r.remoteLast) }
    else s
  | none => s

/-- A refill burst acknowledged: the wing's first bursts, or the repeated burst of a room (R35, R121). -/
def State.burstAck (s : State) (x : Refill) (room : Nat) : State :=
  let s := s.burstHeld x
  let x := if x.main then { x with main := false } else { x with retry := x.retry.filter (· ≠ room) }
  if !x.main && x.retry.isEmpty then (s.endRefill x true).refillsSettle else s.setRefill x

/-- REFILL_BURST_DONE (R35-R37, R121-R124): the bursts of a refill end; `badBonds` are the plane and service bonds of the room, and
`badSpares` the spare bonds, that a bond test finds failed. -/
def execRefillBurstDone (dt wing room : Nat) (result : BurstEnd) (badBonds badSpares : List Nat) (s : State) : Answer :=
  s.event dt fun s =>
    match s.fab.refills.find? fun x => x.wing = wing with
    | none => s
    | some x =>
      match result with
      | .ack =>
        s.whenever (!(x.main && s.framesBad x.ctx wing)) fun s => s.burstAck x room
      | .crcFail =>
        if x.retry.contains room then
          ((s.noteRefillFail x room 0).bondTest x.wing room (badBonds ++ badSpares.map (1040 + ·))).refillFails x
        else (s.setRefill { x with retry := room :: x.retry }).count Reg.CTX.REFILL.RETRY 1
      | .sigFail =>
        let s := ((s.upsetFrame x.ctx wing room).noteRefillFail x room 1).count Reg.CTX.REFILL.SIGFAIL 1
        (s.sigMismatch wing room x.ctx false).refillFails x

/-! ### Watching a step -/

/-- HANG_LIMIT_EXPIRY (R88): the step in progress has passed the hang limit. -/
def execHangLimitExpiry (dt : Nat) (s : State) : Answer :=
  s.event dt fun s =>
    match s.step.cur with
    | none => s
    | some r =>
      let limit := max 10 (s.rd Reg.STEP.HANGLIM.LIMIT) * fsUs
      s.whenever (s.engine == seRunning && decide (r.launchAt + limit ≤ s.now)) fun s =>
        let late := (r.wings.filter fun x => !x.done).map fun x => x.wing
        let s := (List.range 8).foldl (fun s t =>
          s.wr (Reg.STEP.NOTDONE.WINGS t) ((late.filter fun w => w / 64 = t).map fun w => 2 ^ (w % 64)).sum) s
        let s := (s.wr Reg.STEP.STAT.STATE seHung).post 0x0103 sevError srcDevice
          (((List.range 8).filter fun t => late.any fun w => w / 64 == t).map fun t => 2 ^ t).sum
        if s.step.haltReq then s.hangHalts else s

/-- The `SUMEAS` field of a tower (R112). -/
def suMeasF (t : Nat) : Field :=
  ⟨if t < 4 then (Reg.STEP.SUMEAS.SU_A 0).addr else (Reg.STEP.SUMEAS.SU_A 1).addr, 16 * (t % 4) + 15, 16 * (t % 4)⟩

/-- SU_MONITOR_INTERVAL (R70, R71): each wing's SU in fs, in wing order; the monitors stop in HOLD and below (R560). -/
def execSuMonitorInterval (dt : Nat) (su : List (Nat × Nat)) (s : State) : Answer :=
  s.event dt fun s =>
    s.whenever (s.power == 0) fun s => s.periodic 0 fsMs fun s =>
      let put := fun (m : Cells Nat) (x : Nat × Nat) => m.upd 0 x.1 x.2
      let s := { s with fab := { s.fab with su := su.foldl put s.fab.su } }
      let s := (List.range 8).foldl (fun s t =>
        s.wr (suMeasF t) (min 65535 (maxList ((su.filter fun (x : Nat × Nat) => x.1 / 64 = t).map Prod.snd)))) s
      let limit := s.rd Reg.STEP.SULIM.LIMIT
      let above := su.any fun x => decide (limit < x.2) || decide (65535 < x.2)
      let was := s.step.atRisk
      let s := { s with step := { s.step with atRisk := above } }
      if above ∧ !was then (s.wr Reg.STEP.STAT.AT_RISK 1).post 0x0104 sevWarn srcDevice 1 else s

/-! ### Bank FIFOs -/

/-- BANK_FIFO_WRITE (R105, R106): an entry written on the bank clock; a full FIFO drops it. -/
def execBankFifoWrite (dt bank fifo : Nat) (entry : Word) (s : State) : Answer :=
  s.event dt fun s =>
    s.whenever (decide (bank < 16) && decide (fifo < 4) && s.rdb (Reg.IOB.CFG.ACTIVE bank) &&
        !s.bankInReset bank) fun s =>
      let f := s.fifo bank fifo false
      if 64 ≤ f.entries.length then (s.setFifo { f with ovf := true }).count (Reg.IOB.DROP.INDROP bank) 1
      else s.setFifo { f with entries := f.entries ++ [(entry, s.bankSeen s.now bank)] }

/-- The output pins that an output FIFO feeds take their bits of the entry read (R107, R665); a bidirectional pin while the design enables
it, none while the bank's VCCIO is low (R668). -/
def State.fifoPins (s : State) (bank fifo : Nat) (entry : Word) : State :=
  let fed := (List.range 48).filter fun n =>
    let w := s.pinWord bank n
    bits w 3 0 != 0 && bits w 7 6 == 1 && bits w 9 8 == fifo &&
      (bits w 5 4 == 1 || (bits w 5 4 == 2 && s.pins.output.any fun o => o.1 = pinKey bank n))
  if s.bankLow bank then s else fed.foldl (fun s n => s.setPin bank n (flagOf entry (bits (s.pinWord bank n) 15 10))) s

/-- BANK_FIFO_READ (R107): the bank-clock side takes the oldest entry that it may read. -/
def execBankFifoRead (dt bank fifo : Nat) (s : State) : Answer :=
  s.event dt fun s =>
    let f := s.fifo bank fifo true
    match f.entries with
    | e :: rest => s.whenever (decide (e.2 ≤ s.now) && !s.bankInReset bank) fun s =>
        (s.setFifo { f with entries := rest }).fifoPins bank fifo e.1
    | [] => s

end Sys2Proof.Machine
end

