-- ==== Sys2Proof/Machine/Staging.lean ====
section
/-! DEFINITION. Configuration behind a running design: reads of container data (R518, R526), CTX_STAGE (R144-R151), CFG_WING
(R532-R535), the owner lock (R520-R524), golden signatures, the scanner and the plane mirror (R536-R539). -/

namespace Sys2Proof.Machine

/-! ### Reading container data -/

/-- A descriptor entry read (R526): an entry that breaks R526 fails with reason 18. -/
def Stream.takeDesc (x : Stream) (w0 w1 : Nat) : Stream :=
  let n := bits w1 31 0
  if w0 % 8 ≠ 0 ∨ n = 0 ∨ n % 8 ≠ 0 then x.fail 18 x.next
  else { x with descs := [(w0, n)], descAddr := x.descAddr + 16, descDone := bit w1 32 }

/-- The descriptor list after `n` bytes of its front entry have been read. -/
def Stream.advance (x : Stream) (n : Nat) : Stream :=
  match x.descs with
  | [] => x
  | (a, m) :: rest => { x with descs := if m ≤ n then rest else (a + n, m - n) :: rest }

/-- Whether the descriptor list has ended. -/
def Stream.listEnded (x : Stream) : Bool := x.descs.isEmpty && x.descDone

/-- Whether a read that returns `n` words can be the next one of a descriptor list: two words of an entry, or words of the
front entry's data. -/
def Stream.expects (x : Stream) (n : Nat) : Bool :=
  match x.descs with
  | [] => !x.descDone && n == 2
  | (_, m) :: _ => n != 0 && decide (8 * n ≤ m)

/-- A stream after a read of host memory; `limit` bounds the container bytes taken.  A list that ends before LENGTH fails
with reason 9. -/
def State.fetchHost (s : State) (g : Goal) (x : Stream) (limit : Nat) : HostRead → Stream
  | .failed => x.fail 16 x.next
  | .words ws =>
    if x.descs.isEmpty then x.takeDesc (ws.getD 0 0).toNat (ws.getD 1 0).toNat
    else
      let bs := (wordBytes ws).take (limit - x.bytes.length)
      let y := s.feed g (x.advance (8 * ws.length)) bs
      if y.listEnded && !y.whole && decide (y.bytes.length < limit) then y.fail 9 y.next else y

/-- A stream after a read of GDDR6 from `base` by the configuration engine: its next words, as far as their block of 512 bytes reaches
(R314); a read that fails, at the link (`data` failed) or otherwise, has reason 16. -/
def State.fetchG6 (s : State) (g : Goal) (x : Stream) (base limit : Nat) (data : HostRead) : State × Stream :=
  let want := (if x.headerOk then min limit x.length else 64) - x.bytes.length
  let a := base + x.bytes.length
  let n := max 1 (min ((want + 7) / 8) (64 - a / 8 % 64))
  let r := s.g6Direct iniConfig a n 255 false [] (if data = .failed then .linkError true else .clean 0)
  let s := r.1.touch (8 + s.g6Chan a / 2)
  if r.2.status = hsOk then (s, s.feed g x ((wordBytes r.2.data).take want)) else (s, x.fail 16 x.next)

/-- Data for the full stream. -/
def State.fullFetch (s : State) (data : HostRead) : State :=
  match s.cfg.stream with
  | none => s
  | some x =>
    match data with
    | .failed => s.streamFails 16 x.next
    | .words ws =>
      if x.descs.isEmpty then
        let y := x.takeDesc (ws.getD 0 0).toNat (ws.getD 1 0).toNat
        match y.failed with
        | some f => s.streamFails f.1 f.2
        | none => { s with cfg := { s.cfg with stream := some y } }
      else
        let s := { s with cfg := { s.cfg with stream := some (x.advance (8 * ws.length)) } }
        let s := s.streamData (wordBytes ws)
        match s.cfg.stream with
        | none => s
        | some y =>
          if y.failed.isSome then s
          else if y.whole then s.cfgFinish
          else if y.listEnded then s.streamFails 9 y.next
          else s

/-- Data for the staging (R151): a header LENGTH that differs from the command's ends it with BAD_PARAM. -/
def State.stageFetch (s : State) (st : Staging) (data : HostRead) : State :=
  let x := st.stream
  let r := if st.gddr then s.fetchG6 (.stage st.ctx) x x.descAddr st.length data
    else (s, s.fetchHost (.stage st.ctx) x st.length data)
  let s := r.1
  let y := r.2
  let status := if y.failed.isNone && y.headerOk && y.length != st.length then some stBadParam else none
  let kib := ((y.kept.filter fun k => k.2.type = 1).map fun k => k.2.body.length / 1024).sum
  { s with cfg := { s.cfg with staging := some { st with stream := y, status := status } } }.wr Reg.CTX.STAGE.DONEKIB kib

/-- A step boundary where no step is in progress: jobs isolate and load at once (R534). -/
def State.jobNow (s : State) : State :=
  if s.step.cur.isNone then
    let s := s.jobStep
    (if s.stepping then s else s.jobsRejoin).owedFault
  else s

/-- Data for a job; one that fails ends (R535). -/
def State.jobFetch (s : State) (j : Job) (data : HostRead) : State :=
  let g := Goal.job j.wing j.ctx j.act j.psp
  let r := if j.gddr then s.fetchG6 g j.stream j.stream.descAddr (2 ^ 64) data
    else (s, s.fetchHost g j.stream (if j.stream.headerOk then j.stream.length else 2 ^ 64) data)
  let s := r.1
  let y := r.2
  let j' := { j with stream := y }
  match y.failed with
  | some f => s.jobEnds j' (reasonStatus f.1) f.1 false
  | none =>
    { s with cfg := { s.cfg with jobs := s.cfg.jobs.map fun (k : Job) => if k.slot = j.slot then j' else k } }.jobNow

/-- Whether a read of host memory can complete with a result: a read that succeeds needs Bus Master Enable and a link
(R472). -/
def State.readable (s : State) : HostRead → Bool
  | .failed => true
  | .words _ => s.hostWrites

/-- Whether a read can be the next one of a descriptor list. -/
def State.nextRead (s : State) (x : Stream) (gddr : Bool) (data : HostRead) : Bool :=
  x.failed.isNone && !x.whole && (gddr || (s.readable data && match data with
    | .failed => !x.listEnded
    | .words ws => x.expects ws.length))

/-- STREAM_DATA_FETCH (R518, R526, R528): a read of container data completes; consumer 0 is the full stream, 1 the staging,
2 and up the job in slot `consumer - 2`. -/
def execStreamDataFetch (dt consumer : Nat) (data : HostRead) (s : State) : Answer :=
  s.event dt fun s =>
    match consumer with
    | 0 =>
      match s.cfg.stream with
      | some x => s.whenever (!s.rdb Reg.CFG.STAT.SRC && s.nextRead x false data) fun s => s.fullFetch data
      | none => s
    | 1 =>
      match s.cfg.staging with
      | some st => s.whenever (st.status.isNone && s.nextRead st.stream st.gddr data) fun s => s.stageFetch st data
      | none => s
    | n + 2 =>
      match s.cfg.jobs.find? fun j => j.slot = n with
      | some j => s.whenever (s.nextRead j.stream j.gddr data) fun s => s.jobFetch j data
      | none => s

/-! ### The CFG_DATA window -/

/-- A write to the CFG_DATA window (R526): taken in order while a window stream is open, otherwise discarded; a stream in
DISCARD discards it too. -/
def State.windowWrite (s : State) (offset : Nat) (data : List Byte) : State :=
  if data.isEmpty then s
  else
    match s.cfg.stream with
    | some x =>
      if !s.rdb Reg.CFG.STAT.SRC then s.count Reg.CFG.WINDROP.COUNT 1
      else if x.failed.isSome then s
      else if offset % 8 ≠ 0 ∨ data.length % 8 ≠ 0 ∨ offset ≠ x.bytes.length % 2 ^ 24 ∨ 2 ^ 24 < offset + data.length then
        s.streamFails 12 x.next
      else s.streamData data
    | none => s.count Reg.CFG.WINDROP.COUNT 1

/-- CFG_DATA_WRITE (R526). -/
def execCfgDataWrite (dt offset : Nat) (data : List Byte) (s : State) : Answer :=
  s.event dt fun s =>
    s.whenever (!s.hif.perst && decide (offset < 2 ^ 24)) fun s =>
      (if s.rdb Reg.DEV.BOOT.IMAGE then s.windowWrite offset data
        else s.hallwayError true hsNoroute (0xF_4000_0000 + offset)).wakeLogic 1

/-- MULTICAST_WRITE (R519): the row is a write of one of the 64 groups that the host has set in MC_Receive; its offset within
the group's window is an offset in the CFG_DATA window. -/
def execMulticastWrite (dt group offset : Nat) (data : List Byte) (s : State) : Answer :=
  s.event dt fun s =>
    s.whenever (!s.hif.perst && decide (group < 64) && s.rdb Reg.DEV.BOOT.IMAGE) fun s =>
      (s.windowWrite offset data).wakeLogic 1

/-! ### Staging -/

/-- A staging ends with a status and a detail (R148-R150). -/
def State.stageEnds (s : State) (st : Staging) (status detail : Nat) : State :=
  let s := { s with cfg := { s.cfg with staging := none } }.ungrant 0x0D 6
  let s := (s.wr Reg.CTX.STAGE.BUSY 0).wr Reg.CTX.STAGE.LASTSTATUS status
  s.complete st.cmd status detail []

/-- Latch tags that name a context are cleared: its plane has changed (R116). -/
def State.clearTags (s : State) (c : Nat) : State :=
  let clear := fun (m : Cells Latch) => m.filter fun kv => kv.2.tag ≠ c + 1
  { s with fab := { s.fab with
    active := clear s.fab.active
    next := clear s.fab.next
    refills := s.fab.refills.filter fun r => r.ctx ≠ c } }

/-- A context whose staging changes it: its design, its tags and its re-mapped channels go; a wing-context that a failed job left isolated
stays so (R535). -/
def State.dropCtx (s : State) (c : Nat) : State :=
  let s := (s.clearTags c).dropFrames c
  { s with
    cfg := { s.cfg with ctxs := s.cfg.ctxs.set c .empty }
    corr := { s.corr with moved := s.corr.moved.filter fun m => m.ctx ≠ c }
    attic := { s.attic with owner := s.attic.owner.filterMap fun o => (o.2.without c).map fun w => (o.1, w) } }

/-- A staging that fails (R148): the context is FAILED and its contents are undefined. -/
def State.stageFails (s : State) (st : Staging) (status : Nat) : State :=
  let s := (((s.dropCtx st.ctx).wr (planeStateF st.ctx) 4).wr (planeFreshF st.ctx) 0).wr (Reg.CTX.DIGEST.DIGEST st.ctx) 0
  (s.post 0x0202 sevWarn srcDevice (st.ctx + status * 2 ^ 8)).stageEnds st status 0

/-- The status with which a container read whole fails, if it does (R145, R147, R206, R512, R515, R516). -/
def State.stageStatus (s : State) (st : Staging) : Option Nat :=
  let x := st.stream
  let c := st.ctx
  let card := x.cardOf c
  let others := (List.range 4).filter fun d => d ≠ c ∧ (s.plane d = 2 ∨ s.plane d = 3)
  let new := x.ctxCfg c s.cfg.channels
  if !s.trailerOk x then some stAuth
  else if !x.selected then none
  else if !x.carries c || (x.ctxSection 6 c).isNone || !x.settleOk c || !x.atticInside c ||
      decide (4096 < card.1 + card.2.length) then some stBadParam
  else if others.any (fun d => slicesClash new (s.ctx d) || slicesClash (s.ctx d) new) then some stTaken
  else none

/-- A staging that verifies (R147, R148, R228, R536). -/
def State.stageDone (s : State) (st : Staging) : State :=
  let x := st.stream
  let c := st.ctx
  let s := s.dropCtx c
  let s := { s with cfg := { s.cfg with ctxs := s.cfg.ctxs.set c (x.ctxCfg c s.cfg.channels) } }
  let s := (s.storeFrames (x.frames c)).giveAttic x [c]
  let w := x.pspWord c
  let s := (s.wr (Reg.STEP.PSP.PSP c) (bits w 19 0)).wr (Reg.STEP.PSP.NSP c) (bits w 51 32)
  let s := match x.ctxSection 5 c with
    | some k => let e := cardEntries k.2; s.loadCard c e.1 e.2
    | none => s
  let s := s.wr (Reg.CTX.DIGEST.DIGEST c) (digest64 x.digest)
  let s := (s.wr (planeStateF c) 2).wr (planeFreshF c) 1
  (s.post 0x0201 sevInfo srcDevice c).stageEnds st stOk 0

/-- CTX_STAGE_COMPLETE (R148): a staging ends as failed, as not selected, or as verified. -/
def execCtxStageComplete (dt : Nat) (s : State) : Answer :=
  s.event dt fun s =>
    match s.cfg.staging with
    | none => s
    | some st =>
      let x := st.stream
      match st.status, x.failed with
      | some status, _ => s.stageFails st status
      | none, some f => s.stageFails st (reasonStatus f.1)
      | none, none =>
        s.whenever x.whole fun s =>
          match s.stageStatus st with
          | some status => s.stageFails st status
          | none =>
            if x.selected then s.stageDone st
            else
              ((s.wr (planeStateF st.ctx) st.prev).wrb (planeFreshF st.ctx) st.prevFresh).stageEnds st stOk (2 ^ 24)

/-- A stream that nothing has been read of. -/
def Stream.new (addr : Nat) (now : Nat) : Stream :=
  { bytes := [], parsed := 0, next := 0, kept := [], headerOk := false, selected := false, streamKey := [],
    failed := none, descs := [], descAddr := addr, descDone := false, lastByte := now, timeoutMs := 0 }

/-- CTX_STAGE (R144-R151).  A GDDR6 address that is not a multiple of 8 is refused with BAD_PARAM (DESIGN CHOICE, assumption 95). -/
def ctxStageBody (c : Cmd) (s : State) : State :=
  let ctx := c.f 0 1 0
  s.checked c
    [(c.reserved [[(1, 0), (8, 8)], [(63, 0)], [(39, 0)]] || decide (c.w 2 < 64) || (c.b 0 8 && c.w 1 % 8 != 0),
        stBadParam, 0),
     (s.tripped || s.plane ctx == 3 || s.plane ctx == 1, stState, 0),
     (s.cfg.staging.isSome || s.streamOpen, stBusy, 0),
     (decide (s.freeBu < 6), stBudget, 0)]
    fun s =>
      let st : Staging := { cmd := c.id, ctx := ctx, prev := s.plane ctx, prevFresh := s.rdb (planeFreshF ctx),
                            gddr := c.b 0 8, length := c.w 2, stream := Stream.new (c.w 1) s.now, status := none }
      let s := { s with cfg := { s.cfg with staging := some st } }.grantAlways 0x0D 6
      let s := ((s.wr (planeStateF ctx) 1).wr Reg.CTX.STAGE.CTX ctx).wr Reg.CTX.STAGE.BUSY 1
      s.wr Reg.CTX.STAGE.DONEKIB 0

/-- CTX_STAGE's command. -/
def ctxStageCmd : Command := command 0x0201 (exactly 3) ctxStageBody

/-- CTX_STAGE (R151). -/
def execCtxStage (dt : Nat) (hdr : CmdHdr) (ws : List Word) (s : State) : Answer :=
  s.event dt fun s => s.issueCmd ctxStageCmd hdr ws

/-! ### Partial reconfiguration -/

/-- The rise in step demand that a job's activity figure brings (R92, R544), where its context is in use and the step
engine has a grant (R677). -/
def State.jobRise (s : State) (wing ctx act : Nat) : Nat :=
  if !s.ctxsInUse.contains ctx || s.rd Reg.STEP.BUDGET.GRANT = 0 then 0
  else
    let new := (s.ctx ctx).wings.map fun (w : Nat × WingCfg) => if w.1 = wing then (w.1, { w.2 with act := act }) else w
    let t := { s with cfg := { s.cfg with ctxs := s.cfg.ctxs.set ctx { s.ctx ctx with wings := new } } }
    t.demandOf (s.rd Reg.STEP.CTRL.MODE) s.ctxMode (s.rd Reg.STEP.PACE.PERIOD) s.ctxsInUse - s.rd Reg.STEP.BUDGET.DEMAND

/-- Whether a job's new promise breaks the pace period (R543). -/
def State.jobPspBad (s : State) (psp : Nat) : Bool :=
  let p := s.rd Reg.STEP.PACE.PERIOD
  match s.rd Reg.STEP.CTRL.MODE with
  | 1 => decide (p < psp)
  | 3 => decide (p < psp + s.reelHop ((s.time.reel.map Reel.groups).getD []))
  | _ => false

/-- CFG_WING (R532-R535, R542-R544).  A wing that the context does not use has no plane to replace: REFUSED_STATE
(DEDUCED, assumption 32).  A GDDR6 address that is not a multiple of 8 is refused with BAD_PARAM (DESIGN CHOICE, assumption 95). -/
def cfgWingBody (c : Cmd) (s : State) : State :=
  let wing := c.f 0 2 0 * 64 + c.f 0 13 8
  let ctx := c.f 0 17 16
  let psp := c.f 3 19 0
  let rise := s.jobRise wing ctx (c.f 2 31 0)
  let slot := firstFree 8 fun i => !s.cfg.jobs.any fun j => j.slot = i
  s.checked c
    [(c.reserved [[(2, 0), (13, 8), (17, 16), (24, 24)], [(63, 0)], [(31, 0)], [(19, 0)]] ||
        (psp != 0 && s.jobPspBad psp) || (c.b 0 24 && c.w 1 % 8 != 0), stBadParam, 0),
     (!s.rdb Reg.CFG.STAT.ACTIVE || (s.plane ctx != 2 && s.plane ctx != 3) || s.wingBad wing ||
        (s.wing ctx wing).isNone, stState, 0),
     (slot.isNone || s.streamOpen || s.cfg.jobs.any (fun j => j.wing == wing && j.ctx == ctx), stBusy, 0),
     (decide (s.freeBu < 2 + rise), stBudget, 0)]
    fun s =>
      let id := s.cfg.nextJob
      let j : Job := { id := id, slot := slot.getD 0, wing := wing, ctx := ctx, act := c.f 2 31 0, psp := psp, bu := rise,
                       gddr := c.b 0 24, stream := Stream.new (c.w 1) s.now, isolated := false, verified := false,
                       loaded := false }
      let s := s.grantAlways 0x0E (2 + rise)
      { s with cfg := { s.cfg with
          jobs := s.cfg.jobs ++ [j]
          nextJob := if id = 65535 then 1 else id + 1 } }.answer c stOk id []

/-- CFG_WING's command. -/
def cfgWingCmd : Command := command 0x0904 (exactly 4) cfgWingBody

/-- CFG_WING (R542). -/
def execCfgWing (dt : Nat) (hdr : CmdHdr) (ws : List Word) (s : State) : Answer :=
  s.event dt fun s => s.issueCmd cfgWingCmd hdr ws

/-- CFG_WING_VERIFIED (R532, R534, R535): the last byte of a job's container has arrived. -/
def execCfgWingVerified (dt job : Nat) (s : State) : Answer :=
  s.event dt fun s =>
    match s.cfg.jobs.find? fun j => j.id = job with
    | none => s
    | some j =>
      let x := j.stream
      s.whenever (x.whole && x.failed.isNone && !j.verified) fun s =>
        if !s.trailerOk x then s.jobEnds j stAuth 14 false
        else if !x.selected then s.jobEnds j stOk 0 true
        else if (x.covering 1 j.ctx j.wing).isNone || (x.covering 2 j.ctx j.wing).isNone then s.jobEnds j stBadParam 15 false
        else if !x.settleOk j.ctx then s.jobEnds j stBadParam 6 false
        else
          let s := s.storeFrames (x.frames j.ctx)
          { s with cfg := { s.cfg with jobs := s.cfg.jobs.map fun (k : Job) =>
            if k.slot = j.slot then { k with verified := true } else k } }.jobNow

/-! ### The owner lock -/

/-- An entry written to the lock ledger (R521, R541). -/
def State.addLock (s : State) (e : LockEntry) : State :=
  { s with cfg := { s.cfg with lock := s.cfg.lock ++ [e] } }.post 0x0905 sevInfo srcDevice
    (b2n e.locked + e.policy % 256 * 2)

/-- Whether the owner lock is engaged. -/
def State.locked (s : State) : Bool := s.lockEntry.any fun e => e.locked

/-- A stream, a staging or a job is open (R542). -/
def State.loading (s : State) : Bool := s.streamOpen || s.cfg.staging.isSome || !s.cfg.jobs.isEmpty

/-- OWNER_LOCK (R520, R521, R542). -/
def ownerLockBody (c : Cmd) (s : State) : State :=
  s.checked c
    [(s.locked, stLock, 0),
     (badBits (c.w 0) [(3, 0)], stBadParam, 0),
     (s.loading, stState, 0),
     (decide (16 ≤ s.cfg.lock.length), stState, 2)]
    fun s => (s.addLock { locked := true, policy := c.f 0 7 0, keyHash := c.payload.drop 1 }).ok c []

/-- OWNER_LOCK's command. -/
def ownerLockCmd : Command := command 0x0005 (exactly 7) ownerLockBody

/-- OWNER_LOCK (R542). -/
def execOwnerLock (dt : Nat) (hdr : CmdHdr) (ws : List Word) (s : State) : Answer :=
  s.event dt fun s => s.issueCmd ownerLockCmd hdr ws

/-- What an unlock signature covers (R524): CFUL, the serial number, the ledger entries used. -/
def unlockMessage (used : Nat) : List Byte := [0x43, 0x46, 0x55, 0x4C] ++ leBytes 8 Config.serial.toNat ++ leBytes 4 used

/-- OWNER_UNLOCK (R521, R524, R542). -/
def ownerUnlockBody (c : Cmd) (s : State) : State :=
  let key := wordBytes (c.payload.take 12)
  let sig := wordBytes (c.payload.drop 12)
  let good := (s.lockEntry.any fun e => e.keyHash == digestWords (Config.sha384 key)) &&
    Config.ecdsaVerify key (Config.sha384 (unlockMessage s.cfg.lock.length)) sig
  s.checked c
    [(!s.locked || s.loading, stState, 0), (decide (16 ≤ s.cfg.lock.length), stState, 2), (!good, stAuth, 0)]
    fun s => (s.addLock { locked := false, policy := 0, keyHash := [] }).ok c []

/-- OWNER_UNLOCK's command. -/
def ownerUnlockCmd : Command := command 0x0006 (exactly 24) ownerUnlockBody

/-- OWNER_UNLOCK (R542). -/
def execOwnerUnlock (dt : Nat) (hdr : CmdHdr) (ws : List Word) (s : State) : Answer :=
  s.event dt fun s => s.issueCmd ownerUnlockCmd hdr ws

/-! ### Signatures and the mirror -/

/-- The contexts whose frames are read by the scanner and copied to the mirror: STAGED or IN_USE (R536, R539). -/
def State.loadedCtx (s : State) (c : Nat) : Bool := s.plane c == 2 || s.plane c == 3

/-- Whether the scanner reads a stored frame (R534-R536): a wing-context under a job that isolated it, or left broken by
one, is skipped. -/
def State.scanned (s : State) (key : Nat) : Bool :=
  let c := key / 1024 / 512
  let w := key / 1024 % 512
  s.loadedCtx c && !s.cfg.brokenWc.contains (w, c) && !s.cfg.jobs.any fun j => j.isolated && j.wing == w && j.ctx == c

/-- SCAN_FRAME (R536): the scanner reads the next frame; it yields to refills, and stops in HOLD and below (R560). -/
def execScanFrame (dt : Nat) (s : State) : Answer :=
  s.event dt fun s =>
    let left := s.cfg.planes.filter fun kv => decide (s.cfg.scanAt ≤ kv.1) && s.scanned kv.1
    match left with
    | [] =>
      s.whenever (s.rdb Reg.CFG.SCAN.ENABLED) fun s =>
        { s with cfg := { s.cfg with scanAt := 0, scanBegan := s.now } }
    | kv :: rest =>
      s.whenever (s.rdb Reg.CFG.SCAN.ENABLED && s.power == 0 && s.fab.refills.isEmpty) fun s =>
        let w := kv.1 / 1024 % 512
        let s := if kv.2.bad then s.sigMismatch w (kv.1 % 1024) (kv.1 / 1024 / 512) true else s
        if rest.isEmpty then
          let us := (s.now - s.cfg.scanBegan) / fsUs
          let s := (s.count Reg.CFG.SCAN.PASSES 1).wr Reg.CFG.SCAN.LASTPASS (min us (2 ^ 24 - 1))
          { s with cfg := { s.cfg with scanAt := 0, scanBegan := s.now } }
        else { s with cfg := { s.cfg with scanAt := kv.1 + 1 } }

/-- A mismatching frame repaired from the mirror, or reported unrepaired (R537); `readOk` says that the link carries the reads. -/
def State.repairFrame (s : State) (key : Nat) (scan readOk : Bool) : State :=
  let s := { s with cfg := { s.cfg with toRepair := s.cfg.toRepair.erase (key, scan) } }
  let r := s.mirrorGet key (if readOk then .clean 0 else .linkError true)
  let s := r.1
  match r.2 with
  | some f =>
    if f.bad then s.sigOutcome key scan 2
    else { s with cfg := { s.cfg with
      planes := s.cfg.planes.upd Frame.none key f
      repairs := s.cfg.repairs ++ [(key, s.now)] } }.sigOutcome key scan 1
  | none => s.sigOutcome key scan 2

/-- MIRROR_REPAIR (R537). -/
def execMirrorRepair (dt wing room ctx : Nat) (readOk : Bool) (s : State) : Answer :=
  s.event dt fun s =>
    match s.cfg.toRepair.find? fun r => r.1 = frameKey ctx wing room with
    | some r => s.repairFrame r.1 r.2 readOk
    | none => s

/-- Bytes of a MIRROR region: 4,104 MiB (R539). -/
def mirrorSize : Nat := 4104 * 2 ^ 20

/-- MIRROR_ON (R539). -/
def State.mirrorOn (s : State) (c : Cmd) (base : Nat) : State :=
  let s := (s.allocRegion base mirrorSize .mirror).wr Reg.CFG.MIRROR.BASE (base / 4096)
  { s with cfg := { s.cfg with mirrorCmd := some c.id } }.wr Reg.CFG.MIRROR.COPYING 1

/-- MIRROR_OFF (R539, R540): repairs under way complete first; a copy under way ends. -/
def State.mirrorOff (s : State) : State :=
  let s := s.cfg.toRepair.foldl (fun s r => s.repairFrame r.1 r.2 true) s
  let cmd := s.cfg.mirrorCmd
  let s := { s with cfg := { s.cfg with mirrorCmd := none } }.releaseRegions .mirror
  let s := s.store Reg.CFG.MIRROR.ENABLED.addr 0
  match cmd with
  | some id => s.complete id stAborted 0 []
  | none => s

/-- The payload of SIG_STATUS: word 1 is the mirror base of MIRROR_ON (assumption 28). -/
def sigStatusLen (ws : List Word) : Bool :=
  ws.length == 2 || (ws.length == 1 && bits (ws.getD 0 0).toNat 1 0 != 1)

/-- SIG_STATUS (R539, R542, R544). -/
def sigStatusBody (c : Cmd) (s : State) : State :=
  let op := c.f 0 1 0
  let base := c.w 1
  let on := op == 1
  let fits := decide (mirrorSize ≤ s.g6Cap)
  let alloc := s.allocRefusal base mirrorSize
  let start := op == 3 && c.b 0 8 && !s.rdb Reg.CFG.SCAN.ENABLED
  s.checked c
    [(badBits (c.w 0) [(1, 0), (8, 8)] || (!on && base != 0) ||
        (on && (base % 4096 != 0 || (fits && alloc == some stBadParam))), stBadParam, 0),
     (on && (!fits || s.rdb Reg.CFG.MIRROR.ENABLED || s.rdb Reg.CFG.MIRROR.COPYING), stState, 0),
     (on && alloc == some stTaken, stTaken, 0),
     (start && decide (s.freeBu < 4), stBudget, 0)]
    fun s =>
      match op with
      | 0 =>
        s.ok c [s.stored Reg.CFG.SCAN.ENABLED.addr, s.stored Reg.CFG.SIGCNT.MISMATCH.addr,
          s.stored Reg.CFG.LASTSIG.FRAME.addr, s.stored Reg.CFG.MIRROR.ENABLED.addr]
      | 1 => s.mirrorOn c base
      | 2 => s.mirrorOff.ok c []
      | _ =>
        let s := if start then s.grantAlways 0x06 4
          else if !c.b 0 8 && s.rdb Reg.CFG.SCAN.ENABLED then s.ungrant 0x06 4 else s
        let s := { s with cfg := { s.cfg with scanAt := 0, scanBegan := s.now } }
        (s.wrb Reg.CFG.SCAN.ENABLED (c.b 0 8)).ok c []

/-- SIG_STATUS's command. -/
def sigStatusCmd : Command := command 0x0905 sigStatusLen sigStatusBody

/-- SIG_STATUS (R542). -/
def execSigStatus (dt : Nat) (hdr : CmdHdr) (ws : List Word) (s : State) : Answer :=
  s.event dt fun s => s.issueCmd sigStatusCmd hdr ws

/-- MIRROR_COPY_COMPLETE (R539): every verified frame of the loaded contexts is in the mirror. -/
def execMirrorCopyComplete (dt : Nat) (s : State) : Answer :=
  s.event dt fun s =>
    match s.cfg.mirrorCmd with
    | none => s
    | some id =>
      let s := { s with cfg := { s.cfg with mirrorCmd := none } }
      let s := (s.cfg.planes.filter fun kv => s.loadedCtx (kv.1 / 1024 / 512) && !kv.2.bad).foldl
        (fun s kv => s.mirrorPut kv.1 kv.2) s
      ((s.wr Reg.CFG.MIRROR.COPYING 0).wr Reg.CFG.MIRROR.ENABLED 1).complete id stOk 0 []

end Sys2Proof.Machine
end

