-- ==== Sys2Proof/Machine/Maintenance.lean ====
section
/-! DEFINITION. The attic's maintenance path: the steward (R222-R226), SCRUB and ATC_FILL (R246-R251, R675), the outer
check after a corrected read (R233-R235), ATC_ERRLOG and BLOCK_REMAP (R243, R246). -/

namespace Sys2Proof.Machine

/-! ### Reading lines -/

/-- What the maintenance path finds in a word: 0 invalid, 1 clean, 2 corrected, 3 uncorrectable or poisoned. -/
def AWord.found (w : AWord) : Nat :=
  if !w.valid then 0
  else if w.poison then 3
  else match checkCode w.data.toNat w.code.toNat with
    | .clean => 1
    | .single _ _ => 2
    | .uncorrectable _ => 3

/-- What a read of some words of a line counts (R248). -/
structure LineTally where
  read : Nat
  invalid : Nat
  corrected : Nat
  bad : Nat
  outer : Nat
  first : Option Nat
  deriving DecidableEq, Repr

/-- The smaller of two attic addresses, where some are given. -/
def lowest : Option Nat → Option Nat → Option Nat
  | some a, some b => some (min a b)
  | some a, none => some a
  | none, b => b

/-- The maintenance path reads the words `mine` of a line for `source`, or, for `done`, the rest of the line of a word that
a design port's read has corrected, with the data it delivered (R233); the flows of R234 to R236 follow, with a write-back
where `wb` asks.  A word that has been rewritten since its read takes no write-back, and is poisoned all the same where the
check fails (DESIGN CHOICE, assumption 58). -/
def State.readLine (s : State) (source wing ab line : Nat) (mine : List Nat) (done : Option (Nat × Word)) (wb : Bool) :
    State × LineTally :=
  let isDone := fun (x : Nat) => done.any fun d => d.1 == x
  let ws := (List.range 8).map (8 * line + ·)
  let kind := fun (x : Nat) => (s.attic.maintWord wing ab x).found
  let need := mine.length == 8 || done.isSome || mine.any fun x => kind x == 2
  let seen := if need then ws else mine
  let data := fun (x : Nat) => (s.attic.maintWord wing ab x).read.1
  let fixed := seen.filter fun x => kind x == 2 || isDone x
  let bads := seen.filter fun x => kind x == 3
  let back := fixed.filter fun x => kind x == 2 && done.all fun d => d.1 != x || d.2 == data x
  let fixes := back.map fun x => MaintWrite.mk wing ab x (data x) [] true false false
  let src := fun (x : Nat) => if mine.contains x || isDone x then source else 2
  let count := fun (k : Nat) => (mine.filter fun x => kind x == k).length
  let tally : LineTally :=
    { read := mine.length - count 0, invalid := count 0, corrected := count 2, bad := count 3, outer := 0,
      first := ((mine.filter fun x => kind x == 3).map fun x => atticAddr wing ab x).head? }
  let s := (seen.filter fun x => !isDone x).foldl (fun s x => s.atticRead false (src x) wing ab x false false) s
  if !need then (s, tally)
  else if s.attic.stale.contains (s.attic.lineKey wing ab (8 * line)) then
    (if bads.isEmpty then { s with attic := s.attic.freshen wing ab (8 * line) } else s, tally)
  else if s.attic.outerOk wing ab (8 * line) then
    (if wb then fixes.foldl State.maintWrite s else s, tally)
  else if !fixed.isEmpty then
    (fixed.foldl (fun s x => s.outerFails (src x) wing ab x) s,
      { tally with
        outer := 1
        first := lowest tally.first (((fixed.filter mine.contains).map fun x => atticAddr wing ab x).head?) })
  else if bads.isEmpty then
    (s.crcFix source wing ab (8 * line),
      { tally with outer := 1, first := lowest tally.first (some (atticAddr wing ab (8 * line))) })
  else (s, tally)

/-! ### The steward -/

/-- Whether the attics serve requests: in NAP they are at retention, in PATROL and after a thermal trip off (R560, R579). -/
def State.atticUp (s : State) : Bool := decide (s.power < 2) && !s.tripped

/-- The places of the words that a request covers: wing, logical block, word (R213). -/
def Packet.atticWords (q : Packet) : List (Nat × Nat × Nat) :=
  (List.range (q.len + 1)).map fun i => atticPlace (q.addr - 0x1000000000 + 8 * i)

/-- Whether the steward refuses a request (R226, R293): part of a word, a retired block, a wing whose memory bundle has
failed, an address beyond the attic. -/
def State.stewardRefuses (s : State) (q : Packet) : Bool :=
  let a := q.addr - 0x1000000000
  decide (a % 8 ≠ 0) || (q.enables.any fun w => w.2.1 != 255) || decide (atticEnd < a + 8 * (q.len + 1)) ||
    q.atticWords.any fun p => s.attic.isRetired p.1 p.2.1 || s.fab.memFailed.contains p.1

/-- The steward reads the words of a request (R223, R229, R236). -/
def State.stewardRead (s : State) (t : Nat) (q : Packet) : State :=
  let ps := q.atticWords
  let words := ps.map fun p => s.attic.maintWord p.1 p.2.1 p.2.2
  let lines := (ps.map fun p => (p.1, p.2.1, p.2.2 / 8)).eraseDups
  let sor := s.rdb (Reg.ATC.CTRL.SOR t)
  let s := lines.foldl (fun s l =>
    let mine := (ps.filter fun p => (p.1, p.2.1, p.2.2 / 8) = l).map fun p => p.2.2
    (s.readLine 2 l.1 l.2.1 l.2.2 mine none sor).1) s
  match words.findIdx? fun w => w.bad with
  | some i => s.respond t q hsData i (words.map fun w => w.read.1)
  | none => s.respond t q hsOk 0 (words.map fun w => w.read.1)

/-- The steward takes the words of a write request; the response follows the acceptance of the last (R224, R225). -/
def State.stewardWrite (s : State) (t : Nat) (q : Packet) : State :=
  let ps := q.atticWords
  let n := ps.length
  let now := ps.all fun p => !(s.attic.waiting.any fun x => x.1.wing = p.1) &&
    (!s.holdsMaint || decide ((s.attic.heldOf p.1).length + (ps.filter fun r => r.1 = p.1).length ≤ 16))
  let s := ps.zipIdx.foldl (fun s d =>
    s.maintWriteFor { wing := d.1.1, block := d.1.2.1, word := d.1.2.2, data := q.data.getD d.2 0, inv := [], scrub := false,
                      clear := false, crc := false }
      (if !now && d.2 + 1 = n then some (t, q) else none)) s
  if now then s.respond t q hsOk 0 [] else s

/-- STEWARD_REQUEST (R222-R226): the steward of a tower serves its oldest request, or discards it at an age of 250 µs (R286). -/
def execStewardRequest (dt tower : Nat) (s : State) : Answer :=
  s.event dt fun s =>
    match s.noc.targets.find? fun x => x.1 = tower with
    | none => s
    | some x => s.whenever (decide (tower < 8)) fun s =>
        let q := x.2
        let s := (s.leaveTarget x).touch tower
        if s.expired q then s.countExpired (s.responseRouter tower q)
        else if !s.atticUp then s.respond tower q hsReset 0 []
        else if s.stewardRefuses q then s.respond tower q hsRefused 0 []
        else if q.type = 2 then s.stewardWrite tower q else s.stewardRead tower q

/-- STEWARD_WRITE_ACCEPT (R225): the steward accepts a wing's oldest waiting write. -/
def execStewardWriteAccept (dt wing : Nat) (s : State) : Answer :=
  s.event dt fun s =>
    match s.attic.waiting.find? fun x => x.1.wing = wing with
    | none => s
    | some x => s.whenever (s.maintRoom wing) fun s =>
        let s := { s with attic := { s.attic with waiting := s.attic.waiting.erase x } }.acceptMaint x.1
        match x.2 with
        | some r => s.respond r.1 r.2 hsOk 0 []
        | none => s

/-- OUTER_CHECK_COMPLETE (R233, R234): the check of the line that a design port's read corrected a word of. -/
def execOuterCheckComplete (dt tower : Nat) (s : State) : Answer :=
  s.event dt fun s =>
    match s.attic.checks.find? fun c => c.wing / 64 = tower with
    | none => s
    | some c =>
      let s := { s with attic := { s.attic with checks := s.attic.checks.erase c } }
      (s.readLine c.source c.wing c.block (c.word / 8) [] (some (c.word, c.fixed))
        (s.rdb (Reg.ATC.CTRL.SOR tower) || c.writeback)).1

/-! ### SCRUB and ATC_FILL -/

/-- The words of a range that lie in a wing, first and end, as attic word addresses. -/
def wingRange (start length wing : Nat) : Nat × Nat :=
  let base := wing * 98304
  (max (start / 8) base, min (start / 8 + length) (base + 98304))

/-- The lines of a range in a wing. -/
def wingLines (start length wing : Nat) : Nat :=
  let r := wingRange start length wing
  if r.1 < r.2 then (r.2 - 1) / 8 + 1 - r.1 / 8 else 0

/-- The wings of a tower that a range touches. -/
def rangeWings (start length tower : Nat) : List Nat := (towerWings tower).filter fun w => wingLines start length w ≠ 0

/-- The lines that the wing with the most of them moves for a range. -/
def towerLines (start length tower : Nat) : Nat := maxList ((towerWings tower).map (wingLines start length))

/-- The towers of a range. -/
def rangeTowers (start length : Nat) : List Nat := (List.range 8).filter fun t => towerLines start length t ≠ 0

/-- The blocks of a range, `(wing, block)`. -/
def rangeBlocks (start length : Nat) : List (Nat × Nat) :=
  let first := start / 8 / 4096
  let last := (start / 8 + length - 1) / 4096
  (List.range (last + 1 - first)).map fun i => ((first + i) / 24, (first + i) % 24)

/-- The time of a line that starts now in a tower, in fs (R675, R577). -/
def State.lineTime (s : State) (tower : Nat) : Nat :=
  (if s.stepping then 40 else 10) * fsNs * 2 ^ s.rd (Reg.PWR.TEMP.MAINTLVL tower)

/-- Whether a range meets a SCRUB or ATC_FILL in progress in the same tower (R246). -/
def State.maintBusy (s : State) (start length : Nat) : Bool :=
  s.attic.jobs.any fun j => j.towersLeft.any fun t =>
    let lo := max (max (start / 8) (j.start / 8)) (t * 6291456)
    let hi := min (min (start / 8 + length) (j.start / 8 + j.length)) ((t + 1) * 6291456)
    decide (lo < hi)

/-- The fields of SCRUB and ATC_FILL that break R246. -/
def rangeBad (start length : Nat) : Bool :=
  decide (start % 8 ≠ 0) || decide (length = 0) || decide (2 ^ 32 ≤ length) || decide (atticEnd < start + 8 * length)

/-- A SCRUB or ATC_FILL begins (R251, R675). -/
def State.beginMaint (s : State) (c : Cmd) (fill wb : Bool) (pattern : Option Word) : State :=
  let ts := rangeTowers (c.w 0) (c.w 1)
  let s := (s.grantAlways 0x0C (4 * ts.length))
  let s := ts.foldl State.touch s
  let job : MaintJob :=
    { cmd := c.id, fill := fill, start := c.w 0, length := c.w 1, writeback := wb, pattern := pattern
      next := ts.flatMap fun t => (rangeWings (c.w 0) (c.w 1) t).map fun w => (w, 0, s.now + s.lineTime t)
      began := s.now, read := 0, invalid := 0, corrected := 0, uncorrectable := 0, outer := 0, firstBad := none
      towersLeft := ts }
  { s with attic := { s.attic with jobs := s.attic.jobs ++ [job] } }

/-- SCRUB (R246-R251). -/
def scrubBody (c : Cmd) (s : State) : State :=
  let n := 4 * (rangeTowers (c.w 0) (c.w 1)).length
  s.checked c
    [(rangeBad (c.w 0) (c.w 1) || badBits (c.w 2) [(0, 0)], stBadParam, 0),
     (s.maintBusy (c.w 0) (c.w 1), stBusy, 0),
     (decide (s.freeBu < n), stBudget, 0)]
    fun s => s.beginMaint c false (c.b 2 0) none

/-- SCRUB's command. -/
def scrubCmd : Command := command 0x0301 (exactly 3) scrubBody

/-- SCRUB (R246). -/
def execScrub (dt : Nat) (hdr : CmdHdr) (ws : List Word) (s : State) : Answer :=
  s.event dt fun s => s.issueCmd scrubCmd hdr ws

/-- ATC_FILL (R228, R246, R251). -/
def atcFillBody (c : Cmd) (s : State) : State :=
  let n := 4 * (rangeTowers (c.w 0) (c.w 1)).length
  let blocks := if rangeBad (c.w 0) (c.w 1) then [] else rangeBlocks (c.w 0) (c.w 1)
  let inUse := s.ctxsInUse
  let ownedInUse := blocks.any fun b => (s.attic.ownerOf b.1 b.2).any fun o => inUse.any o.has
  s.checked c
    [(rangeBad (c.w 0) (c.w 1) || badBits (c.w 2) [(0, 0)] || blocks.any (fun b => s.attic.isRetired b.1 b.2),
        stBadParam, 0),
     (s.stepping && ownedInUse, stState, 0),
     (s.maintBusy (c.w 0) (c.w 1), stBusy, 0),
     (blocks.any fun b => s.attic.ownerOf b.1 b.2 == some .trace, stTaken, 0),
     (decide (s.freeBu < n), stBudget, 0)]
    fun s => s.beginMaint c true false (if c.b 2 0 then some (toWord (c.w 3)) else none)

/-- ATC_FILL's command. -/
def atcFillCmd : Command := command 0x0303 (exactly 4) atcFillBody

/-- ATC_FILL (R246). -/
def execAtcFill (dt : Nat) (hdr : CmdHdr) (ws : List Word) (s : State) : Answer :=
  s.event dt fun s => s.issueCmd atcFillCmd hdr ws

/-- The words of the `k`th line that a range has in a wing: block, line in the block, words. -/
def lineWords (start length wing k : Nat) : Nat × Nat × List Nat :=
  let r := wingRange start length wing
  let l := r.1 / 8 + k
  let ws := ((List.range 8).map (8 * l + ·)).filter fun x => r.1 ≤ x && decide (x < r.2)
  (l * 8 / 4096 % 24, l % 512, ws.map (· % 4096))

/-- A SCRUB moves the `k`th line of a wing (R247, R248): a retired block is skipped. -/
def State.scrubLine (s : State) (j : MaintJob) (wing k : Nat) : State × MaintJob :=
  let l := lineWords j.start j.length wing k
  if s.attic.isRetired wing l.1 || l.2.2.isEmpty then (s, j)
  else
    let r := s.readLine 3 wing l.1 l.2.1 l.2.2 none j.writeback
    let t := r.2
    (r.1, { j with
      read := j.read + t.read, invalid := j.invalid + t.invalid, corrected := j.corrected + t.corrected
      uncorrectable := j.uncorrectable + t.bad, outer := j.outer + t.outer, firstBad := lowest j.firstBad t.first })

/-- The maintenance writes of the `k`th line that an ATC_FILL moves in a wing (R224, R228): each word takes the pattern or is cleared,
and the last one rewrites the line's CRC. -/
def MaintJob.fillWrites (j : MaintJob) (wing k : Nat) : List MaintWrite :=
  let l := lineWords j.start j.length wing k
  let n := l.2.2.length
  l.2.2.zipIdx.map fun x =>
    { wing := wing, block := l.1, word := x.1, data := j.pattern.getD 0, inv := [], scrub := false, clear := j.pattern.isNone,
      crc := decide (x.2 + 1 = n) }

/-- Whether the wing memory interface has the places that a line of a job takes (R225); no write overtakes one that waits. -/
def State.lineRoom (s : State) (j : MaintJob) (wing k : Nat) : Bool :=
  !j.fill || (!(s.attic.waiting.any fun x => x.1.wing = wing) &&
    (!s.holdsMaint || decide ((s.attic.heldOf wing).length + (j.fillWrites wing k).length ≤ 16)))

/-- The first job that has lines to move in a wing, with the line under way there and its end. -/
def State.lineJob (s : State) (wing : Nat) : Option (MaintJob × Nat × Nat) :=
  s.attic.jobs.findSome? fun j =>
    match j.next.find? fun n => n.1 = wing with
    | some (_, k, ends) => if k < wingLines j.start j.length wing then some (j, k, ends) else none
    | none => none

/-- A job's place in a wing set. -/
def State.setLine (s : State) (j : MaintJob) (wing k ends : Nat) : State :=
  let j' := { j with next := j.next.map fun (n : Nat × Nat × Nat) => if n.1 = wing then (wing, k, ends) else n }
  { s with attic := { s.attic with jobs := s.attic.jobs.map fun (i : MaintJob) => if i.cmd = j.cmd then j' else i } }

/-- The line of a wing that starts now ends at the rate in force (R675). -/
def State.nextLine (s : State) (wing : Nat) : State :=
  match s.lineJob wing with
  | some (j, k, _) => s.setLine j wing k (s.now + s.lineTime (wing / 64))
  | none => s

/-- MAINTENANCE_LINE (R675): a wing moves a line; the wings move theirs in parallel, each by rows of its own.  The accesses are charged to
the reservation of Keeper, which runs the command, and do not wait for its credit (R299; DEDUCED, assumption 104). -/
def execMaintenanceLine (dt wing : Nat) (s : State) : Answer :=
  s.event dt fun s =>
    match s.lineJob wing with
    | none => s
    | some (j, k, ends) =>
      s.whenever (decide (ends ≤ s.now) && s.atticUp && s.towerReady (wing / 64) && s.lineRoom j wing k) fun s =>
        let s := (s.touch (wing / 64)).charge iniKeeper (8 * (lineWords j.start j.length wing k).2.2.length)
        let r := if j.fill then ((j.fillWrites wing k).foldl State.maintWrite s, j) else s.scrubLine j wing k
        (r.1.setLine r.2 wing (k + 1) ends).nextLine wing

/-- The summary of a SCRUB (R248). -/
def State.scrubSummary (s : State) (j : MaintJob) : List Word :=
  let sat := fun n => min n (2 ^ 32 - 1)
  [toWord j.read, toWord j.invalid, toWord (sat j.corrected + sat j.uncorrectable * 2 ^ 32), toWord (sat j.outer),
    toWord (j.firstBad.getD (2 ^ 64 - 1)), toWord ((s.now - j.began) / fsNs)]

/-- A SCRUB or ATC_FILL ends with a status: its BU return, a SCRUB carries its summary (R248, R249, R251). -/
def State.maintEnds (s : State) (j : MaintJob) (status : Nat) : State :=
  let s := { s with attic := { s.attic with jobs := s.attic.jobs.filter fun i => i.cmd ≠ j.cmd } }
  let s := s.ungrant 0x0C (4 * (rangeTowers j.start j.length).length)
  s.complete j.cmd status 0 (if j.fill then [] else s.scrubSummary j)

/-- Every SCRUB and ATC_FILL with a tower of a set in its range ends with ABORTED (R249). -/
def State.maintAborts (s : State) (ts : List Nat) : State :=
  (s.attic.jobs.filter fun j => (rangeTowers j.start j.length).any ts.contains).foldl
    (fun s j => s.maintEnds j stAborted) s

/-- Whether a job has moved every line of its range in a tower. -/
def MaintJob.movedIn (j : MaintJob) (tower : Nat) : Bool :=
  (j.next.filter fun n => n.1 / 64 = tower).all fun n => n.2.1 == wingLines j.start j.length n.1

/-- A tower has moved every line of a job: the last one ends it. -/
def State.towerMoved (s : State) (tower : Nat) (fill : Bool) : State :=
  match s.attic.jobs.find? fun j => j.fill = fill ∧ j.towersLeft.contains tower ∧ j.movedIn tower with
  | none => s
  | some j =>
    let j' := { j with towersLeft := j.towersLeft.filter (· ≠ tower) }
    if j'.towersLeft.isEmpty then s.maintEnds j' stOk
    else { s with attic := { s.attic with jobs := s.attic.jobs.map fun (i : MaintJob) => if i.cmd = j.cmd then j' else i } }

/-- SCRUB_COMPLETE (R248): a tower's part of a SCRUB is done; with the last, the command replies with its summary. -/
def execScrubComplete (dt tower : Nat) (s : State) : Answer := s.event dt fun s => s.towerMoved tower false

/-- ATC_FILL_COMPLETE (R228, R246): a tower's part of an ATC_FILL is done; with the last, the command replies. -/
def execAtcFillComplete (dt tower : Nat) (s : State) : Answer := s.event dt fun s => s.towerMoved tower true

/-! ### The error table and repair -/

/-- ATC_ERRLOG (R238, R246): `ATC.STAT` and the records of a tower; CLEAR clears the table and thaws it. -/
def atcErrlogBody (c : Cmd) (s : State) : State :=
  let t := c.f 0 2 0
  s.checked c [(c.reserved [[(2, 0), (8, 8)]], stBadParam, 0)] fun s =>
    let recs := (s.attic.table.filter fun r => r.1 = t).flatMap fun r => [toWord (r.2.w0 + r.2.rep * 2 ^ 44), toWord r.2.w1]
    let payload := s.readReg (Reg.ATC.STAT.ENTRIES t).addr :: recs
    let s := if c.b 0 8 then
        { s with attic := { s.attic with
          table := s.attic.table.filter fun r => r.1 ≠ t, frozen := s.attic.frozen.filter (· ≠ t) } }
      else s
    s.ok c payload

/-- ATC_ERRLOG's command. -/
def atcErrlogCmd : Command := command 0x0302 (exactly 1) atcErrlogBody

/-- ATC_ERRLOG (R246). -/
def execAtcErrlog (dt : Nat) (hdr : CmdHdr) (ws : List Word) (s : State) : Answer :=
  s.event dt fun s => s.issueCmd atcErrlogCmd hdr ws

/-- Whether a wing's spare is free (R241, R243): on no block, and not taken by a pending move. -/
def Attic.spareOpen (m : Attic) (wing : Nat) : Bool :=
  m.spareFor.at 31 wing == 31 && !m.moves.any fun x => x.1 == wing && !x.2.2

/-- BLOCK_REMAP (R243, R244, R246): the move or retirement is recorded at once and takes effect at the next activation or
reset of the tower. -/
def blockRemapBody (c : Cmd) (s : State) : State :=
  let t := c.f 0 2 0
  let wing := 64 * t + c.f 0 13 8
  let ab := c.f 0 20 16
  let retire := c.b 0 24
  let phys := s.attic.phys wing ab
  let again := s.attic.moves.contains (wing, ab, retire)
  s.checked c [(c.reserved [[(2, 0), (13, 8), (20, 16), (24, 24)]] || decide (23 < ab), stBadParam, 0)] fun s =>
    if again then s.answer c stOk (if retire then phys else 24) []
    else if 256 ≤ s.dev.ledger.length then s.answer c stState 2 []
    else if !retire && !s.attic.spareOpen wing then s.answer c stHwFault 1 []
    else
      let r : Repair := { kind := if retire then 4 else 3, wing := wing, item := ab, bonds := [] }
      let s := { s with attic := { s.attic with moves := s.attic.moves ++ [(wing, ab, retire)] } }
      let s := (s.addRepair r).post 0x0307 sevInfo t (towerBlock wing ab)
      s.answer c stOk (if retire then phys else 24) []

/-- BLOCK_REMAP's command. -/
def blockRemapCmd : Command := command 0x0304 (exactly 1) blockRemapBody

/-- BLOCK_REMAP (R246). -/
def execBlockRemap (dt : Nat) (hdr : CmdHdr) (ws : List Word) (s : State) : Answer :=
  s.event dt fun s => s.issueCmd blockRemapCmd hdr ws

end Sys2Proof.Machine
end

