-- ==== Sys2Proof/Machine/CorridorRows.lean ====
section
/-! DEFINITION. Corridor transfers and repair (R257-R266, R297): the events of the corridor groups and CORR_STATUS. -/

namespace Sys2Proof.Machine

/-! ### Transfers -/

/-- A token, or an acknowledge on the return wires, crosses its next corridor; `ready` follows the back-pressure of the direction after
it, which delays no acknowledge (R257, R620 kind 2). -/
def State.tokenCrosses (s : State) (r : StepRun) (t : Token) (v : Word) : State :=
  let rest := t.hops.tail
  let b := match t.isAck, rest with
    | false, h :: _ => s.backPressure h.dir
    | _, _ => (0, s)
  let corr := (t.hops.take 1).foldl (fun c h => c.used (s.phaseCtx r) h s.now) b.2.corr
  { b.2 with corr := corr }.setCur { r with tokens := r.tokens.map fun (x : Token) =>
    if x = t then { t with value := v, hops := rest, ready := s.now + b.1 } else x }

/-- The half in which most of a group's check failures of the last 1 ms lie, once there are four (R261). -/
def State.failingHalf (s : State) (dir g : Nat) : Option Bool :=
  let mine := s.corr.recent.filter fun x => x.1 = dir ∧ x.2.1 = g
  let high := (mine.filter fun x => x.2.2.1).length
  if mine.length < 4 ∨ 2 * high = mine.length then none else some (decide (mine.length < 2 * high))

/-- A check failure in one half is counted among those of the last 1 ms (R261). -/
def State.noteCheck (s : State) (dir g : Nat) (high : Bool) : State :=
  let fresh := s.corr.recent.filter fun (x : Nat × Nat × Bool × Nat) => s.now ≤ x.2.2.2 + fsMs
  let s := { s with corr := { s.corr with recent := fresh ++ [(dir, g, high, s.now)] } }.markFailing dir g (some high)
  match s.failingHalf dir g with
  | some h =>
    let upd := fun (f : Failing) => if f.dir = dir ∧ f.group = g then { f with half := some h } else f
    { s with corr := { s.corr with failing := s.corr.failing.map upd } }
  | none => s

/-- A group that cannot run at half width: its traffic moves at once to a free spare, or it is retired (R260). -/
def State.groupFails (s : State) (dir g : Nat) : State :=
  let s := s.markFailing dir g none
  let r := s.repairGroup { dir := dir, group := g, half := none }
  let s := r.1.corrSync
  if r.2 then s.enterFault else s

/-- How the check of a transfer ends (R259): it passes, or it fails in the low half, in the high half, or in both. -/
inductive XferEnd where
  | clean | failLow | failHigh | failBoth
  deriving DecidableEq, Repr

/-- The wires of a transfer's check set (R256, R259): wires 0 to 63 carry data, 64 to 67 the slot, 68 to 71 the checks. -/
def checkSet (wire : Nat) : Nat := if wire < 64 then wire / 16 else wire % 4

/-- What the receiving end finds where some wires arrive inverted: the parity of each set (R259). -/
def xferEnd (wires : List Nat) : XferEnd :=
  let bad := fun (j : Nat) => (wires.filter fun w => checkSet w = j).length % 2 == 1
  match bad 0 || bad 1, bad 2 || bad 3 with
  | false, false => .clean
  | true, false => .failLow
  | false, true => .failHigh
  | true, true => .failBoth

/-- The data that a transfer delivers where data wires arrive inverted in a way that its checks do not show. -/
def xferData (d : Word) (wires : List Nat) : Word := toWord ((wires.filter (· < 64)).foldl flipData d.toNat)

/-- How a transfer ends as the group takes it (R259): a group that runs at half width does not see the other half, and a resend at half
width that fails its check ends as a failure in both halves does (R260). -/
def Corr.seen (c : Corr) (dir g : Nat) (x : XferEnd) : XferEnd :=
  let v := c.state dir g
  let now := fun (high : Bool) => c.halfNow.contains (dir, g, high)
  match x with
  | .failLow => if v = 3 ∨ now true then .clean else if v = 2 ∨ now false then .failBoth else .failLow
  | .failHigh => if v = 2 ∨ now false then .clean else if v = 3 ∨ now true then .failBoth else .failHigh
  | x => x

/-- A transfer arrives at the far end of a corridor with the wires given inverted (R259, R260).  A resend delivers the token intact; an
acknowledge whose return check fails makes the group fail.  An inversion that no check shows changes the data, and leaves the slot
as sent (DESIGN CHOICE, assumption 102). -/
def State.transfer (s : State) (r : StepRun) (t : Token) (dir g : Nat) (wires : List Nat) : State :=
  let fails := s.count (Reg.CORR.CHK.CHKFAIL dir) 1
  let resend := fun (high : Bool) =>
    let s := (fails.count (Reg.CORR.CHK.HALFXFER dir) 1).noteCheck dir g high
    { s with corr := { s.corr with halfNow := s.corr.halfNow ++ [(dir, g, !high)] } }.tokenCrosses r t t.value
  if t.isAck then (if wires.isEmpty then s.tokenCrosses r t t.value else s.groupFails dir g)
  else match s.corr.seen dir g (xferEnd wires) with
    | .clean => s.tokenCrosses r t (if xferEnd wires = .clean then xferData t.value wires else t.value)
    | .failLow => resend false
    | .failHigh => resend true
    | .failBoth => fails.groupFails dir g

/-- CORRIDOR_TRANSFER (R257-R260): the token that a slot of a group carries crosses the corridor, or the acknowledge that the slot of its
return carries; `wires` are the wires that arrive inverted. -/
def execCorridorTransfer (dt dir group slot : Nat) (wires : List Nat) (s : State) : Answer :=
  s.event dt fun s =>
    match s.step.cur with
    | none => s
    | some r =>
      let c := s.phaseCtx r
      let here := fun (t : Token) => match t.hops with
        | h :: _ => h.dir == dir && s.corr.place c h == (group, slot)
        | [] => false
      match r.tokens.find? fun t => here t && decide (t.ready ≤ s.now) && !s.routeCut t.hops with
      | some t => s.whenever (s.corr.usable dir group) fun s => s.transfer r t dir group wires
      | none => s

/-- HANDSHAKE_TIMEOUT (R260): a control or return wire of a group that carries channels of the phase fails. -/
def execHandshakeTimeout (dt dir group : Nat) (s : State) : Answer :=
  s.event dt fun s =>
    match s.step.cur with
    | none => s
    | some r =>
      let c := s.phaseCtx r
      let carries := (s.dirHops c dir).any fun h => (s.corr.place c h).1 == group
      s.whenever (s.corr.usable dir group && carries) fun s => s.groupFails dir group

/-- IDLE_PATTERN_BEAT (R261, R262): a beat of the walking pattern on a group that has been idle for 20 ns; a wire that fails it marks the group
failing, unless the group already runs without that half. -/
def execIdlePatternBeat (dt dir group : Nat) (failsLow failsHigh failsOther : Bool) (s : State) : Answer :=
  s.event dt fun s =>
    let v := s.corr.state dir group
    let low := failsLow && v != 3
    let high := failsHigh && v != 2
    let waits := s.step.cur.any fun r => r.tokens.any fun t => match t.hops with
      | h :: _ => h.dir == dir && (s.corr.place (s.phaseCtx r) h).1 == group
      | [] => false
    s.whenever (decide (dir < dirCount) && decide (group < 34) && (s.corr.usable dir group || v == 5) && !waits &&
        decide (s.corr.lastXfer.at 0 (groupKey dir group) + 20 * fsNs ≤ s.now) && (low || high || failsOther)) fun s =>
      let half := if failsOther || (low && high) then none else some high
      (s.markFailing dir group half).repairNow

/-- REMAP_COMPLETE (R263, R294): the channels of a direction's retired groups travel on the groups that take them. -/
def execRemapComplete (dt dir : Nat) (s : State) : Answer :=
  s.event dt fun s =>
    let e := dirEnds dir
    let mine := s.corr.remaps.filter fun m => m.1 = dir
    s.whenever (!mine.isEmpty && (decide (8 ≤ e.1) || s.towerReady e.1) && (decide (8 ≤ e.2) || s.towerReady e.2)) fun s =>
      let moved := s.remapAll [0, 1, 2, 3] dir
      let s := moved.getD s
      let s := { s with corr := { s.corr with remaps := s.corr.remaps.filter fun m => m.1 ≠ dir } }
      let s := mine.foldl (fun s m =>
        let stall := min (ceilDiv (s.now - m.2.2) (10 * fsNs)) 65535
        (s.post 0x0403 sevError srcDevice (dir + m.2.1 * 2 ^ 8 + stall * 2 ^ 16)).corrAtRisk 3 dir m.2.1) s
      let s := s.corrSync
      if moved.isNone then (s.exhaust dir).corrSync.enterFault else s

/-! ### CORR_STATUS -/

/-- The four words of a direction (R296, R297). -/
def State.dirWords (s : State) (i : Nat) : List Word :=
  let st := fun (g : Nat) => s.corr.state i g
  let low := ((List.range 21).map fun g => st g * 2 ^ (3 * g)).sum
  let high := ((List.range 13).map fun g => st (21 + g) * 2 ^ (3 * g)).sum
  let stands := fun (g : Nat) => s.corr.standsFor.at 63 (groupKey i g)
  [s.readReg (Reg.CORR.DIR.SPAREFREE i).addr, toWord low, toWord (high + stands 32 * 2 ^ 40 + stands 33 * 2 ^ 46),
    s.readReg (Reg.CORR.CHK.CHKFAIL i).addr]

/-- CORR_STATUS (R296). -/
def corrStatusBody (c : Cmd) (s : State) : State :=
  let k := c.f 0 3 0
  s.checked c [(c.reserved [[(3, 0)]] || decide (13 < k), stBadParam, 0)] fun s =>
    s.ok c (s.dirWords (2 * k) ++ s.dirWords (2 * k + 1))

/-- CORR_STATUS's command. -/
def corrStatusCmd : Command := command 0x0403 (exactly 1) corrStatusBody

/-- CORR_STATUS (R296). -/
def execCorrStatus (dt : Nat) (hdr : CmdHdr) (ws : List Word) (s : State) : Answer :=
  s.event dt fun s => s.issueCmd corrStatusCmd hdr ws

end Sys2Proof.Machine
end

