-- ==== Sys2Proof/Machine/TimeUnit.lean ====
section
/-! DEFINITION. The time unit (11_time_and_reel.md): domains and their sources, TIME_DOMAIN_SETUP and TIME_SELECT, SYNC
frames and IEEE 1588 messages, CUE_SET and capture inputs. -/

namespace Sys2Proof.Machine

/-! ### Measurements -/

/-- The source of a domain (R420): 0 NONE, 1 HOST, 2 PTP, 3 REEL. -/
def State.domSource (s : State) (d : Nat) : Nat := s.rd (Reg.TIME.DOM.SOURCE d)

/-- The lock limit of R422 in units of 2^-32 ns. -/
def State.lockLimit (s : State) (d : Nat) : Nat := (if s.domSource d = 3 then 2 else 50) * 2 ^ 32

/-- The rate word of a domain that Keeper corrects against an offset (R424): off the nominal word by an open amount of at most
100 ns/s, toward the source. -/
def State.correctedRate (s : State) (off : Int) : Nat × State :=
  let by_ := (Config.freeWord s.free).toNat % (slewRate + 1)
  (if off = 0 then nominalRate else if 0 < off then nominalRate - by_ else nominalRate + by_, { s with free := s.free + 1 })

/-- A domain's source is heard (R423): a FREE domain returns to ACQUIRING. -/
def State.heard (s : State) (d : Nat) : State :=
  let s := s.setDom d { s.dom d with heardAt := s.now }
  if s.domState d = dsFree then (s.wr (domStateF d) dsAcquiring).setDom d { s.dom d with good := 0, heardAt := s.now } else s

/-- The offset of a domain from its source is measured (R422-R424), in units of 2^-32 ns, positive where the domain is
ahead. -/
def State.measure (s : State) (d : Nat) (off : Int) : State :=
  let s := s.heard d
  let s := (s.wr (Reg.TIME.DOM.SRVOFF d) (unsigned 32 (off * 1000 / 2 ^ 32))).count (Reg.TIME.DOM.UPDATES d) 1
  let x := s.dom d
  let far := decide (1000 * 2 ^ 32 < off.natAbs)
  let limit := s.lockLimit d
  let s :=
    if s.domState d = dsAcquiring && far then
      s.setDom d { x with time := ((x.time : Int) - off).toNat, good := 0 }
    else
      let r := s.correctedRate off
      let good := if off.natAbs ≤ limit then x.good + 1 else 0
      let s := r.2.setDom d { x with rate := r.1, good := good }
      if s.domState d = dsAcquiring then
        if 16 ≤ good then (s.wr (domStateF d) dsLocked).post 0x0801 sevInfo srcDevice d else s
      else if decide (4 * limit < off.natAbs) then s.domLeaves d dsAcquiring 1
      else s
  if s.selected = d then s.followRate else s

/-- Picoseconds, signed, in units of 2^-32 ns. -/
def psInt (ps : Int) : Int := ps * 2 ^ 32 / 1000

/-- An offset with the domain's ASYM applied (R433): the transmit path longer by ASYM makes the receive path half of it shorter than the
path delay. -/
def State.asymmetric (s : State) (d : Nat) (off : Int) : Int := off + psInt (s.dom d).asym / 2

/-- The group that a REEL domain follows. -/
def State.domGroup (s : State) (d : Nat) : Option Group := s.group (s.dom d).lane

/-- DOMAIN_OFFSET_MEASUREMENT (R422-R424): the offset of a PTP domain as its four timestamps gave it, or
of a REEL domain as its SYNC exchange did (R434).  The board's asymmetry corrects the path delay, and so the offset by half of it (R433,
DEDUCED). -/
def execDomainOffsetMeasurement (dt domain : Nat) (offsetPs : Int) (s : State) : Answer :=
  s.event dt fun s => s.whenever (decide (domain < 2)) fun s =>
    if s.domSource domain = 2 then s.measure domain (s.asymmetric domain (psInt offsetPs))
    else if s.domSource domain = 3 then
      match s.domGroup domain with
      | some g =>
        match g.meas with
        | some m =>
          let s := (s.setGroup { g with meas := none }).setDom domain { s.dom domain with pathDelay := m.2 * 65536 }
          s.measure domain (s.asymmetric domain (m.1 * 65536))
        | none => s
      | none => s
    else s

/-- The interval of a domain's source in fs: the sync interval of PTP (R431), SYNCINT of the group for REEL (R395). -/
def State.domInterval (s : State) (d : Nat) : Nat :=
  if s.domSource d = 2 then 2 ^ (s.dom d).synclog * (1000 * fsMs) / 128
  else s.rd (Reg.LANE.CFG.SYNCINT (s.dom d).lane) * fsUs

/-- SOURCE_SILENCE_TIMEOUT (R423): the source has been silent for three of its intervals. -/
def execSourceSilenceTimeout (dt domain : Nat) (s : State) : Answer :=
  s.event dt fun s => s.whenever (decide (domain < 2) && decide (2 ≤ s.domSource domain) &&
      (s.domState domain == dsLocked || s.domState domain == dsAcquiring) &&
      decide ((s.dom domain).heardAt + 3 * s.domInterval domain ≤ s.now)) fun s =>
    s.domLeaves domain dsFree 2

/-- SLEW_COMPLETE (R425): the output time agrees with the selected domain within 2^-16 ns. -/
def execSlewComplete (dt : Nat) (s : State) : Answer :=
  s.event dt fun s => s.whenever (s.rdb Reg.TIME.STAT.SLEW) fun s =>
    s.followRate

/-! ### Commands -/

/-- A time value of R464 in units of 2^-16 ns, from its two words. -/
def timeUnits (w0 w1 : Nat) : Nat := bits w1 47 0 * secUnits + bits w0 47 16 * 65536 + bits w0 15 0

/-- Whether a time value of R464 has nanoseconds above 999,999,999. -/
def timeBad (w0 : Nat) : Bool := decide (999999999 < bits w0 47 16)

/-- The time lanes of a SERVE field. -/
def serveLanes (serve : Nat) : List Nat := (List.range 4).filter fun t => bit serve t

/-- The payload of TIME_DOMAIN_SETUP: words 2 and 3 are given for HOST only (R464). -/
def timeDomainLen (ws : List Word) : Bool :=
  ws.length == if bits ((ws.getD 0 0).toNat) 3 2 = 1 then 4 else 2

/-- FRAME cues claimed for the serving lanes of a domain (R436): lane and cue. -/
def State.claimFrames (s : State) (lanes : List Nat) : State × List (Nat × Nat) :=
  lanes.foldl (fun acc t =>
    match acc.1.firstFreeCue with
    | some k => (acc.1.claimCue k fnFrame, acc.2 ++ [(t, k)])
    | none => acc) (s, [])

/-- TIME_DOMAIN_SETUP (R420-R424, R428, R431, R436, R464). -/
def timeDomainSetupBody (c : Cmd) (s : State) : State :=
  let d := c.f 0 0 0
  let src := c.f 0 3 2
  let path := c.f 0 4 4
  let lane := c.f 0 22 16
  let serve := c.f 0 35 32
  let timed := c.b 0 36
  let lanes := serveLanes serve
  let other := 1 - d
  let words := if src = 1 then [[(47, 0)], [(47, 0)]] else []
  let old := (s.dom d).frameCues
  let free := ((List.range 16).filter fun k => s.cueFunc k = 0).length + old.length
  let laneOff := if src = 2 then s.rd (Reg.ETH.CFG.MODE (lane - 64)) == 0
    else if src = 3 then (s.group lane).isNone || !s.rdb (Reg.LANE.CFG.SYNCEN lane) else false
  s.checked c
    [(c.reserved ([[(0, 0), (3, 2), (4, 4), (15, 8), (22, 16), (24, 24), (26, 25), (31, 28), (35, 32), (36, 36)],
        [(31, 0)]] ++ words) ||
        c.f 0 26 25 == 3 || (src == 3 && path == 1) || decide (8 < c.f 0 31 28) ||
        (src == 2 && (decide (lane < 64) || decide (67 < lane))) || (src == 3 && decide (63 < lane)) ||
        (src == 2 && bit serve (lane - 64)) ||
        (s.domSource other == 2 && bit serve ((s.dom other).lane - 64)) || (src == 1 && timeBad (c.w 2)),
        stBadParam, 0),
     ((path == 1 && !s.time.ml1) || laneOff || lanes.any (fun t => s.rd (Reg.ETH.CFG.MODE t) == 0) ||
        (src == 0 && s.selected == d && s.rd Reg.STEP.CTRL.MODE == 3), stState, 0),
     (timed && decide (free < lanes.length), stTaken, 0)]
    fun s =>
      let s := if src = 0 ∧ s.selected = d ∧ s.rdb Reg.TIME.STAT.AUTO ∧ s.domState other = dsLocked then
          s.selectDomain other true false else s
      let s := old.foldl (fun s f => s.releaseCue f.2) s
      let claimed := if timed then s.claimFrames lanes else (s, [])
      let was := claimed.1.domState d
      let s := claimed.1.setDom d
        { s.dom d with
          time := if src = 1 then timeUnits (c.w 2) (c.w 3) * 65536 else (s.dom d).time
          rate := if src = 1 then hostRate (s.rd Reg.CLK.SYSSPREAD.DEPTH) else (s.dom d).rate
          good := 0
          lane := lane
          delayPeer := c.b 0 24
          transport := c.f 0 26 25
          synclog := c.f 0 31 28
          serve := serve
          timed := timed
          asym := signed 32 (c.f 1 31 0)
          heardAt := s.now
          frameCues := claimed.2 }
      let s := s.store (Reg.TIME.DOM.SOURCE d).addr (toWord (src * 2 ^ 32 + path * 2 ^ 34 + c.f 0 15 8 * 2 ^ 40))
      let s := s.wr (domStateF d) (if src = 0 then dsOff else if src = 1 then dsLocked else dsAcquiring)
      let s := if src = 1 ∧ was ≠ dsLocked then s.post 0x0801 sevInfo srcDevice d else s
      let s := if s.selected = d ∧ src ≠ 0 then
          (if s.coasts path then s else s.wr Reg.TIME.STAT.PATH path).followRate
        else if s.selected = d then s.wr Reg.TIME.STAT.SLEW 0
        else s
      s.ok c []

/-- TIME_DOMAIN_SETUP's command. -/
def timeDomainSetupCmd : Command := command 0x0801 timeDomainLen timeDomainSetupBody

/-- TIME_DOMAIN_SETUP (R464). -/
def execTimeDomainSetup (dt : Nat) (hdr : CmdHdr) (ws : List Word) (s : State) : Answer :=
  s.event dt fun s => s.issueCmd timeDomainSetupCmd hdr ws

/-- Whether some cue is armed (R426). -/
def State.anyArmed (s : State) : Bool := (List.range 16).any s.cueArmed

/-- TIME_SELECT (R425-R427). -/
def timeSelectBody (c : Cmd) (s : State) : State :=
  let d := c.f 0 0 0
  let jump := c.b 0 2
  s.checked c
    [(c.reserved [[(0, 0), (1, 1), (2, 2)]], stBadParam, 0),
     (s.domState d == dsOff || (jump && (s.anyArmed || s.rd Reg.STEP.CTRL.MODE == 3)), stState, 0)]
    fun s =>
      ((s.wrb Reg.TIME.STAT.AUTO (c.b 0 1)).selectDomain d false jump).ok c []

/-- TIME_SELECT's command. -/
def timeSelectCmd : Command := command 0x0802 (exactly 1) timeSelectBody

/-- TIME_SELECT (R426). -/
def execTimeSelect (dt : Nat) (hdr : CmdHdr) (ws : List Word) (s : State) : Answer :=
  s.event dt fun s => s.issueCmd timeSelectCmd hdr ws

/-! ### SYNC frames and IEEE 1588 messages -/

/-- A correction in ps taken from or added to the output time, in units of 2^-16 ns (R432). -/
def State.stampNow (s : State) (add : Bool) (ps : Nat) : Nat :=
  (if add then s.time.out + psUnits ps else s.time.out - psUnits ps) / 65536

/-- The transmit time of a SYNC frame placed at stream position `p`, in units of 2^-16 ns, referred to the ball (R396, R432). -/
def State.syncStamp (s : State) (g : Group) (p : Nat) : Nat :=
  let wait := (s.positionAt g p - s.now) * 2 ^ 32 / 1000000
  (s.time.out + wait + psUnits (laneCorrection (s.rd (Reg.LANE.CFG.RATE g.first))).1) / 65536

/-- SYNC_INTERVAL (R395-R397): a SYNC frame reports when the previous one left and when the partner's last one arrived; its own
transmit time is that of its START block. -/
def execSyncInterval (dt first : Nat) (s : State) : Answer :=
  s.event dt fun s =>
    match s.group first with
    | none => s
    | some g => s.whenever (s.laneSends first && s.rdb (Reg.LANE.CFG.SYNCEN first) &&
          decide (g.syncAt + s.rd (Reg.LANE.CFG.SYNCINT first) * fsUs ≤ s.now)) fun s =>
        let prev := (g.syncTxs.head?.map Prod.snd).getD 0
        let word := toWord (g.syncNo % 65536 + g.partnerSync % 65536 * 2 ^ 48)
        let s := s.sendNow first kindSync word [stampWord (prev * 65536), stampWord (g.syncRx * 65536)]
        match s.group first with
        | some h =>
          let tx := s.syncStamp h (((h.sent.filter fun f => f.kind = kindSync).getLast?.map LFrame.pos).getD 0)
          s.setGroup { h with
            syncNo := (g.syncNo + 1) % 65536, syncAt := s.now, syncTxs := ((g.syncNo, tx) :: g.syncTxs).take 8 }
        | none => s

/-- What a SYNC frame does (R397, R434): its timestamps close an exchange where the previous frame of the partner and the frame it
reports are known. -/
def State.takeSync (s : State) (first : Nat) (word p0 p1 : Word) : State :=
  let rx := s.stampNow false (laneCorrection (s.rd (Reg.LANE.CFG.RATE first))).2
  let n := fieldOf word 15 0
  match s.group first with
  | none => s
  | some g =>
    let meas := match g.syncTxs.find? fun x => x.1 = fieldOf word 63 48 with
      | some x =>
        if (g.partnerSync + 1) % 65536 = n then
          some (syncOffset (stampUnits p0) g.syncRx x.2 (stampUnits p1),
            syncDelay (stampUnits p0) g.syncRx x.2 (stampUnits p1))
        else g.meas
      | none => g.meas
    let s := s.setGroup { g with meas := meas, partnerSync := n, syncRx := rx }
    [0, 1].foldl (fun s d => if s.domSource d = 3 ∧ (s.dom d).lane = first then s.heard d else s) s

/-- SYNC_FRAME_RECEIVE (R397, R434). -/
def execSyncFrameReceive (dt first fseq expseq ctl : Nat) (word : Word) (payload : List Word) (ending : FrameEnd) (s : State) :
    Answer :=
  let frame := rxFrame fseq expseq ctl word payload ending.crc ending.others
  s.event dt fun s => s.whenever (s.laneHears first && rxKind frame == kindSync) fun s =>
    s.hearFrame first frame fun s => s.takeSync first frame.word (frame.payload.getD 0 0) (frame.payload.getD 1 0)

/-! ### Ethernet frames (R406, R407)

The layout of a frame, the PAUSE opcodes and the sizes of IEEE 1588 messages are those of IEEE 802.3 and IEEE 1588-2019 (PRESUMED,
assumption 116). -/

/-- The destination addresses that every time lane accepts beside its own (R407): the IEEE 1588 addresses of IEEE 802.3
and of IPv4 and IPv6 multicast. -/
def ptpAddresses : List (BitVec 48) :=
  [0x011B19000000, 0x0180C200000E, 0x01005E000181, 0x01005E00006B, 0x333300000181, 0x33330000006B]

/-- The two bytes at an offset of a frame. -/
def ethWord (bs : List Byte) (o : Nat) : Nat := beNat (slice bs o 2)

/-- Whether a frame's last four bytes are its frame check sequence (R406). -/
def ethFcsOk (bs : List Byte) : Bool := leNat (bs.drop (bs.length - 4)) == crc32 (bs.take (bs.length - 4))

/-- Whether a frame is a PAUSE or priority PAUSE frame (R406). -/
def ethPause (bs : List Byte) : Bool := ethWord bs 12 == 0x8808 && (ethWord bs 14 == 0x0001 || ethWord bs 14 == 0x0101)

/-- Whether a type field is that of a VLAN tag. -/
def vlanTag (t : Nat) : Bool := t == 0x8100 || t == 0x88A8

/-- Whether a frame has a size and the tags that the MAC accepts (R406). -/
def ethShapeOk (bs : List Byte) : Bool :=
  decide (64 ≤ bs.length) && decide (bs.length ≤ 9216) && !(vlanTag (ethWord bs 12) && vlanTag (ethWord bs 16))

/-- Whether a frame passes the lane's filter (R407). -/
def State.ethAccepts (s : State) (lane : Nat) (bs : List Byte) : Bool :=
  let dest := beNat (bs.take 6)
  dest == s.rd (Reg.ETH.CFG.ADDR lane) || ptpAddresses.contains (BitVec.ofNat 48 dest)

/-- What the MAC does with a frame (R406, R407, R432): it stamps what it passes, and Keeper gets what the filter accepts.  A frame of a
size or with tags that the MAC does not accept is discarded and counted nowhere (DESIGN CHOICE, assumption 115). -/
def State.ethTake (s : State) (lane : Nat) (bs : List Byte) (buffer : Bool) (ptp : Option Int) : State :=
  if !ethFcsOk bs then s.count (Reg.ETH.RXCNT.RXFCS lane) 1
  else if !ethShapeOk bs then s
  else if ethPause bs then s.count (Reg.ETH.TXCNT.PAUSE lane) 1
  else
    let rx := s.stampNow false (ethCorrection (s.rd (Reg.ETH.CFG.MODE lane))).2
    let s := { s with time := { s.time with ethRx := s.time.ethRx.set lane rx } }
    if !s.ethAccepts lane bs || !buffer then s.count (Reg.ETH.RXCNT.RXDROP lane) 1
    else
      let s := s.count (Reg.ETH.RXCNT.RXOK lane) 1
      match ptp with
      | none => s
      | some off => [0, 1].foldl (fun s d =>
          if s.domSource d = 2 ∧ (s.dom d).lane = 64 + lane then s.measure d (s.asymmetric d (psInt off)) else s) s

/-- ETH_FRAME_RECEIVE (R406, R407, R414): the codewords that the RS-FEC corrected, and could not correct, since the previous frame are
counted in its mode; the frame goes to the MAC, and one of a domain's source may be the PTP message that completes an offset
measurement. -/
def execEthFrameReceive (dt lane : Nat) (bytes : List Byte) (fecCorrected fecBad : Nat) (buffer : Bool) (ptp : Option Int)
    (s : State) : Answer :=
  s.event dt fun s => s.whenever (decide (lane < 4) && s.rdb (Reg.ETH.STAT.LINK lane)) fun s =>
    let s := if s.rd (Reg.ETH.CFG.MODE lane) = 3 then
        (s.count (Reg.ETH.FEC.CORRECTED lane) fecCorrected).count (Reg.ETH.FEC.UNCORRECTED lane) fecBad
      else s
    s.ethTake lane bytes buffer ptp

/-- The bytes of an event message of a domain's transport on the wire, preamble included: its 44 bytes, the headers of TRANSPORT, the
FCS, and at least 64 bytes (IEEE 1588-2019; PRESUMED, assumption 116). -/
def ptpBytes (transport : Nat) : Nat := 8 + (if transport = 0 then 64 else if transport = 1 then 90 else 112)

/-- How long a time lane sends a frame of `n` bytes, in fs (R405). -/
def ethTime (mode n : Nat) : Nat := n * 8 * (if mode = 1 then 100000 else 40000)

/-- Keeper sends a frame of `n` bytes on a time lane: it waits for the frame in progress, and the MAC stamps its start, referred to
the ball (R432). -/
def State.ethSend (s : State) (t n : Nat) : State :=
  let mode := s.rd (Reg.ETH.CFG.MODE t)
  let start := max s.now (s.time.ethBusy.getD t 0)
  let tx := (s.time.out + (start - s.now) * 2 ^ 32 / 1000000 + psUnits (ethCorrection mode).1) / 65536
  { s with time := { s.time with
      ethTx := s.time.ethTx.set t tx
      ethBusy := s.time.ethBusy.set t (start + ethTime mode n) } }.count (Reg.ETH.TXCNT.TXOK t) 1

/-- A Sync message and its Follow_Up (R431): the Follow_Up carries the stamp of the Sync. -/
def State.sendTwoStep (s : State) (t transport : Nat) : State :=
  let s := s.ethSend t (ptpBytes transport)
  let tx := s.time.ethTx
  let s := s.ethSend t (ptpBytes transport)
  { s with time := { s.time with ethTx := tx } }

/-- A Sync message at a cue time (R435): one-step at the cue time, or two-step behind a frame that is still being sent. -/
def State.sendTimed (s : State) (t transport : Nat) : State :=
  if s.now < s.time.ethBusy.getD t 0 then s.sendTwoStep t transport else s.ethSend t (ptpBytes transport)

/-- PTP_SYNC_INTERVAL (R431, R435): Keeper sends a Sync, and its Follow_Up, on each serving lane of a domain; on a lane of timed
launch it sets the lane's FRAME cue within the interval instead.  As slave of a PTP domain it sends a delay request on the source
lane. -/
def execPtpSyncInterval (dt domain : Nat) (s : State) : Answer :=
  s.event dt fun s => s.whenever (decide (domain < 2) && s.domSource domain != 0) fun s =>
    let x := s.dom domain
    let s := if s.domSource domain = 2 ∧ s.rdb (Reg.ETH.STAT.LINK (x.lane - 64)) then
        s.ethSend (x.lane - 64) (ptpBytes x.transport) else s
    (serveLanes x.serve).foldl (fun s t =>
      if !s.rdb (Reg.ETH.STAT.LINK t) then s
      else match x.frameCues.find? fun f => f.1 = t with
        | some f =>
          let ahead := (Config.freeWord s.free).toNat % (2 ^ x.synclog * (1000000000 / 128)) * 65536
          { s with free := s.free + 1 }.armCue f.2 (s.outUnits + ahead) 0
        | none => s.sendTwoStep t x.transport) s

/-- The TRANSPORT of the domain that serves a time lane (R431). -/
def State.serveTransport (s : State) (t : Nat) : Nat :=
  if bit s.time.domA.serve t then s.time.domA.transport else s.time.domB.transport

/-- The lane whose FRAME cue a cue is, if any. -/
def State.frameLane (s : State) (k : Nat) : Option Nat :=
  ((s.time.domA.frameCues ++ s.time.domB.frameCues).find? fun f => f.2 = k).map Prod.fst

/-! ### Cues and capture inputs -/

/-- CUE_SET (R440-R442). -/
def cueSetBody (c : Cmd) (s : State) : State :=
  let op := c.f 0 1 0
  let k := c.f 0 7 4
  let fn := c.f 0 11 8
  let periodic := c.b 0 12
  let period := if periodic then c.f 3 39 0 else 0
  let claims := fn == fnTrace || fn == fnNotify
  let drives := fn == fnStep || fn == fnOutput
  let joined := s.rdb Reg.TIME.REEL.JOINED && s.rd Reg.TIME.REEL.CUE == k
  s.checked c
    [(c.reserved [[(1, 0), (7, 4), (11, 8), (12, 12), (17, 16)], [(47, 0)], [(47, 0)], [(39, 0)]] || op == 3 ||
        (op == 0 && (!(claims || drives) || (periodic && c.f 3 39 0 == 0) || timeBad (c.w 1))) ||
        (op == 2 && decide (8 ≤ k)), stBadParam, 0),
     ((op == 0 && drives && (s.cueFunc k != fn || (fn == fnStep && joined))) ||
        (op == 1 && decide (1 ≤ s.cueFunc k) && decide (s.cueFunc k ≤ 4)), stState, 0),
     (op == 0 && claims && !s.cueFree k fn, stTaken, 0)]
    fun s =>
      let s := if op = 0 then (if claims then s.claimCue k fn else s).armCue k (timeUnits (c.w 1) (c.w 2)) period
        else if op = 1 then s.releaseCue k
        else
          let s := s.wr (Reg.TIME.CAP.HI.EDGESEL k) (c.f 0 17 16)
          { s with time := { s.time with caps := s.time.caps.set k [], capLast := s.time.capLast.set k none } }
      s.ok c []

/-- CUE_SET's command. -/
def cueSetCmd : Command := command 0x0803 (exactly 4) cueSetBody

/-- CUE_SET (R441). -/
def execCueSet (dt : Nat) (hdr : CmdHdr) (ws : List Word) (s : State) : Answer :=
  s.event dt fun s => s.issueCmd cueSetCmd hdr ws

/-- The output time as a capture stamp, to 0.25 ns (R442). -/
def TimeU.stamp (t : TimeU) (rising : Bool) : Stamp :=
  { sec := t.secs, ns := t.nanos, frac := t.frac / 16384 * 16384, rising := rising }

/-- CAPTURE_EDGE (R442, R443): an edge at a capture input; a selected edge is stamped, unless one less than 4 ns before it
was. -/
def execCaptureEdge (dt input : Nat) (rising : Bool) (s : State) : Answer :=
  s.event dt fun s => s.whenever (decide (input < 8)) fun s =>
    let s := s.wrBit Reg.IOB.CTLPINS.TS_IN input rising
    let sel := s.rd (Reg.TIME.CAP.HI.EDGESEL input)
    let near := (s.time.capLast.getD input none).any fun t => decide (s.now < t + 4 * fsNs)
    s.whenever (bit sel (if rising then 0 else 1) && !near) fun s =>
      let q := s.time.caps.getD input []
      let s := { s with time := { s.time with capLast := s.time.capLast.set input (some s.now) } }
      if 4 ≤ q.length then
        (s.wr (Reg.TIME.CAP.HI.OVF input) 1).postLimited 0x0807 input sevWarn srcDevice input
      else { s with time := { s.time with caps := s.time.caps.set input (q ++ [s.time.stamp rising]) } }

/-- A write of 1 to `TIME.CAP[i].HI.POP` (R443): the oldest stamp of an input leaves its FIFO. -/
def State.popCapture (s : State) (input : Nat) : State :=
  { s with time := { s.time with caps := s.time.caps.set input ((s.time.caps.getD input []).drop 1) } }

/-- CAPTURE_POP (R443). -/
def execCapturePop (dt input : Nat) (s : State) : Answer :=
  s.event dt fun s => s.whenever (decide (input < 8)) fun s =>
    s.access (Reg.TIME.CAP.HI.POP input).addr fun s => s.popCapture input

end Sys2Proof.Machine
end

