-- ==== Sys2Proof/Machine/RegAccess.lean ====
section
/-! DEFINITION. Accesses to registers (R10-R17): reads with their effects, writes by access code, and the registers of the
host link whose writes act (R478-R480, R487, R505). -/

namespace Sys2Proof.Machine

/-! ### The part of a register that an access covers -/

/-- Whether an access has a size and alignment that the device performs (R11). -/
def accessOk (a size : Nat) : Bool := (size == 8 && a % 8 == 0) || (size == 4 && a % 4 == 0)

/-- The bits `[hi:lo]` of the 64-bit register that an access covers (R11). -/
def accessSpan (a size : Nat) : Nat × Nat := if size = 8 then (63, 0) else if a % 8 = 4 then (63, 32) else (31, 0)

/-- Whether an access covers a field's every bit. -/
def Field.within (f : Field) (span : Nat × Nat) : Bool := decide (span.2 ≤ f.lo) && decide (f.hi ≤ span.1)

/-- The fields that the register tables define at an offset, with an access code. -/
def fieldsAt (base : Nat) (acc : Access) : List Field :=
  match findReg base with
  | some r => (r.fields.filter fun f => f.acc = acc).map fun f => Field.mk base f.hi f.lo
  | none => []

/-! ### Reads -/

/-- A read of the register at `a` (R12-R14, R419): WO fields read as zero, RC fields that it covers clear, a 64-bit read of
`TIME.NOWNS` latches the seconds. -/
def State.readAccess (s : State) (a size : Nat) : Word × State :=
  let base := a / 8 * 8
  let span := accessSpan a size
  let w := (fieldsAt base .wo).foldl (fun w f => setBits w f.hi f.lo 0) (s.readReg base).toNat
  let s := ((fieldsAt base .rc).filter fun f => f.within span).foldl (fun s f => s.wr f 0) s
  let s := if base = Reg.TIME.NOWNS.NS.addr ∧ size = 8 then s.wr Reg.TIME.NOWSEC.SEC s.time.secs else s
  (toWord (bits w span.1 span.2), s)

/-! ### Plain writes -/

/-- The part of a field that an access covers. -/
def Field.part (f : Field) (span : Nat × Nat) : Field := ⟨f.addr, min f.hi span.1, max f.lo span.2⟩

/-- A write by the access codes of R13: RW fields take the bits written, ones clear bits of W1C fields, every other field
discards it. -/
def State.writeFields (s : State) (base : Nat) (span : Nat × Nat) (d : Nat) : State :=
  let put := fun (s : State) (f : Field) => if f.hi < f.lo then s else s.wr f (bits d f.hi f.lo)
  let clear := fun (s : State) (f : Field) =>
    if f.hi < f.lo then s else s.wr f (s.rd f - Nat.land (s.rd f) (bits d f.hi f.lo))
  let s := (fieldsAt base .rw).foldl (fun s f => put s (f.part span)) s
  (fieldsAt base .w1c).foldl (fun s f => clear s (f.part span)) s

/-! ### The rings -/

/-- A write of `HIF.CMDTAIL` (R480). -/
def State.writeCmdtail (s : State) (v : Nat) : State :=
  let head := s.rd Reg.HIF.CMDHEAD.COUNT
  let now := ringHolds (s.rd Reg.HIF.CMDTAIL.COUNT) head
  let new := ringHolds (v % 2 ^ 32) head
  if now ≤ new ∧ new ≤ 2 ^ s.rd Reg.HIF.RINGSIZE.CMDLOG then s.wr Reg.HIF.CMDTAIL.COUNT v else s.wr Reg.HIF.ERR.DOORBELL 1

/-- A write of a head that the driver advances, against its tail (R480). -/
def State.writeHead (s : State) (head tail : Field) (v : Nat) : State :=
  let h := s.rd head
  if ringHolds (v % 2 ^ 32) h ≤ ringHolds (s.rd tail) h then s.wr head v else s.wr Reg.HIF.ERR.DOORBELL 1

/-- A write of `HIF.RPLHEAD` (R480). -/
def State.writeRplhead (s : State) (v : Nat) : State := s.writeHead Reg.HIF.RPLHEAD.COUNT Reg.HIF.RPLTAIL.COUNT v

/-- A write of `HIF.EVTHEAD` (R480). -/
def State.writeEvthead (s : State) (v : Nat) : State := s.writeHead Reg.HIF.EVTHEAD.COUNT Reg.HIF.EVTTAIL.COUNT v

/-- Whether the sizes of the rings are in range (R478). -/
def State.ringSizesOk (s : State) : Bool :=
  let ok := fun (f : Field) (lo hi : Nat) => decide (lo ≤ s.rd f) && decide (s.rd f ≤ hi)
  ok Reg.HIF.RINGSIZE.CMDLOG 14 20 && ok Reg.HIF.RINGSIZE.RPLLOG 14 20 && ok Reg.HIF.RINGSIZE.EVTLOG 6 16

/-- A write of `HIF.QCTRL.ENABLE` (R478). -/
def State.writeEnable (s : State) (on : Bool) : State :=
  if on && !s.ringSizesOk then s.wr Reg.HIF.ERR.SETUP 1 else s.wrb Reg.HIF.QCTRL.ENABLE on

/-- A queue reset by QRESET (R487, R503): EPOCH goes on, the command and reply counters are 0, STALLED is clear; packets
fetched and not started are dropped, commands in progress run on (R488). -/
def State.queueReset (s : State) : State :=
  let s := s.wr Reg.HIF.QSTAT.EPOCH (s.rd Reg.HIF.QSTAT.EPOCH + 1)
  let s := [Reg.HIF.CMDTAIL.COUNT, Reg.HIF.CMDHEAD.COUNT, Reg.HIF.RPLTAIL.COUNT, Reg.HIF.RPLHEAD.COUNT].foldl
    (fun s f => s.wr f 0) s
  let s := (s.wr Reg.HIF.QSTAT.STALLED 0).wr Reg.HIF.QSTAT.STALLCAUSE 0
  { s with hif := { s.hif with
    gen := s.hif.gen + 1
    fetched := s.hif.fetched.filter fun c => c.path ≠ .ring
    tailWait := none } }

/-! ### Writes that act -/

/-- The ring base and size registers, written only while ENABLE is 0 (R478). -/
def ringSetupRegs : List Nat :=
  [Reg.HIF.CMDBASE.BASE.addr, Reg.HIF.RPLBASE.BASE.addr, Reg.HIF.EVTBASE.BASE.addr, Reg.HIF.RINGSIZE.CMDLOG.addr]

/-- A write to the register at `a` (R10-R15): of the host's registers those of the rings act as R478 to R487 say, STEP.CTRL
and STEP.SINGLE as R85, POP as R443, GO as R491. -/
def State.writeAccess (s : State) (a size : Nat) (data : Word) : State :=
  let base := a / 8 * 8
  let span := accessSpan a size
  let d := data.toNat % 2 ^ (8 * size) * 2 ^ span.2
  let covers := fun (f : Field) => f.addr == base && f.within span
  let sets := fun (f : Field) => covers f && bit d f.lo
  let s' := s.writeFields base span d
  if ringSetupRegs.contains base then
    if s.rdb Reg.HIF.QCTRL.ENABLE then s.wr Reg.HIF.ERR.SETUP 1 else s'
  else if base = Reg.HIF.WBADDR.ADDR.addr then (if s.rdb Reg.HIF.QCTRL.ENABLE then s else s')
  else if covers Reg.HIF.CMDTAIL.COUNT then s.writeCmdtail (bits d 31 0)
  else if covers Reg.HIF.RPLHEAD.COUNT then s.writeRplhead (bits d 31 0)
  else if covers Reg.HIF.EVTHEAD.COUNT then s.writeEvthead (bits d 31 0)
  else if covers Reg.HIF.QCTRL.ENABLE then
    let s := if s.rdb Reg.HIF.QCTRL.ENABLE = bit d 0 then s else s.writeEnable (bit d 0)
    if bit d 1 then s.queueReset else s
  else if covers Reg.STEP.SINGLE.NSTEP then s.writeNstep (bits d 31 0)
  else if sets Reg.STEP.CTRL.HALT then s.writeHalt
  else if sets Reg.STEP.CTRL.RUN then s.writeRun
  else if sets Reg.HIF.MBOXCTL.GO then s'.writeGo
  else match (List.range 8).find? fun i => sets (Reg.TIME.CAP.HI.POP i) with
    | some i => s'.popCapture i
    | none => s'

/-! ### Register targets -/

/-- One word of a hallway read of registers (R11). -/
def State.targetRead (s : State) (a : Nat) : Word × State := s.readAccess a 8

/-- One word of a hallway write of registers with its byte enables (R11): a whole word, or either half; any other is
discarded and sets BADACC. -/
def State.targetWrite (s : State) (a be : Nat) (d : Word) : State :=
  if be = 255 then s.writeAccess a 8 d
  else if be = 0x0F then s.writeAccess a 4 d
  else if be = 0xF0 then s.writeAccess (a + 4) 4 (toWord (d.toNat / 2 ^ 32))
  else if be = 0 then s
  else s.wr Reg.HIF.ERR.BADACC 1

end Sys2Proof.Machine
end

