-- ==== Sys2Proof/Machine/Hallway.lean ====
section
/-! DEFINITION. The hallway (R269-R301): routers, targets, responses, tags that time out, drains, NOC_STATS and
NOC_QUOTA. -/

namespace Sys2Proof.Machine

/-! ### Routers -/

/-- Whether a real-time port in panic raises a packet (R282): it travels between the port's controller and an initiator
bound to it. -/
def State.panicked (s : State) (p : Packet) : Bool :=
  s.g6.rt.any fun r => r.inits.contains p.init && s.target p.addr == some (0x20 + r.ctrl) &&
    s.rdb (Reg.MEM.RT.PANIC (r.ctrl / 4) (r.ctrl % 4) r.port)

/-- The current urgency of a packet (R280, R282). -/
def State.urgency (s : State) (p : Packet) : Nat :=
  if s.panicked p then 7 else min 7 (p.urg + s.age p / max 64 (s.rd Reg.NOC.AGING.STEP))

/-- Whether packet `a` goes before packet `b` (R281): urgency, then the older ENTRY, then the lower INIT. -/
def State.goesBefore (s : State) (a b : Packet) : Bool :=
  let ua := s.urgency a
  let ub := s.urgency b
  decide (ub < ua) || (ua == ub && (decide (s.age b < s.age a) || (s.age a == s.age b && decide (a.init < b.init))))

/-- The output of a router that a packet waits for: the number of the next router, or 16 for the router's own ends (R276-R278). -/
def State.outputOf (s : State) (r : Nat) (p : Packet) : Nat :=
  if !([1, 2, 8, 9, 0xA].contains p.type) || s.expired p || (decide (p.type < 8) && decide (p.dest < 0x10) && !s.towerReady (p.dest % 8)) ||
      p.goal r == r then 16
  else ((s.nextRouter r (p.goal r)).map Prod.fst).getD 16

/-- The packet of a class, requests or responses, that a router forwards next at an output (R279, R281). -/
def State.routerFront (s : State) (r output : Nat) (response : Bool) : Option Packet :=
  let mine := (s.noc.routers.filter fun x => x.1 = r && decide (x.2.ready ≤ s.now) && decide (8 ≤ x.2.type) == response &&
    s.outputOf r x.2 == output).map Prod.snd
  mine.foldl (fun best p => match best with
    | none => some p
    | some b => if s.goesBefore p b then some p else some b) none

/-- A packet leaves a router. -/
def State.leaveRouter (s : State) (r : Nat) (p : Packet) : State :=
  { s with noc := { s.noc with routers := s.noc.routers.erase (r, p) } }

/-- A register target serves a request (R11, R47). -/
def State.serveRegisters (s : State) (t r : Nat) (q : Packet) : State :=
  let a := q.addr - 0x1100000000
  if q.type = 2 then
    let s := q.enables.foldl (fun s w => s.targetWrite (a + 8 * w.1) w.2.1 w.2.2) s
    s.enterRouter r { q.response hsOk 0 [] with ready := s.now }
  else
    let x := (List.range (q.len + 1)).foldl (fun (acc : List Word × State) i =>
      let y := acc.2.targetRead (a + 8 * i)
      (acc.1 ++ [y.1], y.2)) ([], s)
    let s := if t < 0x10 then x.2.touch (t - 8) else x.2
    s.enterRouter r { q.response hsOk 0 x.1 with ready := s.now }

/-- A packet at its destination router (R277): a request enters its target, a response its initiator's interface. -/
def State.deliverPacket (s : State) (r : Nat) (p : Packet) : State :=
  if 8 ≤ p.type then { s with noc := { s.noc with arrived := s.noc.arrived ++ [(p.init, p)] } }
  else if 0x08 ≤ p.dest ∧ p.dest < 0x20 then s.serveRegisters p.dest r p
  else
    let s := { s with noc := { s.noc with targets := s.noc.targets ++ [(p.dest, p)] } }
    if 0x20 ≤ p.dest then (s.g6Accept (p.dest - 0x20) p).rtSync (p.dest - 0x20) else s

/-- A router forwards a packet that passes its header check, or refuses it (R273, R276-R279, R286, R290). -/
def State.routePacket (s : State) (r : Nat) (p : Packet) : State :=
  let refuse := fun (s : State) (status : Nat) => s.enterRouter r { p.response status 0 [] with ready := s.now }
  if !([1, 2, 8, 9, 0xA].contains p.type) then s.count Reg.NOC.DISCARD.BADTYPE 1
  else if s.expired p then s.countExpired r
  else if p.type < 8 ∧ p.dest < 0x10 ∧ !s.towerReady (p.dest % 8) then refuse s hsReset
  else if p.goal r = r then s.deliverPacket r p
  else match s.nextRouter r (p.goal r) with
    | some n => s.enterRouter n.1 ({ p with alt := p.alt || n.2 }.onLink r n.1)
    | none =>
      if 8 ≤ p.type then s
      else refuse ((s.count Reg.NOC.ABORTS.NOROUTE 1).postLimited 0x0409 p.init sevError srcDevice
        (p.init + p.dest * 2 ^ 16)) hsNoroute

/-- A router handles a packet whose header arrived with some bits inverted: HCHK discards it, or it is taken as it reads (R272,
R273). -/
def State.routeHeader (s : State) (r : Nat) (p : Packet) (inverted : List Nat) : State :=
  let s := s.leaveRouter r p
  let h := inverted.foldl (fun h i => Nat.xor h (2 ^ i)) p.header
  if inverted.isEmpty then s.routePacket r p
  else if !headerOk h then s.count Reg.NOC.DISCARD.HCHK 1
  else s.routePacket r (p.withHeader h)

/-- PACKET_AT_ROUTER (R273, R276-R282): requests that waited for credit enter (R287); a router handles the packet of a class that it
forwards next at an output. -/
def execPacketAtRouter (dt router : Nat) (turn : RouterTurn) (s : State) : Answer :=
  s.event dt fun s =>
    let s := s.pump
    match s.routerFront router turn.output turn.response with
    | some p => s.whenever (s.routerUp router) fun s => s.routeHeader router p turn.inverted
    | none => s

/-- PACKET_EXPIRY (R286): a router, or a target or an initiator it leads to, discards a packet older than 250 µs; a write that its
controller has answered (R315) is no packet any more. -/
def execPacketExpiry (dt router : Nat) (s : State) : Answer :=
  s.event dt fun s =>
    match s.noc.routers.find? fun x => x.1 = router && s.expired x.2 with
    | some x => (s.leaveRouter router x.2).countExpired router
    | none =>
      match s.noc.targets.find? fun x => s.responseRouter x.1 x.2 = router && s.expired x.2 && !s.g6.answered.contains x.2 with
      | some x =>
        let s := (s.leaveTarget x).countExpired router
        if 0x20 ≤ x.1 then s.rtSync (x.1 - 0x20) else s
      | none =>
        match s.noc.arrived.find? fun x => x.2.goal router = router && s.expired x.2 with
        | some x => { s with noc := { s.noc with arrived := s.noc.arrived.erase x } }.countExpired router
        | none => s

/-! ### Tags -/

/-- A stale completion (R284). -/
def State.staleCompletion (s : State) (i : Nat) : State :=
  let s := (s.count Reg.NOC.STALE.COUNT 1).count (Reg.NOC.INI.LAT.STALE i) 1
  s.postLimited 0x0405 i sevWarn srcDevice i

/-- A response that matches a tag in use completes its transaction (R284). -/
def State.takeResponse (s : State) (i : Nat) (p : Packet) (u : TagUse) : State :=
  let s := { s with noc := { s.noc with tags := s.noc.tags.filter fun t => t.tag ≠ u.tag } }
  let s := (s.countDone i u.words (s.now - u.entry) p.status).tagSync i
  let data := if u.write then [] else if p.type = 8 then p.data else onesFor u.words
  (s.transactionDone u.purpose i p.tag u.write p.status data).pump

/-- Whether the completion of a tag waits for its wing port's buffer of 16 responses, which is full (R289). -/
def State.portFull (s : State) (u : TagUse) : Bool := s.bufferFull u.init u.purpose

/-- RESPONSE_ARRIVAL (R284, R286, R289): an initiator takes the oldest response that has arrived for it, unless it is older than
250 µs. -/
def execResponseArrival (dt initiator : Nat) (s : State) : Answer :=
  s.event dt fun s =>
    match s.noc.arrived.find? fun x => x.1 = initiator with
    | none => s
    | some x =>
      let p := x.2
      let u := s.noc.tags.find? fun t => t.tag = p.tag ∧ t.gen = p.gen ∧ t.init = initiator ∧ t.quarantine = none
      s.whenever (!u.any s.portFull || s.expired p) fun s =>
        let s := { s with noc := { s.noc with arrived := s.noc.arrived.erase x } }
        if s.expired p then s.countExpired (p.goal 0)
        else match u with
          | some u => s.takeResponse initiator p u
          | none => s.staleCompletion initiator

/-- The limit of R285, in fs. -/
def State.tagLimit (s : State) : Nat := min 200 (max 1 (s.rd Reg.NOC.TIMEOUT.LIMIT)) * fsUs

/-- TAG_TIMEOUT (R285): no matching response has arrived in time; the tag enters quarantine.  The completion waits while the buffer of
its wing port is full (R289; DESIGN CHOICE, assumption 105). -/
def execTagTimeout (dt tag : Nat) (s : State) : Answer :=
  s.event dt fun s =>
    match s.noc.tags.find? fun t => t.tag = tag ∧ t.quarantine = none with
    | none => s
    | some u => s.whenever (decide (u.entry + s.tagLimit ≤ s.now) && !s.portFull u) fun s =>
        let i := u.init
        let tags := s.noc.tags.map fun (t : TagUse) => if t.tag = tag then { t with quarantine := some s.now } else t
        let s := { s with noc := { s.noc with tags := tags } }.count (Reg.NOC.INI.LAT.TIMEOUTS i) 1
        let s := s.postLimited 0x0406 i sevWarn srcDevice i
        s.transactionDone u.purpose i tag u.write hsTimeout (if u.write then [] else onesFor u.words)

/-- QUARANTINE_END (R285): 64 µs after it began, the tag is free again with its next generation. -/
def execQuarantineEnd (dt tag : Nat) (s : State) : Answer :=
  s.event dt fun s =>
    match s.noc.tags.find? fun t => t.tag = tag && t.quarantine.any fun q => decide (q + 64 * fsUs ≤ s.now) with
    | none => s
    | some u =>
      let s := { s with noc := { s.noc with
        tags := s.noc.tags.filter fun t => t.tag ≠ tag
        gens := s.noc.gens.upd 0 tag ((s.noc.gens.at 0 tag + 1) % 4) } }
      (s.tagSync u.init).pump

/-! ### Drains -/

/-- DRAIN_END (R290): the drain of a tower's routers ends when both are empty, or after 10 µs. -/
def execDrainEnd (dt tower : Nat) (s : State) : Answer :=
  s.event dt fun s =>
    match s.noc.drains.find? fun d => d.1 = tower with
    | none => s
    | some d =>
      let empty := !s.noc.routers.any fun x => (towerRouters tower).contains x.1
      s.whenever (empty || decide (d.2.1 + 10 * fsUs ≤ s.now)) fun s => s.drainEnds tower

/-- The completion of a tag in use with a status, as an error response that has arrived. -/
def TagUse.failure (u : TagUse) (status entry : Nat) : Nat × Packet :=
  (u.init, { requestPacket u.init u.write 0 u.words 255 255 [] with
    type := 0xA, dest := 0xFF, tag := u.tag, gen := u.gen, status := status, entry := entry })

/-- Every packet is dropped, writes that a controller has answered apart (R315), and every tag in use completes with a status;
quarantines end, generations stay (R292).  A tag of a wing port
whose buffer is full completes as room comes, by RESPONSE_ARRIVAL (R289; DESIGN CHOICE, assumption 105). -/
def State.dropHallway (s : State) (status : Nat) : State :=
  let inUse := s.noc.tags.filter fun t => t.quarantine.isNone
  let inits := (s.noc.tags.map TagUse.init).eraseDups
  let gone := s.noc.targets.filter fun x => !s.g6.answered.contains x.2
  let s := if status = hsAbort then s.count Reg.NOC.ABORTS.ROUTE (s.noc.routers.length + gone.length) else s
  let s := gone.foldl State.leaveTarget s
  let s := { s with
    noc := { s.noc with routers := [], arrived := [], tags := [], drains := [] }
    attic := { s.attic with waiting := s.attic.waiting.map fun (w : MaintWrite × Option (Nat × Packet)) => (w.1, none) } }
  let s := (List.range 8).foldl State.rtSync s
  let s := inUse.foldl (fun s u =>
    if s.portFull u then { s with noc := { s.noc with
      tags := s.noc.tags ++ [u], arrived := s.noc.arrived ++ [u.failure status s.localNs] } }
    else s.transactionDone u.purpose u.init u.tag u.write status (if u.write then [] else onesFor u.words)) s
  inits.foldl State.tagSync s

/-! ### NOC_STATS -/

/-- The 32-bit bins of an initiator's histogram, two in a word (R296, R301). -/
def State.histWords (s : State) (i : Nat) : List Word :=
  (List.range 4).map fun j =>
    toWord (s.noc.hist.at 0 (8 * i + 2 * j) + s.noc.hist.at 0 (8 * i + 2 * j + 1) * 2 ^ 32)

/-- The record of an initiator in a NOC_STATS reply (R296). -/
def State.iniWords (s : State) (i : Nat) : List Word :=
  [s.readReg (Reg.NOC.INI.TXN.COUNT i).addr, s.readReg (Reg.NOC.INI.BYTES.COUNT i).addr,
    s.readReg (Reg.NOC.INI.TAGS.INUSE i).addr, s.readReg (Reg.NOC.INI.LAT.MAXLAT i).addr] ++ s.histWords i

/-- The counters of an initiator cleared (R296). -/
def State.clearIni (s : State) (i : Nat) : State :=
  let s := ((s.wr (Reg.NOC.INI.TXN.COUNT i) 0).wr (Reg.NOC.INI.BYTES.COUNT i) 0).wr (Reg.NOC.INI.TAGS.DROPS i) 0
  let s := ((s.wr (Reg.NOC.INI.LAT.MAXLAT i) 0).wr (Reg.NOC.INI.LAT.TIMEOUTS i) 0).wr (Reg.NOC.INI.LAT.STALE i) 0
  { s with noc := { s.noc with hist := s.noc.hist.filter fun kv => kv.1 / 8 ≠ i } }

/-- NOC_STATS (R296). -/
def nocStatsBody (c : Cmd) (s : State) : State :=
  let first := c.f 0 10 0
  let n := c.f 0 26 16
  s.checked c
    [(c.reserved [[(10, 0), (26, 16), (32, 32)]] || decide (n < 1) || decide (1024 < n) || decide (1028 < first + n),
      stBadParam, 0)] fun s =>
    let is := (List.range n).map (first + ·)
    let payload := is.flatMap s.iniWords
    (if c.b 0 32 then is.foldl State.clearIni s else s).ok c payload

/-- NOC_STATS's command. -/
def nocStatsCmd : Command := command 0x0401 (exactly 1) nocStatsBody

/-- NOC_STATS (R296). -/
def execNocStats (dt : Nat) (hdr : CmdHdr) (ws : List Word) (s : State) : Answer :=
  s.event dt fun s => s.issueCmd nocStatsCmd hdr ws

/-! ### NOC_QUOTA -/

/-- The entries of a NOC_QUOTA: initiator, tags, urgency, reservation (R296). -/
def Cmd.quotas (c : Cmd) : List (Nat × Nat × Nat × Nat) :=
  (List.range (c.f 0 10 0)).map fun i =>
    (c.f (1 + i) 10 0, c.f (1 + i) 32 16, c.f (1 + i) 42 40, c.f (1 + i) 51 48)

/-- Whether an entry breaks R296 or R298; naming Keeper with other values than its own is a change to it. -/
def State.quotaBad (s : State) (e : Nat × Nat × Nat × Nat) : Bool :=
  decide (1027 < e.1) || decide (e.2.1 % 16 ≠ 0) || decide (10 < e.2.2.2) ||
    (e.1 == iniKeeper && (e.2.1 != s.rd (Reg.NOC.INI.TAGS.QUOTA e.1) || e.2.2.1 != s.rd (Reg.NOC.INI.TAGS.URG e.1) ||
      e.2.2.2 != s.rd (Reg.NOC.INI.TAGS.RESERVE e.1))) ||
    ([iniPcie, iniConfig, iniTrace].contains e.1 && decide (e.2.1 < 256))

/-- The tags that every initiator holds once some entries apply. -/
def State.quotaTotal (s : State) (es : List (Nat × Nat × Nat × Nat)) : Nat :=
  let rest := (List.range 1028).filter fun i => !es.any fun e => e.1 == i
  (rest.map fun i => s.rd (Reg.NOC.INI.TAGS.QUOTA i)).sum + (es.map fun e => e.2.1).sum

/-- The BU that entries add, and those that they give back (R298, R299). -/
def State.quotaRise (s : State) (es : List (Nat × Nat × Nat × Nat)) : Nat :=
  (es.map fun e => e.2.2.2 - s.rd (Reg.NOC.INI.TAGS.RESERVE e.1)).sum

/-- The BU that entries give back when they apply. -/
def State.quotaFall (s : State) (es : List (Nat × Nat × Nat × Nat)) : Nat :=
  (es.map fun e => s.rd (Reg.NOC.INI.TAGS.RESERVE e.1) - e.2.2.2).sum

/-- NOC_QUOTA (R296, R298): the increase is granted, and the command waits for its initiators' tags. -/
def nocQuotaBody (c : Cmd) (s : State) : State :=
  let n := c.f 0 10 0
  let es := c.quotas
  let names := es.map fun e => e.1
  s.checked c
    [(badBits (c.w 0) [(10, 0)] || decide (n < 1) || decide (1028 < n) ||
        (List.range n).any (fun i => badBits (c.w (1 + i)) [(10, 0), (32, 16), (42, 40), (51, 48)]) ||
        es.any s.quotaBad || names.eraseDups.length != n || decide (65536 < s.quotaTotal es), stBadParam, 0),
     (decide (s.freeBu < s.quotaRise es), stBudget, 0)] fun s =>
    let j : QuotaJob := { cmd := c.id, entries := es, began := s.now, bu := s.quotaRise es }
    { s.grantAlways 0x08 (s.quotaRise es) with noc := { s.noc with quotas := s.noc.quotas ++ [j] } }

/-- The payload of a NOC_QUOTA: word 0 and N entries. -/
def nocQuotaLen (ws : List Word) : Bool := ws.length == 1 + bits (ws.getD 0 0).toNat 10 0

/-- NOC_QUOTA's command. -/
def nocQuotaCmd : Command := command 0x0402 nocQuotaLen nocQuotaBody

/-- NOC_QUOTA (R296). -/
def execNocQuota (dt : Nat) (hdr : CmdHdr) (ws : List Word) (s : State) : Answer :=
  s.event dt fun s => s.issueCmd nocQuotaCmd hdr ws

/-- The quotas of some entries: their blocks are released, and each takes the lowest free blocks in turn (R283, R298). -/
def State.applyQuotas (s : State) (es : List (Nat × Nat × Nat × Nat)) : State :=
  let named := fun (h : Nat) => es.any fun e => e.1 + 1 == h
  let freed := (List.range 4096).foldl (fun (m : Cells Nat) b =>
    if named (m.get blockFresh b) then m.set blockFresh b 0 else m) s.noc.blocks
  let take := fun (m : Cells Nat) (e : Nat × Nat × Nat × Nat) =>
    (((List.range 4096).filter fun b => m.get blockFresh b = 0).take (e.2.1 / 16)).foldl
      (fun (m : Cells Nat) b => m.set blockFresh b (e.1 + 1)) m
  let s := { s with noc := { s.noc with blocks := es.foldl take freed } }
  es.foldl (fun s e =>
    ((s.wr (Reg.NOC.INI.TAGS.QUOTA e.1) e.2.1).wr (Reg.NOC.INI.TAGS.URG e.1) e.2.2.1).wr
      (Reg.NOC.INI.TAGS.RESERVE e.1) e.2.2.2) s

/-- Whether a NOC_QUOTA can apply: no named initiator has a tag in use or in quarantine (R298), and the tags left by what has applied
since it was checked suffice (DESIGN CHOICE, assumption 107). -/
def State.quotaReady (s : State) (q : QuotaJob) : Bool :=
  !(q.entries.any fun e => s.noc.tags.any fun t => t.init = e.1) && decide (s.quotaTotal q.entries ≤ 65536)

/-- NOC_QUOTA_APPLY (R298): the entries of the oldest NOC_QUOTA that can apply take effect at once. -/
def execNocQuotaApply (dt : Nat) (s : State) : Answer :=
  s.event dt fun s =>
    match s.noc.quotas.find? s.quotaReady with
    | none => s
    | some q =>
      let t := (s.ungrant 0x08 (q.bu + s.quotaFall q.entries)).grantAlways 0x08 (s.quotaRise q.entries)
      let t := t.applyQuotas q.entries
      let t := { t with noc := { t.noc with quotas := t.noc.quotas.erase q } }.freeTagSync
      (t.complete q.cmd stOk 0 []).pump

/-- A NOC_QUOTA that waits ends without a change: the BU of its increase return (R298). -/
def State.quotaEnds (s : State) (q : QuotaJob) (status : Nat) : State :=
  let s := s.ungrant 0x08 q.bu
  { s with noc := { s.noc with quotas := s.noc.quotas.erase q } }.complete q.cmd status 0 []

/-- Every NOC_QUOTA that waits ends. -/
def State.quotasEnd (s : State) (status : Nat) : State := s.noc.quotas.foldl (fun s q => s.quotaEnds q status) s

/-- NOC_QUOTA_TIMEOUT (R298): 10 ms have passed; the oldest such command returns BUSY and changes nothing. -/
def execNocQuotaTimeout (dt : Nat) (s : State) : Answer :=
  s.event dt fun s =>
    match s.noc.quotas.find? fun q => decide (q.began + 10 * fsMs ≤ s.now) with
    | none => s
    | some q => s.quotaEnds q stBusy

end Sys2Proof.Machine
end

