-- ==== Sys2Proof/Machine/Gddr6.lean ====
section
/-! DEFINITION. The GDDR6 commands and events (08_gddr6.md): G6_INIT and its end, G6_MAP, G6_ERRLOG, G6_QOS, the requests
that controllers serve, refresh, self-refresh and retraining. -/

namespace Sys2Proof.Machine

/-! ### Training -/

/-- The BU that a full G6_INIT requests for all eight controllers (R337). -/
def g6Bu (rate : Nat) (clamshell ecc : Bool) : Nat := 8 * ((if rate ≤ 16 then 10 else 13) + b2n clamshell + b2n ecc)

/-- The fitted capacity of a configuration (R305, R308). -/
def g6Capacity (density clamshell ecc : Bool) : Nat :=
  let space := 2 ^ 34 * 2 ^ b2n density * 2 ^ b2n clamshell
  if ecc then space / 8 * 7 else space

/-- A channel that a RETRAIN trains now: of each porch, the first it has still to train (R320). -/
def G6Job.trains (j : G6Job) (ch : Nat) : Bool := !j.full && j.left.find? (fun c => c / 8 = ch / 8) == some ch

/-- The controllers of the channels that a RETRAIN trains now have left self-refresh and show it (R318, R320, R338). -/
def State.retrainSync (s : State) : State :=
  (List.range 8).foldl (fun s k =>
    if s.g6.job.any fun j => j.trains (2 * k) || j.trains (2 * k + 1) then
      let s := s.leaveRefresh k false
      if s.ctrl k = 2 then s.setCtrl k 4 else s
    else if s.ctrl k = 4 then s.setCtrl k 2 else s) s

/-- G6_INIT (R319, R336, R337). -/
def g6InitBody (c : Cmd) (s : State) : State :=
  let full := !c.b 0 0
  let rate := c.f 0 23 16
  let sridle := c.f 1 19 0
  let trainper := c.f 1 41 32
  let bu := g6Bu rate (c.b 0 5) (c.b 0 6)
  s.checked c
    [(c.reserved [[(0, 0), (9, 4), (23, 16), (47, 32)], [(19, 0), (41, 32)]] || decide (rate < 14) || decide (20 < rate) ||
        decide (sridle < 1) || decide (1000000 < sridle) || decide (trainper < 1) || decide (1000 < trainper) ||
        (!full && c.f 0 47 32 == 0), stBadParam, 0),
     (full && s.stepping, stState, 0),
     (s.g6.job.isSome, stBusy, 0),
     (full && !s.g6.regions.isEmpty, stTaken, 0),
     (full && !s.fits 0x0F bu, stBudget, 0)] fun s =>
    let older := (List.range 8).foldl (fun (m : Cells Nat) k => m.upd 0 k (s.g6Queue k).length) []
    let j : G6Job :=
      { cmd := c.id, map := s.g6.pend, older := if full then older else [], full := full, word0 := c.w 0,
        channels := c.f 0 47 32, left := if full then [] else (List.range 16).filter (bit (c.f 0 47 32)), failed := 0
        sridle := sridle, trainper := trainper }
    let s := { s with g6 := { s.g6 with job := some j } }
    if full then (List.range 8).foldl (fun s k => s.setCtrl k 1) (s.setHeld 0x0F bu) else s.retrainSync

/-- G6_INIT's command. -/
def g6InitCmd : Command := command 0x0501 (exactly 2) g6InitBody

/-- G6_INIT (R336). -/
def execG6Init (dt : Nat) (hdr : CmdHdr) (ws : List Word) (s : State) : Answer :=
  s.event dt fun s => s.issueCmd g6InitCmd hdr ws

/-- A full G6_INIT ends (R308, R313, R319, R336): the map is active, contents are lost, the capacity follows the outcome. -/
def State.fullEnds (s : State) (j : G6Job) (failed : Nat) : State :=
  let s := s.forgetUnits (List.range 64)
  let ok := failed == 0
  let s := (List.range 8).foldl (fun s k =>
    let s := s.setCtrl k (if ok then 2 else 0)
    let s := (s.wrb (cstatF Reg.MEM.CSTAT.ECC k) (bit j.word0 6)).wrb (cstatF Reg.MEM.CSTAT.CLAMSHELL k) (bit j.word0 5)
    let s := (s.wrb (cstatF Reg.MEM.CSTAT.DENSITY k) (bit j.word0 4)).wr (cstatF Reg.MEM.CSTAT.RATE k) (bits j.word0 23 16)
    s.wr (cstatF Reg.MEM.CSTAT.DOWN k) 0) s
  let cap := if ok then g6Capacity (bit j.word0 4) (bit j.word0 5) (bit j.word0 6) else 0
  let s := s.wr Reg.MEM.CAP.BYTES cap
  let s := { s with g6 := { s.g6 with
    active := some j.map
    fills := []
    codeCache := []
    eccwb := bit j.word0 7
    refmode := bit j.word0 8
    ref2x := bit j.word0 9
    sridle := j.sridle
    trainper := j.trainper
    downLogged := []
    trainOwed := []
    lastAccess := (List.range 16).foldl (fun (m : Cells Nat) c => m.upd 0 c s.now) []
    refreshAt := []
    lastTrain := (List.range 16).foldl (fun (m : Cells Nat) c => m.upd 0 c s.now) []
    job := none } }
  if ok then (s.post 0x0501 sevInfo srcDevice (65535 + cap / 2 ^ 30 * 2 ^ 16)).complete j.cmd stOk 0 []
  else s.complete j.cmd stHwFault failed []

/-- A channel that a RETRAIN trained again: one that was down comes back with open contents (R321). -/
def State.retrained (s : State) (ch : Nat) : State :=
  let f := cstatF Reg.MEM.CSTAT.DOWN (ch / 2)
  let s := if s.chanDown ch then (s.forgetChannel ch).wr f (setBits (s.rd f) (ch % 2) (ch % 2) 0) else s
  { s with g6 := { s.g6 with
    lastTrain := s.g6.lastTrain.upd 0 ch s.now
    downLogged := s.g6.downLogged.filter fun c => c ≠ ch } }

/-- A channel that a RETRAIN trains is done, and the next one of its porch begins (R320, R321). -/
def State.channelDone (s : State) (ch : Nat) (ok : Bool) : State :=
  let s := if ok then s.retrained ch else if s.chanDown ch then s else s.channelDown ch
  { s with g6 := { s.g6 with job := s.g6.job.map fun (j : G6Job) => { j with
      left := j.left.erase ch, failed := if ok then j.failed else Nat.lor j.failed (2 ^ ch) } } }.retrainSync

/-- A RETRAIN ends, the channels that it has still to train with it (R321, R336). -/
def State.retrainEnds (s : State) (j : G6Job) (failed : Nat) : State :=
  let s := j.left.foldl (fun s ch => s.channelDone ch (!bit failed ch)) s
  let bad := (s.g6.job.map G6Job.failed).getD 0
  let s := { s with g6 := { s.g6 with job := none } }
  if bad = 0 then
    (s.post 0x0501 sevInfo srcDevice (j.channels + s.g6Cap / 2 ^ 30 * 2 ^ 16)).complete j.cmd stOk 0 []
  else s.complete j.cmd stHwFault bad []

/-- G6_INIT_COMPLETE (R319, R335, R336): the training ends, with the channels that failed it; a full one has first let the
queued requests complete. -/
def execG6InitComplete (dt failed : Nat) (s : State) : Answer :=
  s.event dt fun s =>
    match s.g6.job with
    | none => s
    | some j => s.whenever j.older.isEmpty fun s =>
        if j.full then s.fullEnds j (failed % 65536) else s.retrainEnds j (failed % 65536)

/-! ### The map and the regions -/

/-- The map that a G6_MAP SET spells (R336). -/
def Cmd.g6map (c : Cmd) : G6Map :=
  { cp := (List.range 4).map fun i => c.f 1 (8 * i + 5) (8 * i)
    bp := (List.range 4).map fun i => c.f 1 (8 * i + 37) (8 * i + 32)
    colpos := c.f 2 3 0
    cm := (List.range 4).map fun i => c.f (3 + i) 39 0
    bm := (List.range 16).map fun ch => (List.range 4).map fun i => c.f (7 + 4 * ch + i) 39 0 }

/-- Words 1 to 70 of a map (R336). -/
def G6Map.toWords (m : G6Map) : List Word :=
  let pos := fun (l : List Nat) => (l.zipIdx.map fun x => x.1 * 2 ^ (8 * x.2)).sum
  [toWord (pos m.cp + pos m.bp * 2 ^ 32), toWord m.colpos] ++ m.cm.map toWord ++ m.bm.flatMap fun b => b.map toWord

/-- The payload of a G6_MAP by its OP (assumption 28). -/
def g6MapLen (ws : List Word) : Bool :=
  let op := bits (ws.getD 0 0).toNat 1 0
  match op with
  | 0 => ws.length == 71
  | 1 => ws.length == 1
  | 2 => ws.length == 2
  | _ => decide (1 ≤ ws.length)

/-- The reserved bits of a G6_MAP. -/
def Cmd.g6mapBad (c : Cmd) : Bool :=
  let op := c.f 0 1 0
  c.reserved [[(1, 0)]] || op == 3 ||
    (op == 0 && (badBits (c.w 1) [(5, 0), (13, 8), (21, 16), (29, 24), (37, 32), (45, 40), (53, 48), (61, 56)] ||
      badBits (c.w 2) [(3, 0)] || (List.range 68).any (fun i => badBits (c.w (3 + i)) [(39, 0)]) || !c.g6map.ok)) ||
    (op == 2 && badBits (c.w 1) [(3, 0)])

/-- The words of an active map that no full G6_INIT has set: open values. -/
def State.openMap (s : State) : List Word × State :=
  ((List.range 70).map fun i => Config.freeWord (s.free + i), { s with free := s.free + 70 })

/-- The two words of a region entry (R336). -/
def State.regionWords (s : State) (i : Nat) : List Word :=
  match s.g6.regions.find? fun r => r.1 = i with
  | some r => [toWord (r.2.base + r.2.owner.code * 2 ^ 60), toWord r.2.size]
  | none => [0, 0]

/-- The region that entry `i` of the table holds. -/
def State.regionAt (s : State) (i : Nat) : Option Region := (s.g6.regions.find? fun r => r.1 = i).map Prod.snd

/-- G6_MAP (R313, R332, R336). -/
def g6MapBody (c : Cmd) (s : State) : State :=
  let op := c.f 0 1 0
  let entry := s.regionAt (c.f 1 3 0)
  let isState := entry.any fun r => r.owner == .state
  let saving := s.g6.save.any fun v => entry.any fun r => r.base == v.2.1
  s.checked c
    [(c.g6mapBad, stBadParam, 0), (op == 2 && !isState, stState, 0), (op == 2 && saving, stBusy, 0)] fun s =>
    if op = 0 then { s with g6 := { s.g6 with pend := c.g6map } }.ok c []
    else if op = 1 then
      let m := match s.g6.active with
        | some m => (m.toWords, s)
        | none => s.openMap
      m.2.ok c (m.1 ++ (List.range 16).flatMap fun i => s.regionWords i)
    else
      { s with g6 := { s.g6 with regions := s.g6.regions.filter fun r => r.1 ≠ c.f 1 3 0 } }.ok c []

/-- G6_MAP's command. -/
def g6MapCmd : Command := command 0x0502 g6MapLen g6MapBody

/-- G6_MAP (R336). -/
def execG6Map (dt : Nat) (hdr : CmdHdr) (ws : List Word) (s : State) : Answer :=
  s.event dt fun s => s.issueCmd g6MapCmd hdr ws

/-! ### The log and the real-time ports -/

/-- G6_ERRLOG (R327, R336). -/
def g6ErrlogBody (c : Cmd) (s : State) : State :=
  let p := c.f 0 0 0
  s.checked c [(c.reserved [[(0, 0), (8, 8)]], stBadParam, 0)] fun s =>
    let mine := s.g6.log.filter fun r => r.1 = p
    let words := s.readReg (Reg.MEM.LOGSTAT.ENTRIES p).addr :: mine.flatMap fun r => [r.2.g6Word0, toWord r.2.w1]
    let s := if c.b 0 8 then { s with g6 := { s.g6 with
        log := s.g6.log.filter fun r => r.1 ≠ p
        frozen := s.g6.frozen.filter fun q => q ≠ p } } else s
    s.ok c words

/-- G6_ERRLOG's command. -/
def g6ErrlogCmd : Command := command 0x0503 (exactly 1) g6ErrlogBody

/-- G6_ERRLOG (R336). -/
def execG6Errlog (dt : Nat) (hdr : CmdHdr) (ws : List Word) (s : State) : Answer :=
  s.event dt fun s => s.issueCmd g6ErrlogCmd hdr ws

/-- The initiators that a G6_QOS binds. -/
def Cmd.qosInits (c : Cmd) : List Nat := (List.range (c.f 0 52 48)).map fun i => c.f (1 + i) 10 0

/-- G6_QOS (R329, R330, R335, R336): the port's settings and binding are replaced, and its level follows at once. -/
def g6QosBody (c : Cmd) (s : State) : State :=
  let k := c.f 0 2 0
  let j := c.f 0 5 4
  let n := c.f 0 52 48
  let is := c.qosInits
  let p := k / 4
  let i := k % 4
  s.checked c
    [(badBits (c.w 0) [(2, 0), (5, 4), (8, 8), (25, 16), (41, 32), (52, 48)] || decide (c.f 0 25 16 ≤ c.f 0 41 32) ||
        decide (16 < n) || (List.range n).any (fun x => badBits (c.w (1 + x)) [(10, 0)]) ||
        is.any (fun x => decide (1027 < x)), stBadParam, 0),
     (s.g6.rt.any fun r => r.ctrl == k && r.port != j && r.inits.any is.contains, stTaken, 0)] fun s =>
    let s := (s.wrb (Reg.MEM.RT.ENABLE p i j) (c.b 0 8)).wr (Reg.MEM.RT.HI p i j) (c.f 0 25 16)
    let s := s.wr (Reg.MEM.RT.LO p i j) (c.f 0 41 32)
    let rest := s.g6.rt.filter fun r => !(r.ctrl == k && r.port == j)
    let mine : RtPort := { ctrl := k, port := j, inits := is }
    let s : State := { s with g6 := { s.g6 with rt := rest ++ [mine] } }
    (s.rtSync k).ok c []

/-- G6_QOS's command: word 0 and N initiators. -/
def g6QosCmd : Command := command 0x0504 (fun ws => ws.length == 1 + bits (ws.getD 0 0).toNat 52 48) g6QosBody

/-- G6_QOS (R336). -/
def execG6Qos (dt : Nat) (hdr : CmdHdr) (ws : List Word) (s : State) : Answer :=
  s.event dt fun s => s.issueCmd g6QosCmd hdr ws

/-! ### Requests, refresh and retraining -/

/-- G6_REQUEST (R315, R322-R326, R330, R335, R358-R364): a controller serves the request whose turn it is; one to a channel that a
RETRAIN trains waits. -/
def execG6Request (dt controller : Nat) (link : LinkEnd) (find : LineFind) (s : State) : Answer :=
  s.event dt fun s =>
    match s.g6Turn controller with
    | none => s
    | some x =>
      s.whenever (decide (controller < 8) && !(s.g6.job.any fun j => j.trains (s.g6Chan x.1.addr))) fun s =>
        s.serveG6 controller x.1 x.2 link find.changed find.rootBad

/-- Whether a controller refreshes its banks itself: in self-refresh the device does. -/
def State.refreshes (s : State) (ch : Nat) : Bool := s.ctrl (ch / 2) == 2 || s.ctrl (ch / 2) == 4

/-- The banks that a refresh covers (R317): every bank where REFMODE is 1 and the channel has been idle for 100 ns. -/
def State.refreshBanks (s : State) (ch bank : Nat) : List Nat :=
  if s.g6.refmode ∧ s.g6.lastAccess.at 0 ch + 100 * fsNs ≤ s.now then List.range 16 else [bank]

/-- How long after its last refresh a bank is due again (R317): as the fitted density requires, half as long with REF2X. -/
def State.refreshPeriod (s : State) : Nat :=
  Config.refreshFs (s.rdb (Reg.MEM.CSTAT.DENSITY 0 0)) / if s.g6.ref2x then 2 else 1

/-- Banks of a channel refreshed. -/
def State.refreshed (s : State) (ch : Nat) (banks : List Nat) : State :=
  let bump := fun (m : Cells Nat) (b : Nat) => m.upd 0 (16 * ch + b) (m.at 0 (16 * ch + b) + 1)
  let mark := fun (m : Cells Nat) (b : Nat) => m.upd 0 (16 * ch + b) s.now
  { s with g6 := { s.g6 with refreshes := banks.foldl bump s.g6.refreshes, refreshAt := banks.foldl mark s.g6.refreshAt } }

/-- REFRESH_DUE (R317): the refresh of a bank is issued. -/
def execRefreshDue (dt channel bank : Nat) (s : State) : Answer :=
  s.event dt fun s =>
    let due := decide (s.g6.refreshAt.at 0 (16 * channel + bank) + s.refreshPeriod ≤ s.now)
    s.whenever (decide (channel < 16) && decide (bank < 16) && s.refreshes channel && due) fun s =>
      s.refreshed channel (s.refreshBanks channel bank)

/-- SELF_REFRESH_ENTRY (R318): no access to either channel for SRIDLE. -/
def execSelfRefreshEntry (dt controller : Nat) (s : State) : Answer :=
  s.event dt fun s =>
    let idle := [2 * controller, 2 * controller + 1].all fun c => decide (s.g6.lastAccess.at 0 c + s.g6.sridle * fsUs ≤ s.now)
    s.whenever (decide (controller < 8) && idle && (s.g6Queue controller).isEmpty) fun s => s.selfRefresh controller

/-- A periodic retraining of a channel falls due (R318, R320, R321): in self-refresh the next exit includes it, ending as given here. -/
def State.retrainFalls (s : State) (ch : Nat) (ok : Bool) : State :=
  let trained := { s with g6 := { s.g6 with lastTrain := s.g6.lastTrain.upd 0 ch s.now } }
  if s.ctrl (ch / 2) = 3 then
    { s with g6 := { s.g6 with trainOwed := (ch, ok) :: s.g6.trainOwed.filter fun c => c.1 ≠ ch } }
  else if s.ctrl (ch / 2) ≠ 2 then s
  else if ok then trained else trained.channelDown ch

/-- RETRAIN_DUE (R318, R320, R321): the retraining of a channel, which may fail and take the channel down: one that a RETRAIN trains is
done; a periodic one that is due takes place, unless a RETRAIN trains a channel of its porch. -/
def execRetrainDue (dt channel : Nat) (ok : Bool) (s : State) : Answer :=
  s.event dt fun s =>
    if s.g6.job.any fun j => j.trains channel then s.channelDone channel ok
    else
      let due := decide (s.g6.lastTrain.at 0 channel + s.g6.trainper * fsMs ≤ s.now)
      let busy := s.g6.job.any fun j => j.left.any fun c => c / 8 = channel / 8
      s.whenever (decide (channel < 16) && due && !busy && !s.chanDown channel) fun s => s.retrainFalls channel ok

end Sys2Proof.Machine
end

