-- ==== Sys2Proof/Machine/Encryption.lean ====
section
/-! DEFINITION. The encryption commands (R352-R357, R365, R369-R373): CRYPT_ENABLE, the end of a SET or REINIT, and
CRYPT_STATUS. -/

namespace Sys2Proof.Machine

/-! ### The window -/

/-- The units of the metadata window for `n` protected units, `t` of them TREE (R352, R354). -/
def windowUnits (n t : Nat) : Nat := ceilDiv (tagBytes n + 64 * nodesBelow t (topLevel t + 1)) (64 * 2 ^ 20)

/-- The mode that a SET asks for unit `u` (R369). -/
def Cmd.unitMode (c : Cmd) (u : Nat) : Nat := c.f (1 + u / 32) (2 * (u % 32) + 1) (2 * (u % 32))

/-- The units that a SET protects, rising. -/
def Cmd.setUnits (c : Cmd) : List Nat := (List.range 64).filter fun u => c.unitMode u ≠ 0

/-- The TREE units of a SET. -/
def Cmd.setTree (c : Cmd) : List Nat := (List.range 64).filter fun u => c.unitMode u = 1

/-- The window of a SET: its first unit and its units. -/
def Cmd.setWindow (c : Cmd) (s : State) : Nat × Nat :=
  let m := windowUnits c.setUnits.length c.setTree.length
  (s.g6Cap / 0x40000000 - m, m)

/-- The units that a REINIT names. -/
def Cmd.reinitUnits (c : Cmd) : List Nat := (List.range 64).filter fun u => c.b 1 u

/-- The BU that a SET requests (R372). -/
def cryptBu (n t : Nat) : Nat := (if n = 0 then 0 else 24) + if t = 0 then 0 else 4

/-! ### Initialising units -/

/-- The high-water marks from which the leaves of some units start, and the marks once they are initialised (R357). -/
def State.freshMarks (s : State) (us : List Nat) : Cells Nat × Cells Nat :=
  ((us.filter s.treeUnits.contains).flatMap fun u => (List.range 16).map fun ch => (u, ch)).foldl (fun acc x =>
    let hw := acc.2.at 0 x.2
    (acc.1.upd 0 (64 * x.2 + x.1) hw, acc.2.upd 0 x.2 (hw + 16384))) ([], s.crypt.highwater)

/-- Whether a node covers both units of a set and others. -/
def splitNode (tree units : List Nat) (level node : Nat) : Bool :=
  !nodeWithin tree units level node && !nodeWithin tree (tree.filter fun u => !units.contains u) level node

/-- The nodes that a REINIT of some units rebuilds beside those that it initialises whole: those that cover other units too (R370). -/
def State.splitNodes (s : State) (us : List Nat) : List (Nat × Nat) :=
  (List.range (s.treeTop + 1)).flatMap fun level =>
    if level < 5 then []
    else ((List.range (treeNodes s.treeUnits.length level)).filter (splitNode s.treeUnits us level)).map fun n => (level, n)

/-- A node that covers units of an initialisation and others rebuilt: the hashes of the children that the initialisation gives replace
those that it held (R370). -/
def Seal.rebuilt (x : Seal) (ch level node : Nat) (old : BitVec 512) : BitVec 512 :=
  (List.range 8).foldl (fun d m =>
    let c := 8 * node + m
    if c < treeNodes x.tree.length (level - 1) ∧ nodeWithin x.tree x.units (level - 1) c then
      setChild d m (nodeHash x.key ch (level - 1) c (x.node ch (level - 1) c) % 2 ^ 56)
    else d) old

/-- The tree of a channel above some fresh units rebuilt up to the root (R370). -/
def State.rebuildTree (s : State) (x : Seal) (old : List (Nat × Nat × Nat × BitVec 512)) (ch : Nat) : State :=
  let top := s.treeTop
  let hashes := (List.range (treeNodes x.tree.length top)).map fun n =>
    if nodeWithin x.tree x.units top n then nodeHash x.key ch top n (x.node ch top n)
    else match old.find? fun o => o.1 = ch ∧ o.2.1 = top ∧ o.2.2.1 = n with
      | some o => nodeHash x.key ch top n (x.rebuilt ch top n o.2.2.2)
      | none => s.rootHash ch n
  let s := (old.filter fun o => o.1 = ch).foldl (fun s o =>
    let d := x.rebuilt ch o.2.1 o.2.2.1 o.2.2.2
    let s := s.g6PutLine (s.nodeAddr ch o.2.1 o.2.2.1) d
    if (s.cached ch o.2.1 o.2.2.1).isSome then
      s.cacheNode { channel := ch, level := o.2.1, node := o.2.2.1, data := d, dirty := false }
    else s) s
  { s with crypt := { s.crypt with roots := (s.crypt.roots.filter fun r => r.1 ≠ ch) ++ [(ch, hashes)] } }

/-- The nodes that a REINIT rebuilds in place, as they are trusted before it: channel, level, node, bytes; one that fails its check is
handled as at an access (R363). -/
def State.oldNodes (s : State) (us : List Nat) : State × List (Nat × Nat × Nat × BitVec 512) :=
  ((List.range 16).flatMap fun ch => (s.splitNodes us).map fun n => (ch, n)).foldl (fun acc x =>
    let e := State.trustNode iniKeeper true false x.1 (s.treeTop - x.2.1) acc.1 x.2.2
    match e.bad with
    | some b => (e.st.treeFails iniKeeper x.1 true b, acc.2)
    | none => (e.st, acc.2 ++ [(x.1, x.2.1, x.2.2, e.data)])) (s, [])

/-- Some units are initialised (R357, R370): encrypted zeros with their tags, fresh leaves, the tree above them rebuilt up to the root,
the blocked-list entries that they cover removed. -/
def State.initUnits (s : State) (us : List Nat) : State :=
  let marks := s.freshMarks us
  let x := s.sealOf us marks.1
  let tree := us.any s.treeUnits.contains
  let kept := s.oldNodes us
  let old := kept.2
  let s := kept.1
  let t := s.treeUnits
  let covered := fun (b : Blocked) => t.all fun u => decide (u < b.firstUnit) || decide (b.lastUnit < u) || us.contains u
  let s := s.fillWith (.sealed x)
  let s := { s with crypt := { s.crypt with
    highwater := marks.2
    cache := s.crypt.cache.filter fun n => !nodeWithin t us n.level n.node
    blocked := s.crypt.blocked.filter fun b => !covered b
    refuse := s.crypt.refuse.filter fun u => !us.contains u } }
  (if tree then (List.range 16).foldl (fun s ch => s.rebuildTree x old ch) s else s).blockedSync none

/-! ### CRYPT_ENABLE -/

/-- SET takes effect (R352, R370, R372): the modes, the window and the grant; the units are initialised until
CRYPT_INIT_COMPLETE. -/
def State.cryptSet (s : State) (c : Cmd) : State :=
  let us := c.setUnits
  let t := c.setTree.length
  let w := c.setWindow s
  let s := s.grantAlways 0x10 (cryptBu us.length t)
  let s := us.foldl (fun s u => s.setUnitMode u (c.unitMode u)) s
  let s := ((List.range w.2).map (w.1 + ·)).foldl (fun s u => s.setUnitMode u 3) s
  let s := if w.2 = 0 then s
    else s.allocRegion (w.1 * 0x40000000) (w.2 * 0x40000000) (if t = 0 then .ctag else .ctree)
  let s := ((s.wrb Reg.CRYPT.STAT.ENABLED (!us.isEmpty)).wr Reg.CRYPT.STAT.PROTECTED us.length).wr Reg.CRYPT.STAT.TREE t
  let s := ((s.wr Reg.CRYPT.STAT.META w.2).wr Reg.CRYPT.STAT.METABASE (if w.2 = 0 then 0 else w.1)).wr Reg.CRYPT.STAT.BUSY 1
  { s with crypt := { s.crypt with refuse := us, job := some (c.id, us, true) } }

/-- The payload of a CRYPT_ENABLE by its OP (assumption 28). -/
def cryptEnableLen (ws : List Word) : Bool :=
  match bits (ws.getD 0 0).toNat 1 0 with
  | 0 => ws.length == 3
  | 1 => ws.length == 1
  | 2 => ws.length == 2
  | _ => decide (1 ≤ ws.length)

/-- Whether a SET breaks a limit on its units (R345, R371). -/
def State.setBad (s : State) (c : Cmd) : Bool :=
  let us := c.setUnits
  let w := c.setWindow s
  us.any (fun u => c.unitMode u == 3 || decide (s.g6Cap < (u + 1) * 0x40000000)) || decide (4 < c.setTree.length) ||
    decide (s.g6Cap < (us.length + windowUnits us.length c.setTree.length) * 0x40000000) ||
    us.any fun u => decide (w.1 ≤ u) && decide (u < w.1 + w.2)

/-- Whether the units of a SET meet a region, or its window finds no entry (R333, R371). -/
def State.setTaken (s : State) (c : Cmd) : Bool :=
  let w := c.setWindow s
  (c.setUnits ++ (List.range w.2).map (w.1 + ·)).any (fun u => s.regionMeets (u * 0x40000000) 0x40000000) ||
    (w.2 != 0 && s.freeRegion.isNone)

/-- CRYPT_ENABLE (R365, R369-R372). -/
def cryptEnableBody (c : Cmd) (s : State) : State :=
  let op := c.f 0 1 0
  let set := op == 0
  let reinit := op == 2
  let off := (List.range 64).all fun u => s.unitMode u == 0
  let noKey := !s.rdb Reg.CRYPT.STAT.KEY || s.g6Cap == 0
  let bu := cryptBu c.setUnits.length c.setTree.length
  s.checked c
    [(badBits (c.w 0) [(1, 0)] || op == 3 || (set && s.setBad c) ||
        (reinit && c.reinitUnits.any fun u => s.unitMode u == 0 || s.unitMode u == 3), stBadParam, 0),
     ((set || reinit) && noKey, stState, 0),
     (set && !off, stState, 0),
     (!set && off, stState, 0),
     (!reinit && s.stepping, stState, 0),
     (s.crypt.job.isSome, stBusy, 0),
     (set && s.setTaken c, stTaken, 0),
     (set && decide (s.freeBu < bu), stBudget, 0)] fun s =>
    if set then s.cryptSet c
    else if reinit then
      { s with crypt := { s.crypt with refuse := c.reinitUnits, job := some (c.id, c.reinitUnits, false) } }.wr
        Reg.CRYPT.STAT.BUSY 1
    else s.flushCache.unprotect.ok c []

/-- CRYPT_ENABLE's command. -/
def cryptEnableCmd : Command := command 0x0601 cryptEnableLen cryptEnableBody

/-- CRYPT_ENABLE (R369). -/
def execCryptEnable (dt : Nat) (hdr : CmdHdr) (ws : List Word) (s : State) : Answer :=
  s.event dt fun s => s.issueCmd cryptEnableCmd hdr ws

/-- CRYPT_INIT_COMPLETE (R368, R370): the named units are initialised, CRYPT_READY is posted, the command replies. -/
def execCryptInitComplete (dt : Nat) (s : State) : Answer :=
  s.event dt fun s =>
    match s.crypt.job with
    | none => s
    | some j =>
      let s := (s.initUnits j.2.1).post 0x0601 sevInfo srcDevice
        (s.rd Reg.CRYPT.STAT.PROTECTED % 64 + s.rd Reg.CRYPT.STAT.TREE * 2 ^ 8 + s.rd Reg.CRYPT.STAT.META % 16 * 2 ^ 16)
      s.cryptJobEnds stOk

/-! ### CRYPT_STATUS -/

/-- A blocked-list entry as CRYPT_STATUS returns it (R369). -/
def Blocked.toWord (b : Blocked) : Word :=
  Machine.toWord (b.channel + b.level * 2 ^ 4 + b.node * 2 ^ 8 + b.firstUnit * 2 ^ 32 + b.lastUnit * 2 ^ 40)

/-- CRYPT_STATUS (R366, R369). -/
def cryptStatusBody (c : Cmd) (s : State) : State :=
  let p := c.f 0 0 0
  s.checked c [(c.reserved [[(0, 0), (8, 8)]], stBadParam, 0)] fun s =>
    let blocked := s.crypt.blocked.filter fun b => b.channel / 8 = p
    let mine := s.crypt.log.filter fun r => r.1 = p
    let regs := [Reg.CRYPT.STAT.KEY.addr, (Reg.CRYPT.UNITS.MODES 0).addr, (Reg.CRYPT.UNITS.MODES 1).addr,
      (Reg.CRYPT.LOGSTAT.ENTRIES p).addr].map s.readReg
    let words := regs ++ [Machine.toWord blocked.length] ++ blocked.map Blocked.toWord ++
      mine.flatMap fun r => [r.2.cryptWord0, Machine.toWord r.2.w1]
    let s := if c.b 0 8 then { s with crypt := { s.crypt with
        log := s.crypt.log.filter fun r => r.1 ≠ p
        frozen := s.crypt.frozen.filter fun q => q ≠ p } } else s
    s.ok c words

/-- CRYPT_STATUS's command. -/
def cryptStatusCmd : Command := command 0x0602 (exactly 1) cryptStatusBody

/-- CRYPT_STATUS (R369). -/
def execCryptStatus (dt : Nat) (hdr : CmdHdr) (ws : List Word) (s : State) : Answer :=
  s.event dt fun s => s.issueCmd cryptStatusCmd hdr ws

end Sys2Proof.Machine
end

