-- ==== Sys2Proof/Machine/Power.lean ====
section
/-! DEFINITION. Power states (R560-R568), the current ledger's commands (R569-R573, R582), heat (R574-R579): PWR_STATE and
its end, wake sources, the patrol sampler, current and temperature measurements, thermal trips. -/

namespace Sys2Proof.Machine

/-! ### What NAP and PATROL lose -/

/-- The blocks whose counters and logs NAP and PATROL clear (R561), by the number of their 64 KiB of BAR0. -/
def clearedBlocks : List Nat := [9, 10, 11, 12, 13, 16, 17, 18]

/-- Counters and logs of the blocks that R561 does not except are cleared. -/
def State.clearCounters (s : State) : State :=
  let mine := s.regs.filter fun kv => clearedBlocks.contains (kv.1 / 65536)
  let s := mine.foldl (fun s kv => (fieldsAt kv.1 .rc).foldl (fun s f => s.wr f 0) s) s
  { s with
    g6 := { s.g6 with log := [], frozen := [] }
    crypt := { s.crypt with log := [], frozen := [] } }

/-- A group sleeps for NAP (R563): its loop ends, its Reel link state goes, its transmitters' BU are set aside. -/
def State.napGroup (s : State) (g : Group) : State :=
  let tx := !s.rdb (Reg.LANE.STAT.TXSLEEP g.first)
  let rx := !s.rdb (Reg.LANE.STAT.RXSLEEP g.first)
  let s := match g.loop with
    | some (_, _, some id, _) => s.complete id stAborted 0 []
    | _ => s
  let s := s.discardLink g.first
  let s := if tx then s.setAside 0x11 (2 ^ g.wlog) else s
  let s := (s.laneSet Reg.LANE.STAT.TXSLEEP g.first g.wlog 1).laneSet Reg.LANE.STAT.RXSLEEP g.first g.wlog 1
  let s := s.laneSet Reg.LANE.STAT.STATE g.first g.wlog 3
  { s with pwr := { s.pwr with napSlept := s.pwr.napSlept ++ [(g.first, tx, rx)] } }

/-- The landings, and every copy of them, are lost. -/
def State.loseLandings (s : State) : State := { s with fab := { s.fab with landing := [], landingCopy := [] } }

/-- NAP is entered (R563, R571). -/
def State.enterNap (s : State) : State :=
  let s := s.flushCache
  let s := { s with
    crypt := { s.crypt with cache := [] }
    pwr := { s.pwr with napSlept := [] } }
  let s := (List.range 8).foldl State.selfRefresh s
  let s := s.groups.foldl State.napGroup s
  let s := (List.range 4).foldl (fun s t => s.ethLink t false) s
  let s := { s with pins := { s.pins with output := [], timed := [] } }
  let s := (s.setAside 0x09 (s.holds 0x09)).powerOff s.fab.powered
  let s := (s.setAside 0x07 (s.holds 0x07 / 8 * 7)).setAside 0x04 5
  s.loseLandings.clearCounters

/-- The engine after an exit from NAP (R561, R564): HALTED where a configuration is active, no step pending. -/
def State.napEngine (s : State) : State :=
  let s := if s.engine = seUnconfigured ∨ s.engine = seFault then s else s.wr Reg.STEP.STAT.STATE seHalted
  { s.wr Reg.STEP.STAT.PENDING 0 with step := { s.step with
    saved := none, closingOwed := false, aheadBad := false } }

/-- A group that NAP put to sleep wakes (R402, R564); its transmitters' BU are back already. -/
def State.napWakes (s : State) (x : Nat × Bool × Bool) : State :=
  match s.group x.1 with
  | none => s
  | some g =>
    let s := if x.2.1 then
        (s.laneSet Reg.LANE.STAT.TXSLEEP g.first g.wlog 0).setGroup { g with wakeUntil := some (s.now + 2 * fsUs) }
      else s
    let s := if x.2.2 then s.laneSet Reg.LANE.STAT.RXSLEEP g.first g.wlog 0 else s
    s.trainIfAwake g

/-- NAP is left (R564, R571): the BU set aside return first. -/
def State.leaveNap (s : State) : State :=
  let s := s.returnAside
  let s := (List.range 8).foldl (fun s k => s.leaveRefresh k true) s
  let s := s.powerOn (s.wingsOf s.ctxsInUse)
  let s := ((s.setHeld 0x09 s.fab.powered.length).loadActive s.nextCtx).wr Reg.CTX.MODE.ACTCTX s.nextCtx
  let s := s.loseLandings.napEngine
  let s := s.pwr.napSlept.foldl State.napWakes s
  { s with pwr := { s.pwr with napSlept := [] } }.refillAhead 7

/-- A register field at its reset value. -/
def State.resetField (s : State) (f : Field) : State := s.wr f (bits (regReset f.addr).toNat f.hi f.lo)

/-- The reservations of every initiator at their defaults (R299). -/
def State.resetQuotas (s : State) : State :=
  let s := { s with noc := { s.noc with blocks := [] } }
  let s := (List.range 1028).foldl (fun s i =>
    ((s.resetField (Reg.NOC.INI.TAGS.QUOTA i)).resetField (Reg.NOC.INI.TAGS.URG i)).resetField
      (Reg.NOC.INI.TAGS.RESERVE i)) s
  (s.setHeld 0x08 17).freeTagSync

/-- Every loop, multiplexer and spread setting at its default: ML9 to ML11 off. -/
def State.resetClocks (s : State) : State :=
  let s := (List.range 12).foldl (fun s d => (s.wr (Reg.CLK.DOM.SRC d) 0).wr (Reg.CLK.DOM.TARGET d) 0) s
  let s := (List.range 12).foldl (fun s d => (s.wr (Reg.CLK.DOM.SPREAD d) 0).wr (Reg.CLK.DOM.SYSREF d) 0) s
  let s := [9, 10, 11].foldl (fun s l => (s.wrBit Reg.CLK.STAT.LOCKED l false).wrBit Reg.CLK.STAT.COAST l false) s
  { (s.store Reg.CLK.SYSSPREAD.DEPTH.addr 0).setHeld 0x14 0 with
    clk := { s.clk with loopRef := [], freq := [], outDepth := [], outRate := [], pend := [] } }

/-- Every probe, the trace and every perturbation at the state of R608 and R613 before their first command. -/
def State.resetDebug (s : State) : State :=
  let s := s.unlockEnds
  let s := s.dbg.perts.foldl State.pertEnd s
  let s := s.releaseRegions .trace
  let owners := s.attic.owner.filter fun o => o.2 ≠ .trace
  let s := ((s.resetRegs 0x100000 0x110000).resetRegs 0x110000 0x120000).setHeld 0x13 0
  { s with
    attic := { s.attic with owner := owners }
    dbg := { s.dbg with taps := [], trace := none, perts := [], challenge := none }
    pins := { s.pins with probe := [] } }

/-- Every time lane off (R410). -/
def State.ethOff (s : State) : State :=
  let s := (List.range 4).foldl (fun s t => s.ethLink t false) s
  (s.resetRegs 0xA0000 0xB0000).setHeld 0x12 0

/-- What the attics hold is lost: contents, valid and poison bits, error tables (R561, R579). -/
def Attic.lost (m : Attic) : Attic :=
  { m with words := [], lineCrc := [], stale := [], held := [], waiting := [], checks := [], table := [], frozen := [],
           satPosted := [] }

/-- A reel is left without a command: it stays joined to none. -/
def State.dropReel (s : State) : State :=
  let s := { s with time := { s.time with reel := none } }
  (s.store Reg.TIME.REEL.REELID.addr 0).wr Reg.STEP.CTRL.MODE 0

/-- The settings of the step engine at their reset values. -/
def State.resetStep (s : State) : State :=
  let s := [Reg.STEP.CTRL.MODE, Reg.STEP.HANGLIM.LIMIT, Reg.STEP.SULIM.LIMIT].foldl State.resetField s
  let s := (s.store Reg.STEP.PACE.PERIOD.addr 0).store Reg.STEP.CARDPOS.POS0.addr 0
  { s with step := { s.step with strict := false } }

/-- What PATROL loses beside what NAP loses (R561, R563). -/
def State.loseSettings (s : State) : State :=
  let s := ((s.quotasEnd stAborted).mirrorOff.releaseRegions .state).resetDebug.resetStep.dropReel
  let s := (List.range 16).foldl State.releaseCue s
  let s := ((s.resetRegs 0x30000 0x30010).resetClocks.resetQuotas).ethOff
  let s := (List.range 8).foldl (fun s t => s.resetField (Reg.ATC.CTRL.SOR t)) s
  let s := ([Reg.NOC.AGING.STEP, Reg.NOC.TIMEOUT.LIMIT, Reg.PWR.LIMITS.VALUE, Reg.PWR.MULT.VALUE]).foldl State.resetField s
  let s := s.dropHallway hsReset
  let s := (List.range 8).foldl (fun s t => s.setRouters t false) s
  { s.wr Reg.DEV.READY.TOWER 0 with
    attic := s.attic.lost
    fab := { s.fab with trim := [], su := [], tuned := [], taps := [], poison := [], poisonRaise := [] }
    g6 := { s.g6 with images := [], pend := .plain, rt := [] }
    cfg := { s.cfg with scanAt := 0, repairs := [], brokenWc := [], toRepair := [] } }

/-- Every grant that a holder still has is set aside (R571). -/
def State.setAsideAll (s : State) : State := s.ledger.held.foldl (fun s h => s.setAside h.1 h.2) s

/-- PATROL is entered (R563): the configuration is deactivated, the order of NAP follows, the rest is switched off. -/
def State.enterPatrol (s : State) : State :=
  let s := s.deactivate.enterNap.loseSettings.setAsideAll
  { s with pwr := { s.pwr with entryAt := s.now, sampled := s.now } }

/-- The patrol timer's count of the time since it was last read, in units of 2^-32 ns: true to 2% (R565). -/
def State.carryTime (s : State) : State :=
  let d := s.drawWord
  let gone := (s.now - s.pwr.entryAt) * 2 ^ 32 / fsNs
  let u := gone * (980000 + d.1.toNat % 40001) / 1000000
  let s := d.2
  { s with
    pwr := { s.pwr with entryAt := s.now }
    time := { s.time with
      out := s.time.out + u
      domA := { s.time.domA with time := s.time.domA.time + u }
      domB := { s.time.domB with time := s.time.domB.time + u } } }

/-- A domain whose source is not the host acquires again after PATROL (R565). -/
def State.reacquire (s : State) (d : Nat) : State :=
  if s.domState d = dsOff ∨ s.rd (Reg.TIME.DOM.SOURCE d) = 1 then s
  else (s.wr (domStateF d) dsAcquiring).setDom d { s.dom d with good := 0, heardAt := s.now }

/-- PATROL is left (R565, R571). -/
def State.leavePatrol (s : State) : State :=
  let s := s.carryTime.returnAside
  let s := (s.reacquire 0).reacquire 1
  let s := s.groups.foldl (fun s g => s.laneOff g.first) s
  let s := (s.setHeld 0x11 0).setHeld 0x09 0
  let s := (List.range 8).foldl (fun s k => s.leaveRefresh k true) s
  { s with pwr := { s.pwr with napSlept := [] } }

/-! ### Changes of state -/

/-- The device leaves the state it is in. -/
def State.leaveState (s : State) : State :=
  if s.power = 1 then s.unHold
  else if s.power = 2 then s.leaveNap
  else if s.power = 3 then s.leavePatrol
  else s

/-- The device enters a state. -/
def State.enterState (s : State) (t : Nat) : State :=
  if t = 1 then (List.range 8).foldl State.selfRefresh { s with pwr := { s.pwr with domIdle := [] } }
  else if t = 2 then s.enterNap
  else if t = 3 then s.enterPatrol
  else s

/-- A change of state is made (R560, R562); an exit from NAP is complete once the refill ahead of the next step has acknowledged
(R121). -/
def State.stateReached (s : State) (t : Nat) (cmd : Option Nat) : State :=
  let nap := s.power = 2
  let s := s.leaveState.enterState t
  if nap ∧ !s.refilled 7 then { s with pwr := { s.pwr with napBack := true } } else s.stateShown t cmd

/-- POWER_STATE_REACHED (R560, R562, R565): the entry or exit under way completes; an exit from PATROL once every tower has
run its start-up. -/
def execPowerStateReached (dt : Nat) (s : State) : Answer :=
  s.event dt fun s =>
    match s.pwr.target with
    | none => s
    | some (t, cmd, _) => 
      s.whenever (!s.pwr.napBack && (s.power != 3 || (s.dev.startup.isEmpty && s.allReady))) fun s => s.stateReached t cmd

/-- Work that keeps the device out of NAP and PATROL (R562, R580), with a G6_INIT, a STATE_SAVE or RESTORE and a CTX_MODE or CTX_SELECT in
progress, which R562 does not name (DESIGN CHOICE, assumption 73). -/
def State.napBusy (s : State) : Bool :=
  s.loading || !s.attic.jobs.isEmpty || s.crypt.job.isSome || !s.clk.pend.isEmpty || s.g6.job.isSome || s.g6.save.isSome ||
    s.engineBusy

/-- PWR_STATE (R562, R566, R579, R582). -/
def pwrStateBody (c : Cmd) (s : State) : State :=
  let t := c.f 0 2 0
  let here := t == s.power && s.pwr.target.isNone
  let joins := match s.pwr.target with
    | some (u, none, _) => u == t
    | _ => false
  let cues := (List.range 16).any fun k => s.cueFunc k == fnStep || s.cueFunc k == fnFwact
  s.checked c
    [(c.reserved [[(2, 0)]] || decide (3 < t), stBadParam, 0),
     (s.tripped, stState, 0),
     (!here && t != 0 && s.stepping, stState, 0),
     (!here && t == 3 && cues, stState, 0),
     (s.pwr.target.isSome && !joins, stBusy, 0),
     (!here && decide (2 ≤ t) && s.napBusy, stBusy, 0)] fun s =>
    if here then s.ok c []
    else if joins then
      { s with pwr := { s.pwr with target := s.pwr.target.map fun (x : Nat × Option Nat × Nat) => (x.1, some c.id, x.2.2) } }
    else if 2 ≤ s.power ∧ t ≠ 3 then
      let s' := s.beginExit t (some c.id) (if c.path = .mailbox then 5 else 0)
      if c.path = .mailbox then s' else s'.wr Reg.PWR.STATE.LASTWAKE (s.rd Reg.PWR.STATE.LASTWAKE)
    else { s with pwr := { s.pwr with target := some (t, some c.id, s.now), wake := none } }.wr Reg.PWR.STATE.CHANGING 1

/-- PWR_STATE's command. -/
def pwrStateCmd : Command := command 0x0B01 (exactly 1) pwrStateBody

/-- PWR_STATE (R582). -/
def execPwrState (dt : Nat) (hdr : CmdHdr) (ws : List Word) (s : State) : Answer :=
  s.event dt fun s => s.issueCmd pwrStateCmd hdr ws

/-- WAKE_N_ASSERT (R566): WAKE_N has been low for 1 µs. -/
def execWakeNAssert (dt : Nat) (s : State) : Answer := s.event dt fun s => s.wakeLogic 3

/-- PCIE_WAKE_REQUEST (R566): a memory request or a message reaches the device; none does during PERST_N. -/
def execPcieWakeRequest (dt : Nat) (kind : PcieWake) (s : State) : Answer :=
  s.event dt fun s =>
    match kind with
    | .memoryRequest => s.whenever (!s.hif.perst) fun s => s.wakeLogic 1
    | .message => s.whenever (!s.hif.perst) fun s => s.wakeLogic 1

/-- HOLD_DOMAIN_IDLE (R567): a domain that woke in HOLD stops again after 1 ms without an access. -/
def execHoldDomainIdle (dt unit : Nat) (s : State) : Answer :=
  s.event dt fun s =>
    let due := s.pwr.domIdle.any fun d => d.1 = unit ∧ d.2 + fsMs ≤ s.now
    s.whenever (decide (s.power = 1) && due) fun s =>
      let s := { s with pwr := { s.pwr with domIdle := s.pwr.domIdle.filter fun d => d.1 ≠ unit } }
      if 8 ≤ unit then s.selfRefresh (unit - 8) else s

/-! ### The patrol sampler -/

/-- PATROL_ALARM (R568, R581). -/
def State.patrolAlarm (s : State) (q : Nat) (above : Bool) (value : Nat) : State :=
  s.post 0x0B05 sevWarn srcDevice (q + b2n above * 2 ^ 8 + value % 65536 * 2 ^ 16)

/-- The alarms that a sample raises: quantity, above HI, value. -/
def State.sampleAlarms (s : State) (values : List (Nat × Nat)) (alarms : Nat) : List (Nat × Bool × Nat) :=
  let limit := fun (v : Nat × Nat) =>
    match s.pwr.limits[v.1]? with
    | some (lo, hi, en) => en && (decide (v.2 < lo) || decide (hi < v.2))
    | none => false
  let high := fun (v : Nat × Nat) => decide (((s.pwr.limits.getD v.1 (0, 0, false)).2.1) < v.2)
  let pin := fun (i : Nat) => bit s.pwr.alarmEn i && bit alarms i == bit s.pwr.alarmHigh i
  ((values.filter limit).map fun v => (v.1, high v, v.2)) ++
    ((List.range 4).filter pin).map fun i => (8 + i, bit alarms i, b2n (bit alarms i))

/-- PATROL_SAMPLE (R568): the sampler reads its quantities every INTERVAL; an alarm wakes Keeper, and with ACTION the device. -/
def execPatrolSample (dt : Nat) (values : List (Nat × Nat)) (alarms : Nat) (s : State) : Answer :=
  s.event dt fun s =>
    let due := decide (s.pwr.sampled + s.pwr.interval * fsMs / 100 * 98 ≤ s.now)
    s.whenever (decide (s.power = 3) && s.pwr.target.isNone && due) fun s =>
      let s := { s with pwr := { s.pwr with sampled := s.now } }.wr Reg.IOB.CTLPINS.ALM_IN alarms
      let found := s.sampleAlarms values alarms
      if found.isEmpty then s
      else
        let s := found.foldl (fun s a => s.patrolAlarm a.1 a.2.1 a.2.2) s.carryTime
        if s.pwr.action then s.wakeLogic 4 else s

/-- PATROL_SETUP (R582). -/
def patrolSetupBody (c : Cmd) (s : State) : State :=
  let lims := (List.range 5).map fun i => (c.f (1 + i) 15 0, c.f (1 + i) 31 16, c.b (1 + i) 32)
  s.checked c
    [(c.reserved ([[(15, 0), (16, 16)]] ++ List.replicate 5 [(15, 0), (31, 16), (32, 32)] ++ [[(3, 0), (11, 8)]]) ||
        decide (c.f 0 15 0 < 1) || decide (60000 < c.f 0 15 0) || lims.any (fun l => decide (l.2.1 < l.1)), stBadParam, 0)]
    fun s =>
      { s with pwr := { s.pwr with
        interval := c.f 0 15 0, action := c.b 0 16, limits := lims, alarmEn := c.f 6 3 0, alarmHigh := c.f 6 11 8 } }.ok c []

/-- PATROL_SETUP's command. -/
def patrolSetupCmd : Command := command 0x0B05 (exactly 7) patrolSetupBody

/-- PATROL_SETUP (R582). -/
def execPatrolSetup (dt : Nat) (hdr : CmdHdr) (ws : List Word) (s : State) : Answer :=
  s.event dt fun s => s.issueCmd patrolSetupCmd hdr ws

/-! ### The ledger's commands -/

/-- The holders that BUDGET_QUERY reports, by code (R572). -/
def holderCodes : List Nat := (List.range 22).map (1 + ·)

/-- The grants that a holder holds (R582 does not say what makes one): one for each wing, direction, time lane, loop, tower of a job, job
or group that R572 charges apart, else one where it holds any BU (DESIGN CHOICE, assumption 85). -/
def State.grantsOf (s : State) (h : Nat) : Nat :=
  let n := s.holds h
  if h = 0x09 ∨ h = 0x14 then n
  else if h = 0x0B ∨ h = 0x12 then n / 2
  else if h = 0x0C then n / 4
  else if h = 0x0E then b2n s.cfg.stream.isSome + s.cfg.jobs.length
  else if h = 0x11 then s.groups.length
  else b2n (n != 0)

/-- The BU that BUDGET_QUERY reports for a holder. -/
def State.heldOf (s : State) (h : Nat) : Nat :=
  if h = 0x15 then s.ledger.pool
  else if h = 0x16 then s.ledger.setAside - s.ledger.pool
  else s.holds h

/-- BUDGET_QUERY (R570, R572, R582). -/
def budgetQueryBody (c : Cmd) (s : State) : State :=
  s.checked c [] fun s =>
    let row := fun (h : Nat) =>
      let g := if h = 0x15 ∨ h = 0x16 then b2n (s.heldOf h != 0) else s.grantsOf h
      toWord (s.heldOf h % 2 ^ 11 + h * 2 ^ 16 + g % 65536 * 2 ^ 32)
    s.ok c (s.readReg Reg.PWR.LEDGER.CAP.addr :: holderCodes.map row)

/-- BUDGET_QUERY's command. -/
def budgetQueryCmd : Command := command 0x0B02 (exactly 0) budgetQueryBody

/-- BUDGET_QUERY (R582). -/
def execBudgetQuery (dt : Nat) (hdr : CmdHdr) (ws : List Word) (s : State) : Answer :=
  s.event dt fun s => s.issueCmd budgetQueryCmd hdr ws

/-- BUDGET_REQUEST (R569, R570, R580, R582): towers that wait for test grants take what it frees (R39). -/
def budgetRequestBody (c : Cmd) (s : State) : State :=
  let op := c.f 0 1 0
  let n := c.f 0 26 16
  let pool := s.ledger.pool
  s.checked c
    [(c.reserved [[(1, 0), (26, 16)]] || op == 3 || (op == 1 && decide (pool < n)) ||
        (op == 2 && (decide (n < 400) || decide (1600 < n))), stBadParam, 0),
     ((op == 0 && decide (s.freeBu < n)) || (op == 2 && decide (n < s.ledger.granted + s.ledger.setAside)), stBudget, 0)]
    fun s =>
      let s := if op = 2 then s.wr Reg.PWR.LEDGER.CAP n
        else { s with ledger := { s.ledger with pool := if op = 0 then pool + n else pool - n } }
      s.admitTowers.ok c []

/-- BUDGET_REQUEST's command. -/
def budgetRequestCmd : Command := command 0x0B03 (exactly 1) budgetRequestBody

/-- BUDGET_REQUEST (R582). -/
def execBudgetRequest (dt : Nat) (hdr : CmdHdr) (ws : List Word) (s : State) : Answer :=
  s.event dt fun s => s.issueCmd budgetRequestCmd hdr ws

/-! ### Core current -/

/-- The launch interval in force, in 0.125 ns (R79, R92). -/
def State.launchInterval (s : State) : Nat :=
  max (s.rd Reg.STEP.PACING.MININT)
    (ceilDiv (s.intervalOf (s.rd Reg.STEP.CTRL.MODE) s.ctxMode (s.rd Reg.STEP.PACE.PERIOD) s.ctxsInUse) fsTick)

/-- An overdraw begins (R573). -/
def State.overdraws (s : State) (tenths : Nat) : State :=
  let s := { s with
    step := { s.step with overdraw := 2 * s.launchInterval }
    pwr := { s.pwr with overCnt := 0, belowSince := none } }
  let s := (s.count Reg.PWR.CURRENT.OVERDRAWS 1).postLimited 0x0B06 0 sevWarn srcDevice (min tenths 65535)
  let s := (s.pacingSync).post 0x0105 sevWarn srcDevice (min s.budgetInterval (2 ^ 24 - 1))
  { s with step := { s.step with run := s.step.run.map fun (r : Run) => { r with pacedPosted := true } } }

/-- CURRENT_MEASUREMENT (R573): every 10 µs; three in a row more than 5% above the cap begin an overdraw, 1 ms below the cap
ends it. -/
def execCurrentMeasurement (dt tenthsOfAmp : Nat) (s : State) : Answer :=
  s.event dt fun s =>
    s.whenever (s.power != 3) fun s => s.periodic 2 (10 * fsUs) fun s =>
      let s := (s.wr Reg.PWR.CURRENT.NOW (min tenthsOfAmp 65535)).raise Reg.PWR.CURRENT.PEAK tenthsOfAmp
      let past := decide (s.cap * 105 < tenthsOfAmp * 80)
      let below := decide (tenthsOfAmp * 4 < s.cap * 5)
      let n := if past then s.pwr.overCnt + 1 else 0
      let since := if below then some (s.pwr.belowSince.getD s.now) else none
      let s := { s with pwr := { s.pwr with overCnt := n, belowSince := since } }
      if s.step.overdraw = 0 then (if 3 ≤ n then s.overdraws tenthsOfAmp else s)
      else if since.any fun t => decide (t + fsMs ≤ s.now) then
        { s with step := { s.step with overdraw := 0 } }.pacingSync
      else s

/-! ### Heat -/

/-- The level that a temperature gives a layer that was at level `prev` (R575); its thresholds begin at bit `base` of
THERMAL_LIMITS word 0. -/
def heatLevel (lims base prev temp : Nat) : Nat :=
  let t := fun (k : Nat) => bits lims (base + 8 * (k - 1) + 7) (base + 8 * (k - 1))
  let on := fun (k : Nat) => decide (t k ≤ temp) || (decide (k ≤ prev) && decide (t k < temp + bits lims 51 48))
  if on 3 then 3 else if on 2 then 2 else if on 1 then 1 else 0

/-- The level that a floor at level `f` gives its tower (R576). -/
def floorShare (f : Nat) : Nat := if f = 3 then 2 else 0

/-- The levels of a tower follow its temperatures (R575-R577); THROTTLE is posted at each change of the step level. -/
def State.towerHeat (s : State) (t : Nat) : State :=
  let lims := s.rd Reg.PWR.LIMITS.VALUE
  let cel := s.rd (Reg.PWR.TEMP.CELLAR t)
  let flr := s.rd (Reg.PWR.TEMP.FLOOR t)
  let c := heatLevel lims 0 (s.pwr.cellarLvl.at 0 t) cel
  let f := heatLevel lims 24 (s.pwr.floorLvl.at 0 t) flr
  let moved := s.pwr.cellarLvl.at 0 t = c
  let old := s.rd (Reg.PWR.TEMP.STEPLVL t)
  let new := max c (floorShare f)
  let s := { s with pwr := { s.pwr with cellarLvl := s.pwr.cellarLvl.upd 0 t c, floorLvl := s.pwr.floorLvl.upd 0 t f } }
  let s := (s.wr (Reg.PWR.TEMP.STEPLVL t) new).wr (Reg.PWR.TEMP.MAINTLVL t) (min f 2)
  if new = old then s
  else (s.count (Reg.PWR.TEMP.CHANGES t) 1).post 0x0B02 sevWarn t
    (t + b2n (decide moved) * 2 ^ 8 + new * 2 ^ 10 + (if moved then flr else cel) * 2 ^ 16)

/-- Every tower's levels, and the thermal interval that follows from them (R576). -/
def State.heatSync (s : State) : State := ((List.range 8).foldl State.towerHeat s).pacingSync

/-- A layer or porch enters or leaves 100 °C (R578): `key` is `8 * layer + tower`, or 24 + porch. -/
def State.highHeat (s : State) (key src layer temp : Nat) : State :=
  if temp < 100 then { s with pwr := { s.pwr with high := s.pwr.high.filter fun k => k ≠ key } }
  else if s.pwr.high.contains key then s
  else { s with pwr := { s.pwr with high := key :: s.pwr.high } }.post 0x0B03 sevWarn src
    (src + layer * 2 ^ 4 + temp % 256 * 2 ^ 16)

/-- Whether Keeper may start a flash write: not while HOLDUP_N is low (R656). -/
def State.flashOk (s : State) : Bool := s.rdb Reg.IOB.CTLPINS.HOLDUP_N

/-- The settings store of the running slot changed (R640). -/
def State.updStore (s : State) (f : Store → Store) : State :=
  let k := s.rd Reg.DEV.BOOT.SLOT
  if s.flashOk then { s with fw := { s.fw with stores := s.fw.stores.set k (f (s.fw.stores.getD k .empty)) } } else s

/-- Count a thermal trip in the settings store of the running slot (R640). -/
def State.countTrip (s : State) : State := s.updStore fun st => { st with trips := st.trips + 1 }

/-- A thermal trip (R579, R580): supplies off, THERMTRIP_N low, the configuration deactivated, TRIPPED; what was in
progress on the supplies ends. -/
def State.trip (s : State) (src layer temp : Nat) : State :=
  let s := s.powerOff s.fab.powered
  let s := (s.setHeld 0x09 0).setHeld 0x07 0
  let s := { s with
    ledger := { s.ledger with aside := (s.ledger.aside.upd 0 0x09 0).upd 0 0x07 0 }
    attic := s.attic.lost
    pwr := { s.pwr with tripLow := true } }
  let s := (s.maintAborts (List.range 8)).streamFails 17 0
  let s := match s.cfg.staging with
    | some st => s.stageFails st stAborted
    | none => s
  let s := (s.endJobsOf (fun _ => true) stAborted 0).deactivate
  let s := (s.post 0x0B04 sevFatal src (src + layer * 2 ^ 4 + temp % 256 * 2 ^ 16)).wr Reg.PWR.STATE.TRIPPED 1
  let s := s.countTrip
  match s.pwr.target with
  | some (_, cmd, _) =>
    let s := { s with pwr := { s.pwr with target := none, wake := none, napBack := false } }.wr Reg.PWR.STATE.CHANGING 0
    match cmd with
    | some id => s.complete id stAborted 0 []
    | none => s
  | none => s

/-- The highest of `n` readings from place `i` on. -/
def hottest (l : List Nat) (i n : Nat) : Nat := maxList ((List.range n).map fun j => min (l.getD (i + j) 0) 255)

/-- The place of a sensor among all: layer, place within its layer. -/
def sensorKey (layer i : Nat) : Nat := layer * 128 + i

/-- The sensors at 110 °C or more, with their readings (R579). -/
def hotSensors (layers : List (List Nat)) : List (Nat × Nat) :=
  layers.zipIdx.flatMap fun l => (l.1.zipIdx.filter fun x => decide (110 ≤ x.1)).map fun x => (sensorKey l.2 x.2, x.1)

/-- The source and layer of a sensor in THERMAL_TRIP (R581). -/
def sensorPlace (key : Nat) : Nat × Nat :=
  if key < 384 then (key % 128 / 16, key / 128) else (srcPn + key % 128 / 4, 0)

/-- THERMAL_SENSOR_READ (R574-R579): every sensor is read; the lists hold 128 readings of each layer, 16 for each tower,
and 8 of the porches, 4 for each. -/
def execThermalSensorRead (dt : Nat) (cellar floor attic porch : List Nat) (s : State) : Answer :=
  s.event dt fun s =>
    s.whenever (s.power != 3) fun s => s.periodic 3 (100 * fsUs) fun s =>
      let show1 := fun (s : State) (t : Nat) =>
        ((s.wr (Reg.PWR.TEMP.CELLAR t) (hottest cellar (16 * t) 16)).wr (Reg.PWR.TEMP.FLOOR t)
          (hottest floor (16 * t) 16)).wr (Reg.PWR.TEMP.ATTIC t) (hottest attic (16 * t) 16)
      let high := fun (s : State) (t : Nat) =>
        ((s.highHeat t t 0 (hottest cellar (16 * t) 16)).highHeat (8 + t) t 1 (hottest floor (16 * t) 16)).highHeat (16 + t) t 2
          (hottest attic (16 * t) 16)
      let s := (List.range 8).foldl show1 s
      let s := (s.wr Reg.PWR.PORCHTEMP.PN (hottest porch 0 4)).wr Reg.PWR.PORCHTEMP.PS (hottest porch 4 4)
      let s := (List.range 8).foldl high s.heatSync
      let s := (s.highHeat 24 srcPn 0 (hottest porch 0 4)).highHeat 25 srcPs 0 (hottest porch 4 4)
      let hot := hotSensors [cellar.take 128, floor.take 128, attic.take 128, porch.take 8]
      let twice := hot.find? fun h => s.pwr.hot.contains h.1
      let s := { s with pwr := { s.pwr with hot := hot.map Prod.fst } }
      match twice with
      | some h => if s.tripped then s else s.trip (sensorPlace h.1).1 (sensorPlace h.1).2 (min h.2 255)
      | none => s

/-- THERMAL_LIMITS (R575, R582): the levels follow at once. -/
def thermalLimitsBody (c : Cmd) (s : State) : State :=
  let t := fun (i : Nat) => c.f 0 (8 * i + 7) (8 * i)
  let m := fun (i : Nat) => c.f 1 (8 * i + 7) (8 * i)
  let bad := (List.range 6).any (fun i => decide (t i < 60) || decide (105 < t i)) || decide (t 1 ≤ t 0) ||
    decide (t 2 ≤ t 1) || decide (t 4 ≤ t 3) || decide (t 5 ≤ t 4) || decide (c.f 0 51 48 < 1) ||
    decide (10 < c.f 0 51 48) || (List.range 3).any (fun i => decide (m i < 8)) || decide (m 1 < m 0) || decide (m 2 < m 1)
  s.checked c [(c.reserved [[(51, 0)], [(23, 0)]] || bad, stBadParam, 0)] fun s =>
    (((s.wr Reg.PWR.LIMITS.VALUE (c.w 0)).wr Reg.PWR.MULT.VALUE (c.w 1)).heatSync).ok c []

/-- THERMAL_LIMITS's command. -/
def thermalLimitsCmd : Command := command 0x0B04 (exactly 2) thermalLimitsBody

/-- THERMAL_LIMITS (R582). -/
def execThermalLimits (dt : Nat) (hdr : CmdHdr) (ws : List Word) (s : State) : Answer :=
  s.event dt fun s => s.issueCmd thermalLimitsCmd hdr ws

end Sys2Proof.Machine
end

