-- ==== Sys2Proof/Machine/Firmware.lean ====
section
/-! DEFINITION. The firmware flash and its update (R629-R646): the boot record, packages, staging, activation at a cue,
the restart of Keeper, the first start of a new image and its confirmation. -/

namespace Sys2Proof.Machine

/-! ### The flash -/

/-- The areas of the flash (R629): offset and size of the two boot record copies, the two settings stores and the two slots. -/
def flashAreas : List (Nat × Nat) :=
  [(0x0000000, 0x10000), (0x0010000, 0x10000), (0x0100000, 0x10000), (0x0110000, 0x10000), (0x0200000, 0x800000),
    (0x0A00000, 0x800000)]

/-- The 16 bytes of a boot record copy (R630). -/
def BootRec.bytes (r : BootRec) : List Byte :=
  let head : List Byte := [0x43, 0x46, 0x42, 0x52] ++ ((List.range 4).map fun i => BitVec.ofNat 8 (r.seq / 256 ^ i)) ++
    [BitVec.ofNat 8 r.slot, BitVec.ofNat 8 r.prev, BitVec.ofNat 8 r.state, 0]
  head ++ (List.range 4).map fun i => BitVec.ofNat 8 (crc32c head / 256 ^ i)

/-- The valid boot record copy with the higher SEQ (R630): its copy number and its contents. -/
def Fw.boots (f : Fw) : Option (Nat × BootRec) :=
  match f.boot.getD 0 none, f.boot.getD 1 none with
  | some a, some b => if a.seq < b.seq then some (1, b) else some (0, a)
  | some a, none => some (0, a)
  | none, some b => some (1, b)
  | none, none => none

/-- The slot that an update writes (R635, R637): the inactive one; under the ROM image the one that the valid boot record does
not name, or slot A. -/
def State.fwTarget (s : State) : Nat :=
  if s.rdb Reg.DEV.BOOT.IMAGE then 1 - s.rd Reg.DEV.BOOT.SLOT
  else match s.fw.boots with
    | some r => 1 - r.2.slot
    | none => 0

/-- The image in a slot. -/
def State.slotImg (s : State) (k : Nat) : Option SlotImg := s.fw.slots.getD k none

/-- Whether a slot is STAGED. -/
def State.slotStaged (s : State) (k : Nat) : Bool := (s.slotImg k).any SlotImg.staged

/-- The fields of `FWU.STAT` that follow the flash (R646). -/
def State.fwSync (s : State) : State :=
  let stage := if s.fw.stage.isSome then 1 else if s.slotStaged s.fwTarget then 2 else 0
  let s := s.wr Reg.FWU.STAT.STAGE stage
  s.wr Reg.FWU.STAT.BOOTSTATE ((s.fw.boots.map fun r => r.2.state).getD 0)

/-- The boot record written to the older copy, with SEQ one above the newer (R630), unless HOLDUP_N keeps Keeper from
writing (R656). -/
def State.writeBoot (s : State) (slot prev state : Nat) : State :=
  if !s.flashOk then s
  else
    let place := match s.fw.boots with
      | some r => (1 - r.1, r.2.seq + 1)
      | none => (0, 1)
    let b : BootRec := { seq := place.2, slot := slot, prev := prev, state := state }
    { s with fw := { s.fw with boot := s.fw.boot.set place.1 (some b) } }.fwSync

/-- A slot's image, or `none` where the slot is invalid. -/
def State.setSlot (s : State) (k : Nat) (g : Option SlotImg) : State :=
  { s with fw := { s.fw with slots := s.fw.slots.set k g } }

/-- VERSION of an image (R632). -/
def imageVersion (bs : List Byte) : Nat := byteField bs 0 4

/-- SECVER of an image (R632). -/
def imageSecver (bs : List Byte) : Nat := byteField bs 4 1

/-- SETVER of an image (R632). -/
def imageSetver (bs : List Byte) : Nat := byteField bs 6 2

/-- Whether an image's signature verifies: over all of it but the 96 bytes that end it (R632). -/
def imageSigned (bs : List Byte) : Bool :=
  Config.ecdsaVerify Config.firmwareKey (Config.sha384 (bs.take (bs.length - 96))) (bs.drop (bs.length - 96))

/-- Whether the ROM loads a slot (R632). -/
def State.slotLoads (s : State) (k : Nat) : Bool :=
  (s.slotImg k).any fun g => imageSigned g.bytes && decide (s.fw.floor ≤ imageSecver g.bytes)

/-! ### Packages -/

/-- Whether a package header breaks R633. -/
def badPackage (h : List Byte) : Bool :=
  slice h 0 4 != [0x43, 0x46, 0x46, 0x44] || byteField h 4 2 != 1 || decide (1 < byteField h 6 2) ||
    byteField h 8 4 % 8 != 0 || decide (8 * 2 ^ 20 < byteField h 8 4) || byteField h 12 4 % 8 != 0 ||
    (byteField h 6 2 == 1 && !allZero (slice h 16 48)) || !allZero (slice h 112 12) || byteField h 124 4 != crc32c (h.take 124)

/-- Whether a digest field of a package holds a digest, in the byte order of its standard. -/
def digestIs (field : List Byte) (d : BitVec 384) : Bool := beNat field == d.toNat

/-- The image that a DELTA body builds, record by record, and whether a record fails the staging (R634).  A record is taken
when all of it has arrived. -/
def deltaBuild (base : List Byte) (target : Nat) : Nat → List Byte → List Byte → List Byte × Bool
  | 0, _, built => (built, false)
  | n + 1, body, built =>
    let w := byteField body 0 8
    let len := bits w 31 0
    let op := bits w 33 32
    let padded := ceilDiv len 8 * 8
    if body.length < 8 then (built, false)
    else if 1 < op ∨ target < built.length + len then (built, true)
    else if op = 0 then
      if body.length < 16 then (built, false)
      else if base.length < byteField body 8 8 + len then (built, true)
      else deltaBuild base target n (body.drop 16) (built ++ slice base (byteField body 8 8) len)
    else if body.length < 8 + padded then (built, false)
    else deltaBuild base target n (body.drop (8 + padded)) (built ++ slice body 8 len)

/-- The image that a body builds, and whether it fails the staging (R634). -/
def FwStage.build (g : FwStage) (base body : List Byte) : List Byte × Bool :=
  if g.full then (body, decide (g.targetLen < body.length)) else deltaBuild base g.targetLen (body.length + 1) body []

/-! ### Refusals -/

/-- Whether the board supply is good (R636). -/
def State.supplyGood (s : State) : Bool := s.rdb Reg.IOB.CTLPINS.HOLDUP_N && s.rdb Reg.IOB.CTLPINS.PGOOD_IN

/-- The refusal of the owner lock's NOFW (R520, R636). -/
def State.lockedFw (s : State) : Bool × Nat × Nat := (s.lockPolicy 2, stLock, 0)

/-- The refusal of a bad board supply (R636). -/
def State.supplyBad (s : State) : Bool × Nat × Nat := (!s.supplyGood, stState, 2)

/-! ### Staging -/

/-- FW_STAGE_BEGIN (R635-R637). -/
def fwStageBeginBody (c : Cmd) (s : State) : State :=
  let h := wordBytes c.payload
  let k := s.fwTarget
  let rom := !s.rdb Reg.DEV.BOOT.IMAGE
  let full := byteField h 6 2 == 1
  let baseIs := (s.slotImg (s.rd Reg.DEV.BOOT.SLOT)).any fun g => digestIs (slice h 16 48) (Config.sha384 g.bytes)
  s.checked c
    [s.lockedFw,
     (badPackage h || (rom && !full), stBadParam, 0),
     (!full && !baseIs, stBadParam, 1),
     (s.stepping, stState, 1),
     s.supplyBad,
     (s.fw.stage.isSome, stState, 3)] fun s =>
    let g : FwStage := { full := full, targetLen := byteField h 8 4, bodyLen := byteField h 12 4,
                         digest := BitVec.ofNat 384 (beNat (slice h 64 48)), body := [], built := [] }
    let s := s.setSlot k none
    { s with fw := { s.fw with stores := s.fw.stores.set k .empty, stage := some g } }.fwSync.ok c []

/-- FW_STAGE_BEGIN's command. -/
def fwStageBeginCmd : Command := { op := 0x0C02, len := exactly 16, svcOnly := true, inRom := true, body := fwStageBeginBody }

/-- FW_STAGE_BEGIN (R635). -/
def execFwStageBegin (dt : Nat) (hdr : CmdHdr) (ws : List Word) (s : State) : Answer :=
  s.event dt fun s => s.issueCmd fwStageBeginCmd hdr ws

/-- A staging fails (R635): the slot stays invalid and FW_STAGE_FAILED is posted. -/
def State.fwFails (s : State) (c : Cmd) (status detail : Nat) : State :=
  let s := { s with fw := { s.fw with stage := none } }.fwSync
  (s.post 0x0C02 sevWarn srcDevice (status + detail % 256 * 2 ^ 8)).answer c status detail []

/-- FW_STAGE_DATA (R634-R636, R644). -/
def fwStageDataBody (c : Cmd) (s : State) : State :=
  let outOfOrder := s.fw.stage.any fun g =>
    c.f 0 31 0 != g.body.length || decide (g.bodyLen < g.body.length + 8 * (c.payload.length - 1))
  s.checked c
    [s.lockedFw,
     (badBits (c.w 0) [(31, 0)] || outOfOrder, stBadParam, 0),
     s.supplyBad,
     (s.fw.stage.isNone, stState, 3)] fun s =>
    match s.fw.stage with
    | none => s
    | some g =>
      let base := ((s.slotImg (s.rd Reg.DEV.BOOT.SLOT)).map SlotImg.bytes).getD []
      let body := g.body ++ wordBytes (c.payload.drop 1)
      let r := g.build base body
      if r.2 then s.fwFails c stBadParam 0
      else { s with fw := { s.fw with stage := some { g with body := body, built := r.1 } } }.ok c []

/-- FW_STAGE_DATA's command. -/
def fwStageDataCmd : Command :=
  { op := 0x0C03, len := fun ws => decide (2 ≤ ws.length) && decide (ws.length ≤ 8192), svcOnly := true, inRom := true,
    body := fwStageDataBody }

/-- FW_STAGE_DATA (R635). -/
def execFwStageData (dt : Nat) (hdr : CmdHdr) (ws : List Word) (s : State) : Answer :=
  s.event dt fun s => s.issueCmd fwStageDataCmd hdr ws

/-- FW_STAGE_END (R635, R636). -/
def fwStageEndBody (c : Cmd) (s : State) : State :=
  s.checked c [s.lockedFw, s.supplyBad, (s.fw.stage.isNone, stState, 3)] fun s =>
    match s.fw.stage with
    | none => s
    | some g =>
      if g.body.length < g.bodyLen ∨ g.built.length < g.targetLen then s.fwFails c stTruncated 0
      else if Config.sha384 g.built ≠ g.digest then s.fwFails c stAuth 2
      else if !imageSigned g.built then s.fwFails c stAuth 3
      else if imageSecver g.built < s.fw.floor then s.fwFails c stAuth 4
      else
        let k := s.fwTarget
        let s := s.setSlot k (some { bytes := g.built, staged := true })
        let s := { s with fw := { s.fw with stage := none } }.fwSync
        (s.post 0x0C01 sevInfo srcDevice (k + imageVersion g.built * 2 ^ 32)).ok c []

/-- FW_STAGE_END's command. -/
def fwStageEndCmd : Command := { op := 0x0C04, len := exactly 0, svcOnly := true, inRom := true, body := fwStageEndBody }

/-- FW_STAGE_END (R635). -/
def execFwStageEnd (dt : Nat) (hdr : CmdHdr) (ws : List Word) (s : State) : Answer :=
  s.event dt fun s => s.issueCmd fwStageEndCmd hdr ws

/-! ### Activation -/

/-- FW_ACTIVATE_AT (R464, R636-R638): the ROM image ignores the time and the cue. -/
def fwActivateAtBody (c : Cmd) (s : State) : State :=
  let rom := !s.rdb Reg.DEV.BOOT.IMAGE
  let u := timeUnits (c.w 0) (c.w 1)
  let k := c.f 2 3 0
  let outside := decide (u * 65536 < s.time.out + 10000000 * 2 ^ 32) || decide (s.time.out + 1000 * unitsPerSec < u * 65536)
  s.checked c
    [s.lockedFw,
     (c.reserved [[(47, 0)], [(47, 0)], [(3, 0)]] || (!rom && (timeBad (c.w 0) || outside)), stBadParam, 0),
     (s.stepping, stState, 1),
     s.supplyBad,
     (!s.slotStaged s.fwTarget, stState, 4),
     (s.fw.pending.isSome || s.fw.restart.isSome, stBusy, 0),
     (!rom && !s.cueFree k fnFwact, stTaken, 0)] fun s =>
    if rom then { s with fw := { s.fw with restart := some (s.now + 10 * fsMs) } }.ok c []
    else ({ s with fw := { s.fw with pending := some k } }.claimCue k fnFwact |>.armCue k u 0).ok c []

/-- FW_ACTIVATE_AT's command. -/
def fwActivateAtCmd : Command := { op := 0x0C05, len := exactly 3, svcOnly := true, inRom := true, body := fwActivateAtBody }

/-- FW_ACTIVATE_AT (R638). -/
def execFwActivateAt (dt : Nat) (hdr : CmdHdr) (ws : List Word) (s : State) : Answer :=
  s.event dt fun s => s.issueCmd fwActivateAtCmd hdr ws

/-- The cue of a pending activation is released (R639). -/
def State.fwRelease (s : State) : State :=
  match s.fw.pending with
  | none => s
  | some k => { s with fw := { s.fw with pending := none } }.releaseCue k

/-- FW_CANCEL (R642, R644). -/
def fwCancelBody (c : Cmd) (s : State) : State :=
  let active := s.fw.pending.isSome || s.fw.restart.isSome
  s.checked c
    [(c.reserved [[(0, 0)]], stBadParam, 0),
     (if c.b 0 0 then !active else s.fw.stage.isNone, stState, 0)] fun s =>
    if c.b 0 0 then { s.fwRelease with fw := { s.fwRelease.fw with restart := none } }.ok c []
    else { s with fw := { s.fw with stage := none } }.fwSync.ok c []

/-- FW_CANCEL's command. -/
def fwCancelCmd : Command := { op := 0x0C06, len := exactly 1, svcOnly := true, inRom := true, body := fwCancelBody }

/-- FW_CANCEL (R642). -/
def execFwCancel (dt : Nat) (hdr : CmdHdr) (ws : List Word) (s : State) : Answer :=
  s.event dt fun s => s.issueCmd fwCancelCmd hdr ws

/-- The rows of R636 that skip an activation at its cue match, by their DETAIL. -/
def State.fwSkips (s : State) : Option Nat :=
  if s.lockPolicy 2 then some 0
  else if s.stepping then some 1
  else if !s.supplyGood then some 2
  else if !s.slotStaged s.fwTarget then some 4
  else none

/-- The match of a FWACT cue (R639 steps 1 and 2): the activation is skipped, or Keeper stops fetching and starts nothing
more. -/
def State.fwMatch (s : State) : State :=
  match s.fwSkips with
  | some row => s.fwRelease.post 0x0C03 sevWarn srcDevice row
  | none => { s with fw := { s.fw with restart := some s.now } }

/-- Every command in progress ends with ABORTED. -/
def State.abortCommands (s : State) : State :=
  s.hif.running.foldl (fun s c => s.complete c.id stAborted 0 []) { s with step := { s.step with haltCmds := [] } }

/-- FW_RESTART (R639 steps 2 to 4): once the commands in progress have ended, or 100 ms after the match, Keeper writes the TRIAL
boot record and restarts from ROM. -/
def execFwRestart (dt : Nat) (s : State) : Answer :=
  s.event dt fun s =>
    match s.fw.restart with
    | none => s
    | some t => s.whenever (decide (t ≤ s.now) && (s.hif.running.isEmpty || decide (t + 100 * fsMs ≤ s.now))) fun s =>
      let image := s.rdb Reg.DEV.BOOT.IMAGE
      let k := s.fwTarget
      let s := s.abortCommands.fwRelease
      match s.slotImg k with
      | none => { s with fw := { s.fw with restart := none } }
      | some g =>
        let s := s.writeBoot k (if image then s.rd Reg.DEV.BOOT.SLOT else k) 1
        let s := s.setSlot k (some { g with staged := false })
        { s with
          hif := { s.hif with holding := image }
          fw := { s.fw with restart := none, romAt := some s.now, trialFrom := some t,
                            routersBefore := s.rd Reg.NOC.STAT.INSERVICE } }.fwSync

/-! ### The first start -/

/-- FW_FIRST_START (R640): the new image takes over the settings of the slot that it replaced, or starts an empty store; the
update joins the history. -/
def execFwFirstStart (dt : Nat) (storeCrcOk : Bool) (s : State) : Answer :=
  s.event dt fun s =>
    s.whenever (s.fw.firstStart && s.fw.romAt.isNone && s.rdb Reg.DEV.BOOT.IMAGE) fun s =>
      let k := s.rd Reg.DEV.BOOT.SLOT
      let own := imageSetver (((s.slotImg k).map SlotImg.bytes).getD [])
      let prev := (s.fw.boots.map fun r => r.2.prev).getD k
      let old := s.fw.stores.getD prev .empty
      let crcOk := storeCrcOk && prev != k
      let found := if crcOk then (old.setver, s) else (s.drawWord.1.toNat % 2 ^ 16, s.drawWord.2)
      let s := found.2
      let reset := !crcOk || decide (own < old.setver)
      let s := if reset then s.post 0x0C06 sevWarn srcDevice found.1 else s
      let a := s.drawWord
      let b := a.2.drawWord
      let base := if reset then Store.empty else old
      let hist := base.history ++ [(a.1, b.1)]
      let st : Store := { base with
        setver := own
        history := hist.drop (hist.length - 16)
        starts := base.starts + 1 }
      let s := { b.2 with fw := { b.2.fw with firstStart := false } }
      s.updStore fun _ => st

/-- What the new image checks before it confirms itself (R641): settings migrated, every tower's cellar responding, every router in
service that was before the restart, the ledger's grants those of their holders, and the endpoint not held in reset. -/
def State.selfChecks (s : State) : Bool :=
  !s.fw.firstStart && s.rd Reg.DEV.READY.TOWER == 255 &&
    Nat.land s.fw.routersBefore (s.rd Reg.NOC.STAT.INSERVICE) == s.fw.routersBefore &&
    s.holds 0x09 == s.fab.powered.length && decide (s.ledger.granted + s.ledger.setAside ≤ s.cap) && !s.hif.perst

/-- FW_SELF_CHECK_PASS (R641): the new image confirms itself within 30 s of the match. -/
def execFwSelfCheckPass (dt : Nat) (s : State) : Answer :=
  s.event dt fun s =>
    let inTime := s.fw.trialFrom.any fun t => decide (s.now < t + 30000 * fsMs)
    s.whenever (inTime && s.selfChecks && s.fw.romAt.isNone && s.rdb Reg.DEV.BOOT.IMAGE && s.flashOk) fun s =>
      let k := s.rd Reg.DEV.BOOT.SLOT
      let img := ((s.slotImg k).map SlotImg.bytes).getD []
      let s := s.writeBoot k ((s.fw.boots.map fun r => r.2.prev).getD k) 0
      let s := { s with fw := { s.fw with floor := max s.fw.floor (min 32 (imageSecver img)), trialFrom := none } }
      s.post 0x0C04 sevInfo srcDevice (k + imageVersion img * 2 ^ 32)

/-! ### FW_INFO -/

/-- Word 2 of FW_INFO: bytes 0 to 7 of the boot record, MAGIC and SEQ (R630); an open value where no copy is valid. -/
def State.bootWord (s : State) : Word × State :=
  match s.fw.boots with
  | some r => (toWord (byteField r.2.bytes 0 8), s)
  | none => s.drawWord

/-- FW_INFO (R637, R644). -/
def fwInfoBody (c : Cmd) (s : State) : State :=
  s.checked c [] fun s =>
    let w := s.bootWord
    let s := w.2
    let hist := if s.rdb Reg.DEV.BOOT.IMAGE then
        ((s.fw.stores.getD (s.rd Reg.DEV.BOOT.SLOT) .empty).history).flatMap fun h => [h.1, h.2]
      else []
    s.ok c ([s.readReg Reg.FWU.STAT.SLOT.addr, s.readReg Reg.FWU.VERSION.SLOTA.addr, w.1, toWord s.fw.floor] ++ hist)

/-- FW_INFO's command. -/
def fwInfoCmd : Command := { op := 0x0C01, len := exactly 0, svcOnly := false, inRom := true, body := fwInfoBody }

/-- FW_INFO (R644). -/
def execFwInfo (dt : Nat) (hdr : CmdHdr) (ws : List Word) (s : State) : Answer :=
  s.event dt fun s => s.issueCmd fwInfoCmd hdr ws

end Sys2Proof.Machine
end

