-- ==== Sys2Proof/Machine/Cues.lean ====
section
/-! DEFINITION. Cue matches (R438) and the pins of the package that have rows of their own: HOLDUP_N (R656), the measured
VCCIO of the banks (R668), boundary scan (R670). -/

namespace Sys2Proof.Machine

/-! ### Cue matches -/

/-- A match of the STEP cue (R80, R441, R447): the start that a run waits for, or the next step's launch time on a reel. -/
def State.stepCue (s : State) (k : Nat) : State :=
  match s.step.run with
  | none => s
  | some r =>
    if s.rd Reg.STEP.CTRL.MODE = 3 then
      if s.rdb Reg.TIME.REEL.JOINED ∧ s.rd Reg.TIME.REEL.CUE = k then
        let r : Run := { r with fallen := r.fallen + 1, lastFall := s.now }
        { s with step := { s.step with run := some r } }
      else s
    else if r.waitCue && !r.cueHit && s.rd Reg.STEP.PACE.CUE == k then
      let r : Run := { r with cueHit := true }
      let r : Run := if s.rd Reg.STEP.CTRL.MODE = 1 then
          { r with fallen := 1, lastFall := s.now, nextFall := s.now + s.tickPeriod }
        else r
      { s with step := { s.step with run := some r } }
    else s

/-- A match of a FRAME cue (R435): Keeper's Sync message leaves on the lane of timed launch that the cue serves. -/
def State.frameCue (s : State) (k : Nat) : State :=
  match s.frameLane k with
  | some t => s.whenever (s.rdb (Reg.ETH.STAT.LINK t)) fun s => s.sendTimed t (s.serveTransport t)
  | none => s

/-- A match of a TRACE cue (R618). -/
def State.traceCue (s : State) (k : Nat) : State :=
  match s.dbg.trace with
  | some t =>
    if t.trigsel = 1 ∧ t.cue = k ∧ s.rd Reg.DBG.TRSTAT.STATE = trArmed then
      { s with dbg := { s.dbg with trace := some { t with cueHit := true } } }
    else s
  | none => s

/-- What the owner of a cue does at a match (R437). -/
def State.cueActs (s : State) (k : Nat) : State :=
  match s.cueFunc k with
  | 1 => s.stepCue k
  | 2 => s.applyTimed k
  | 3 => s.frameCue k
  | 4 => s.fwMatch
  | 5 => s.traceCue k
  | 6 => s.post 0x0805 sevInfo srcDevice k
  | _ => s

/-- CUE_MATCH (R437-R439): the output time has reached a cue's match time. -/
def execCueMatch (dt cue : Nat) (s : State) : Answer :=
  s.event dt fun s => s.whenever (decide (cue < 16) && s.cueDue cue) fun s => (s.cueNext cue).cueActs cue

/-! ### Pins -/

/-- HOLDUP_N_ASSERT (R646, R656, R672): the level of HOLDUP_N. -/
def execHoldupNAssert (dt : Nat) (low : Bool) (s : State) : Answer :=
  s.event dt fun s => (s.wrb Reg.IOB.CTLPINS.HOLDUP_N (!low)).wrb Reg.FWU.STAT.HOLDUP low

/-- Whether a measured VCCIO lies more than 10% below the bank's code (R668). -/
def vccioLow (code mv : Nat) : Bool := decide (mv * 100 < vccioMv code * 90)

/-- A bank's outputs go to high impedance (R668). -/
def State.floatBank (s : State) (b : Nat) : State :=
  { s with pins := { s.pins with output := s.pins.output.filter fun o => o.1 / 48 ≠ b } }

/-- VCCIO_MEASURE (R668, R672): a bank's VCCIO in mV. -/
def execVccioMeasure (dt bank mv : Nat) (s : State) : Answer :=
  s.event dt fun s => s.whenever (decide (bank < 16)) fun s => s.periodic (16 + bank) (100 * fsUs) fun s =>
    let s := s.wr (Reg.IOB.VMEAS.MV bank) (min mv 4095)
    if s.rdb (Reg.IOB.CFG.ACTIVE bank) && vccioLow (s.rd (Reg.IOB.CFG.VCCIO bank)) mv then
      ((s.wr (Reg.IOB.CFG.VLOW bank) 1).wr (Reg.IOB.CFG.VLOWSEEN bank) 1).floatBank bank
    else s.wr (Reg.IOB.CFG.VLOW bank) 0

/-- The boundary-scan instructions that act only while the step engine is UNCONFIGURED (R670). -/
def tapDrives : TapInstr → Bool
  | .bypass | .idcode | .sample => false
  | .extest | .extestPulse | .extestTrain | .intest | .clamp | .highz => true

/-- The IDCODE of the TAP (R670): the stepping, the part code and the maker's bits. -/
def idcode : Half := BitVec.ofNat 32 (Config.idcodeMaker.toNat + 0x4624 * 2 ^ 12 + Config.stepping.toNat % 16 * 2 ^ 28)

/-- What a user pin drives, if anything: a probe or a user output, and nothing under HIGHZ (R611, R658, R670).  What EXTEST, its kin and
CLAMP drive lies in boundary-scan cells that no row loads: open (assumption 90). -/
def State.ballDrives (s : State) (bank pin : Nat) : Option Bool :=
  let k := pinKey bank pin
  let own := ((s.pins.probe ++ s.pins.output).find? fun o => o.1 = k).map Prod.snd
  match s.pins.tap with
  | .highz => none
  | .extest | .extestPulse | .extestTrain | .clamp => some (Config.freeBit (s.free + k))
  | _ => own

/-- TAP_INSTRUCTION (R670): the instruction takes effect, or acts as BYPASS; the TAP works while DEV_RST_N is low too. -/
def execTapInstruction (dt : Nat) (ins : TapInstr) (s : State) : Answer :=
  s.always dt fun s =>
    let acts := s.inReset || !tapDrives ins || s.engine == seUnconfigured
    { s with pins := { s.pins with tap := if acts then ins else .bypass } }

end Sys2Proof.Machine
end

