-- ==== Sys2Proof/Machine/Resets.lean ====
section
/-! DEFINITION. Start-up, resets and Keeper's boot (R586-R597, R631): DEV_RST_N, RESET and the completion of each scope, the
watchdogs, the ROM's choice of a slot, the ends of the towers' start-ups. -/

namespace Sys2Proof.Machine

/-! ### What a reset includes -/

/-- Whether a reset includes another (R594, R597): a device warm reset every other, a tower reset those of its wings. -/
def ResetJob.covers (a b : ResetJob) : Bool :=
  (a.scope == scWarm && b.scope != scWarm) || (a.scope == scTower && b.scope == scWing && b.unit / 64 == a.unit)

/-- The step engine under a tower or wing reset (R596). -/
def State.engineReset (s : State) : State :=
  if s.engine = seHung then s.halts false 8 seHalted
  else if s.engine = seRunning then s
  else { s.wr Reg.STEP.STAT.PENDING 0 with step := { s.step with saved := none } }

/-! ### Tower, wing, step engine and hallway -/

/-- The registers and the error table of a tower's ATC window at reset (R594). -/
def State.resetAtc (s : State) (t : Nat) : State :=
  { s.resetRegs (0xE0000 + 0x1000 * t) (0xE1000 + 0x1000 * t) with
    attic := { s.attic with
      table := s.attic.table.filter fun r => r.1 ≠ t
      frozen := s.attic.frozen.filter fun u => u ≠ t
      satPosted := s.attic.satPosted.filter fun u => u ≠ t } }

/-- A staging in progress is ABORTED (R149). -/
def State.abortStaging (s : State) : State :=
  match s.cfg.staging with
  | some st => s.stageFails st stAborted
  | none => s

/-- A reset of a tower that an ATTIC-mode trace uses ends the trace (R621). -/
def State.traceReset (s : State) (t : Nat) : State :=
  if !s.traceG6 && s.dbg.trace.any (fun x => x.wings.any fun w => w / 64 == t) then s.traceDone else s

/-- A tower reset begins (R290, R594, R596, R621). -/
def State.towerReset (s : State) (t bu : Nat) : State :=
  let s := (s.traceReset t).applyMoves (· == t)
  let s := s.wr Reg.DEV.RSTCAUSE.TOWERS (setBits (s.rd Reg.DEV.RSTCAUSE.TOWERS) t t 1)
  let s := (s.drainTower t).engineReset.resetWings (towerWings t)
  let s := (s.abortStaging.streamFails 17 0).endJobsOf (fun j => j.wing / 64 = t) stAborted 17
  let s := (s.maintAborts [t]).resetAtc t
  ((s.leaveStartup t).ungrant 0x01 bu).startTowers [t] |>.refillsSettle

/-- A wing reset begins (R290 step 6, R594, R596). -/
def State.wingReset (s : State) (w : Nat) : State :=
  let s := (s.wr Reg.DEV.RSTCAUSE.WINGRST 1).engineReset
  (((s.resetWings [w]).releaseTags [w]).endJobsOf (fun j => j.wing = w) stAborted 17).refillsSettle

/-- A step engine reset (R596). -/
def State.stepReset (s : State) : State :=
  let s := s.wr Reg.DEV.RSTCAUSE.STEPRST 1
  if s.engine = seUnconfigured then s
  else
    let s := ((s.dropWait stAborted).halts false 8 seHalted).wr Reg.STEP.STAT.STOPCAUSE 8
    { s.wr Reg.STEP.STAT.PENDING 0 with step := { s.step with
      saved := none, ret := s.step.ret.map fun (x : Ret) => { x with cause := 8 } } }

/-- Every router leaves service and drains. -/
def State.routersOut (s : State) : State := (List.range 8).foldl (fun s t => (s.setRouters t false).setDrain t true) s

/-- A hallway reset begins (R292, R594). -/
def State.hallwayReset (s : State) : State :=
  let s := ((s.wr Reg.DEV.RSTCAUSE.HALLWAY 1).abortStaging).streamFails 17 0
  s.routersOut.dropHallway hsAbort

/-- A hallway reset ends (R292): the routers of the towers that are ready return, and requests enter again. -/
def State.hallwayBack (s : State) : State :=
  ((List.range 8).foldl (fun s t =>
    let s := s.setDrain t false
    if s.towerReady t then s.setRouters t true else s) s).pump

/-! ### Porch subsystem -/

/-- A loop's command ends with ABORTED. -/
def State.loopAborts (s : State) (g : Group) : State :=
  match g.loop with
  | some (_, _, some id, _) => s.complete id stAborted 0 []
  | _ => s

/-- A group of the configuration is set up again (R594): its Reel link state goes, it is awake and trains. -/
def State.groupAgain (s : State) (g : Group) : State :=
  let s := s.loopAborts g
  let s := if s.rdb (Reg.LANE.STAT.TXSLEEP g.first) then s.grantAlways 0x11 (2 ^ g.wlog) else s
  let s := s.discardLink g.first
  let s := (groupLanes g.first g.wlog).foldl (fun s n =>
    (s.resetRegs (Reg.LANE.STAT.STATE n).addr ((Reg.LANE.STAT.STATE n).addr + 0x3F8)).wr (Reg.LANE.STAT.STATE n) 1) s
  match s.group g.first with
  | some h => s.setGroup { h with syncAt := s.now }
  | none => s

/-- A trace whose region is released goes (R613): its grant returns. -/
def State.dropG6Trace (s : State) : State :=
  match s.dbg.trace with
  | some t =>
    if s.traceG6 then
      let st := s.rd Reg.DBG.TRSTAT.STATE
      let s := if st = trArmed ∨ st = trTriggered then s.ungrant 0x13 (traceBu true t.wings.length) else s
      { s with dbg := { s.dbg with trace := none } }.resetRegs Reg.DBG.TRSTAT.STATE.addr (Reg.DBG.TRSTAT.STATE.addr + 8)
    else s
  | none => s

/-- Every GDDR6 controller becomes uninitialised (R594), its active map kept (R313): capacity 0, contents lost, regions released, what was in progress
ABORTED, its grants returned. -/
def State.g6Off (s : State) : State :=
  let s := s.mirrorOff.dropG6Trace
  let s := match s.g6.job with
    | some j => s.complete j.cmd stAborted 0 []
    | none => s
  let s := match s.g6.save with
    | some v => s.complete v.1 stAborted 0 []
    | none => s
  let s := (List.range 8).foldl (fun s k => s.setCtrl k 0) s
  let early := s.noc.targets.filter fun x => s.g6.answered.contains x.2
  let s := (early.foldl State.leaveTarget (s.wr Reg.MEM.CAP.BYTES 0)).forgetUnits (List.range 64)
  { s.setHeld 0x0F 0 with g6 := { s.g6 with
    fills := [], codeCache := [], answered := [], regions := [], images := [], job := none, save := none, trainOwed := []
    downLogged := [], lastAccess := [], lastTrain := [], refreshAt := [] } }

/-- A porch's user I/O banks are set up again (R594): their outputs at high impedance until the next COMMIT. -/
def State.banksAgain (s : State) (p : Nat) : State :=
  let mine := fun (b : Nat) => b / 8 = p
  { s with pins := { s.pins with
    output := s.pins.output.filter fun o => !decide (mine (o.1 / 48))
    timed := s.pins.timed.filter fun o => !decide (mine (o.1 / 48))
    keeper := s.pins.keeper.filter fun o => !decide (mine (o.1 / 48))
    fifos := s.pins.fifos.filter fun f => !decide (mine f.bank) } }

/-- A porch reset begins (R423, R594). -/
def State.porchReset (s : State) (p : Nat) : State :=
  let s := s.wr Reg.DEV.RSTCAUSE.PORCHES (setBits (s.rd Reg.DEV.RSTCAUSE.PORCHES) p p 1)
  let lanes := s.groups.filter fun g => g.first / 32 = p
  let s := lanes.foldl (fun s g =>
    if s.cfg.lanesetGroups.contains g.first then s.groupAgain g else (s.loopAborts g).laneOff g.first) s
  let s := [2 * p, 2 * p + 1].foldl (fun s t =>
    (s.setupTimeLane t false 0 0).resetRegs (0xA0000 + 0x1000 * t) (0xA1000 + 0x1000 * t)) s
  let s := [0, 1].foldl (fun s d =>
    if s.domSource d = 2 ∧ s.domState d ≠ dsOff ∧ ((s.dom d).lane = 64 + 2 * p ∨ (s.dom d).lane = 65 + 2 * p) then
      s.domLeaves d dsFree 2
    else s) s
  ((s.g6Off.eraseKey).banksAgain p).retestCorridors (8 + p)

/-! ### Device warm -/

/-- NAP and PATROL are left at once (R592); a change of state under way ends. -/
def State.warmActive (s : State) : State :=
  let low := decide (2 ≤ s.power)
  let s := if s.power = 3 then s.carryTime else s
  let s := { s with pwr := { s.pwr with
    target := none, wake := none, domIdle := [], napSlept := [], napBack := false } }
  let s := s.wr Reg.PWR.STATE.CHANGING 0
  if low then ((s.wr Reg.PWR.STATE.STATE 0).linkTrain).post 0x0B01 sevInfo srcDevice 0 else s

/-- The ledger keeps the grants of the start-up holders alone (R594). -/
def Ledger.startOnly (l : Ledger) : Ledger :=
  let l' : Ledger := { held := l.held.filter fun h => h.1 ≤ 0x08, pool := 0, aside := [], lent := 0 }
  { l' with held := if l'.held.at 0 0x01 = 0 then l'.held else l'.held.upd 0 0x01 80 }

/-- The fabric after a device warm reset (R594): what the start-ups found out stays. -/
def Fabric.warm (f : Fabric) : Fabric :=
  { Fabric.reset with
    condemned := f.condemned, failed := f.failed, memFailed := f.memFailed, chanFailed := f.chanFailed,
    spared := f.spared, tuned := f.tuned, taps := f.taps, trim := f.trim, su := f.su }

/-- Every reset in progress is absorbed and completes with the device warm reset (R597), and Keeper restarts from ROM; after a
thermal trip no tower starts (R579). -/
def State.warmKeeper (s : State) : State :=
  { s with
    fw := { s.fw with stage := none, pending := none, restart := none, romAt := some s.now }
    dev := { s.dev with
      resets := s.dev.resets.map fun (j : ResetJob) => { j with begun := true, back := false, bu := 0 }
      startup := [], towersOwed := !s.tripped, bad := false } }.fwSync

/-- A device warm reset begins (R84, R487, R594, R642); `cause` is 1 for RESET, 2 for a watchdog. -/
def State.warmReset (s : State) (cause : Nat) : State :=
  let s := ((s.applyMoves fun _ => true).wr Reg.DEV.RSTCAUSE.CAUSE cause).returnAside.warmActive
  let s := (s.maintAborts (List.range 8)).abortCommands.queueReset.mirrorOff
  let s := (s.streamFails 17 0).abortStaging
  let s := (s.endJobsOf (fun _ => true) stAborted 17).quotasEnd stAborted
  let s := if s.stepping then s.haltNow 8 seHalted else s
  let s := s.deactivate.resetDebug.eraseKey.g6Off
  let s := (List.range 16).foldl State.releaseCue s.dropReel
  let s := (s.groups.foldl (fun s g => s.laneOff g.first) s).ethOff
  let s := s.routersOut.dropHallway hsAbort
  let s := (List.range 8).foldl State.resetAtc ((List.range 8).foldl (fun s t => s.setDrain t false) s)
  let s := (s.resetRegs 0x20000 0x40000).resetRegs 0xF0000 0x100000
  let s := { s with
    step := StepEng.reset
    fab := s.fab.warm
    cfg := { Cfg.reset with lock := s.cfg.lock }
    attic := { s.attic.lost with owner := [], jobs := [] }
    noc := { s.noc with waiting := s.noc.waiting.filter fun w => 1024 ≤ w.1, resp := [] }
    corr := { s.corr with halfNow := [], recent := [], remaps := [], moved := [] }
    time := { s.time with domA := { s.time.domA with frameCues := [] }, domB := { s.time.domB with frameCues := [] } }
    clk := { s.clk with measures := [] }
    ledger := s.ledger.startOnly }
  (((s.retestCorridors 8).retestCorridors 9).pacingSync.corrSync).warmKeeper

/-! ### RESET -/

/-- A reset begins. -/
def State.beginReset (s : State) (j : ResetJob) : State :=
  let s := { s with dev := { s.dev with resets := s.dev.resets.map fun (k : ResetJob) =>
    if k.scope = j.scope ∧ k.unit = j.unit then { k with begun := true } else k } }
  match j.scope with
  | 0 => s.warmReset 1
  | 1 => s.towerReset j.unit j.bu
  | 2 => s.wingReset j.unit
  | 3 => s.stepReset
  | 4 => s.hallwayReset
  | _ => s.porchReset j.unit

/-- The first reset whose reply was owed begins (R503, R591). -/
def State.beginOwed (s : State) : State :=
  match s.dev.resets.find? fun j => !j.begun with
  | some j => s.beginReset j
  | none => s

/-- Whether a context in use uses a tower. -/
def State.towerInUse (s : State) (t : Nat) : Bool := (towerWings t).any s.wingInUse

/-- RESET (R591-R593). -/
def resetBody (c : Cmd) (s : State) : State :=
  let scope := c.f 0 2 0
  let t := c.f 0 6 4
  let unit := if scope = 1 then t else if scope = 2 then 64 * t + c.f 0 13 8 else if scope = 5 then c.f 0 16 16 else 0
  let bu := if scope = 1 then s.testBu t else 0
  s.checked c
    [(c.reserved [[(2, 0), (6, 4), (13, 8), (16, 16)]] || decide (5 < scope), stBadParam, 0),
     (s.engine == seRunning && ((scope == 1 && s.towerInUse t) || (scope == 2 && s.wingInUse unit)), stState, 0),
     (s.stepping && scope == 5, stState, 0),
     (scope != 0 && (decide (2 ≤ s.power) || s.tripped), stState, 0),
     (s.dev.resets.any fun j => j.scope = scope ∧ j.unit = unit, stBusy, 0),
     (decide (s.freeBu < bu), stBudget, 0)] fun s =>
    let j : ResetJob := { scope := scope, unit := unit, bu := bu, begun := false, back := false }
    let s := { s.grantAlways 0x01 bu with dev := { s.dev with resets := s.dev.resets ++ [j] } }.ok c []
    if c.path = .ring ∨ (c.path = .mailbox ∧ s.hif.perst) then s else s.beginReset j

/-- RESET's command. -/
def resetCmd : Command := command 0x0003 (exactly 1) resetBody

/-- RESET (R591). -/
def execReset (dt : Nat) (hdr : CmdHdr) (ws : List Word) (s : State) : Answer :=
  s.event dt fun s => s.issueCmd resetCmd hdr ws

/-- Whether what a reset started has come to its end: Keeper runs and every tower is ready after a device warm reset, the
tower is ready after a tower reset.  No request enters after a hallway reset until every router is back (R292): it lasts until no tower is
starting up; the routers of a tower that has failed do not come back (DESIGN CHOICE, assumption 106). -/
def State.resetReady (s : State) (j : ResetJob) : Bool :=
  if j.scope = scWarm then
    s.fw.romAt.isNone && (!s.rdb Reg.DEV.BOOT.IMAGE || s.tripped || (!s.dev.towersOwed && s.dev.startup.isEmpty && s.allReady))
  else if j.scope = scTower then s.towerReady j.unit && !s.dev.startup.any fun x => x.1 = j.unit
  else if j.scope = scStep then s.step.ret.isNone
  else if j.scope = scHallway then s.dev.startup.isEmpty
  else true

/-- What the end of a reset returns to service (R292, R595), with what the wire tests of the porches' corridors found (R268). -/
def State.resetReturns (s : State) (j : ResetJob) (wires : List (Nat × Nat × Option Bool)) : State :=
  if j.scope = scWing then (if s.towerReady (j.unit / 64) then s.reloadWings [j.unit] else s)
  else if j.scope = scHallway then s.hallwayBack
  else if j.scope = scPorch then s.corridorsTested (8 + j.unit) wires
  else if j.scope = scWarm then (s.corridorsTested 8 wires).corridorsTested 9 wires
  else s

/-- RESET_COMPLETE (R591, R593, R597): a reset completes, and with it those that it absorbed, once the refills of its latch loads have
acknowledged (R121). -/
def execResetComplete (dt scope : Nat) (which : ResetUnit) (s : State) : Answer :=
  s.event dt fun s =>
    match s.dev.resets.find? fun j => j.scope = scope ∧ j.unit = which.unit ∧ j.begun ∧ !j.back with
    | none => s
    | some j => s.whenever (s.resetReady j && !s.dev.resets.any fun k => k.begun && k.covers j) fun s =>
        let ended := j :: s.dev.resets.filter fun k => k.begun && j.covers k
        let s := { s with dev := { s.dev with resets := s.dev.resets.map fun (k : ResetJob) =>
          { k with back := k.back || ended.contains k } } }
        (ended.foldl (fun s k => s.resetReturns k which.badWires) s).resetsBack

/-! ### Watchdogs -/

/-- A watchdog reset (R590, R642): a device warm reset that no command asked for. -/
def State.watchdogReset (s : State) : State :=
  let j : ResetJob := { scope := scWarm, unit := 0, bu := 0, begun := true, back := false }
  { s with dev := { s.dev with resets := s.dev.resets.filter (fun (k : ResetJob) => k.scope ≠ scWarm) ++ [j] } }.warmReset 2

/-- FW_CONFIRM_DEADLINE (R642): no confirmation within 30 s of the match. -/
def execFwConfirmDeadline (dt : Nat) (s : State) : Answer :=
  s.event dt fun s => s.whenever (s.fw.trialFrom.any fun t => decide (t + 30000 * fsMs ≤ s.now)) State.watchdogReset

/-- WATCHDOG_EXPIRY (R642): Keeper has not served its running watchdog. -/
def execWatchdogExpiry (dt : Nat) (s : State) : Answer :=
  s.event dt fun s => s.whenever (!s.keeperDown) State.watchdogReset

/-! ### DEV_RST_N -/

/-- DEV_RST_N_ASSERT (R591, R594): everything at reset but what flash, the OTP ledgers and the board hold. -/
def execDevRstNAssert (dt : Nat) (s : State) : Answer :=
  s.always dt fun s =>
    { State.reset with
      now := s.now
      free := s.free
      out := s.out
      hif := { Hif.reset with perst := s.hif.perst }
      cfg := { Cfg.reset with lock := s.cfg.lock }
      g6 := { G6.reset with epochs := (s.forgetUnits (List.range 64)).g6.epochs }
      crypt := { Crypt.reset with keys := s.crypt.keys }
      fw := { Fw.blank with slots := s.fw.slots, boot := s.fw.boot, stores := s.fw.stores, floor := s.fw.floor }
      dev := { Dev.reset with made := s.dev.made, ledger := s.dev.ledger }
      pins := { Pins.reset with input := s.pins.input, driven := s.pins.driven, tap := s.pins.tap } }

/-- A record of manufacturing test, or an entry of the repair ledger (`field`), takes effect at start-up (R211, R243, R254, R598-R600).
The spare map is applied with the crossings (`State.applySpares`). -/
def State.loadRepair (field : Bool) (s : State) (r : Repair) : State :=
  let add := fun (l : List Nat) => if l.contains r.wing then l else l ++ [r.wing]
  match r.kind with
  | 1 => { s with fab := { s.fab with condemned := s.fab.condemned ++ [(r.wing, r.item)] } }
  | 2 => { s with fab := { s.fab with memFailed := add s.fab.memFailed, failed := add s.fab.failed } }
  | 3 => { s with attic := { s.attic with
      spareFor := s.attic.spareFor.upd 31 r.wing r.item
      fieldRepair := if field then add s.attic.fieldRepair else s.attic.fieldRepair } }
  | 4 => { s with attic := { s.attic with
      retired := if s.attic.retired.contains (r.wing, r.item) then s.attic.retired
        else s.attic.retired ++ [(r.wing, r.item)] } }
  | 5 => { s with fab := { s.fab with chanFailed := add s.fab.chanFailed, failed := add s.fab.failed } }
  | _ => s

/-- DEV_RST_N_RELEASE (R586, R661): the seat is latched, the ledgers are loaded, Keeper runs from ROM. -/
def execDevRstNRelease (dt seat : Nat) (s : State) : Answer :=
  s.always dt fun s => s.whenever s.inReset fun s =>
    let s := { s with
      inReset := false
      dev := { s.dev with seat := seat % 1024, releasedAt := s.now, cold := true, towersOwed := true }
      fw := { s.fw with romAt := some s.now } }
    let s := (s.wr Reg.CLK.STAT.REFOK 15).wr Reg.CLK.STAT.LOCKED (1 + 2 ^ 9 - 2 ^ 2)
    let s := ((s.wr Reg.IOB.CTLPINS.HOLDUP_N 1).wr Reg.IOB.CTLPINS.PGOOD_IN 1).wr Reg.IOB.CTLPINS.WAKE_N 1
    s.dev.ledger.foldl (State.loadRepair true) (s.dev.made.foldl (State.loadRepair false) ((s.wr Reg.FWU.STAT.PGOOD 1).fwSync))

/-! ### Keeper's boot -/

/-- What the ROM does with the boot record (R587, R631): the slots to try in order, whether the first is itself a fallback,
and whether it is a new image on trial. -/
def State.bootPlan (s : State) : List Nat × Bool × Bool :=
  match s.fw.boots with
  | none => ([0, 1], false, false)
  | some (_, r) =>
    let k := if r.state = 2 then r.prev else r.slot
    ([k, 1 - k], r.state == 2, r.state == 1)

/-- The boot record that the ROM writes before it loads a slot (R631). -/
def State.bootWrites (s : State) : State :=
  match s.fw.boots with
  | some (_, r) =>
    if r.state = 1 then s.writeBoot r.slot r.prev 2
    else if r.state = 2 then s.writeBoot r.prev r.prev 0
    else s
  | none => s

/-- The holders that Keeper grants at start-up (R572), where they hold nothing; after a thermal trip the attics hold none. -/
def State.grantStart (s : State) : State :=
  [(1, 80), (2, 16), (3, 8), (4, 6), (5, 1), (6, 4), (7, 64), (8, 17)].foldl (fun (s : State) (h : Nat × Nat) =>
    if s.holds h.1 ≠ 0 ∨ (h.1 = 7 ∧ s.tripped) then s else s.setHeld h.1 h.2) s

/-- The events held through a restart are posted in order (R639). -/
def State.flushEvents (s : State) : State :=
  let es := s.hif.heldEvents
  es.foldl (fun s e => s.post e.1 e.2.1 e.2.2.1 e.2.2.2) { s with hif := { s.hif with heldEvents := [], holding := false } }

/-- The start-up that a DEV_RST_N or a device warm reset owes (R586): grants, routers, the towers. -/
def State.startTowersOwed (s : State) : State :=
  if !s.dev.towersOwed then s
  else
    let s := { s with dev := { s.dev with towersOwed := false } }.grantStart
    ((List.range 8).foldl (fun s t => s.setRouters t true) s).freeTagSync.startTowers (List.range 8)

/-- Brynivit runs from a slot (R586, R587, R631). -/
def State.runImage (s : State) (k : Nat) (fallback trial : Bool) : State :=
  let s := (((s.wr Reg.DEV.BOOT.IMAGE 1).wr Reg.DEV.BOOT.SLOT k).wr Reg.HIF.QSTAT.IMAGE 1)
  let s := if fallback then s.wr Reg.DEV.BOOT.FALLBACK 1 else s
  let s := { s with fw := { s.fw with firstStart := trial, trialFrom := if trial then s.fw.trialFrom else none } }
  let s := if s.dev.cold then s.wr Reg.DEV.BOOT.READYMS (min ((s.now - s.dev.releasedAt) * 10 / fsMs) 65535) else s
  let s := if trial then s else s.updStore fun st => { st with starts := st.starts + 1 }
  let s := if fallback then s.updStore fun st => { st with fallbacks := st.fallbacks + 1 } else s
  let s := (if s.rd Reg.HIF.LINK.SPEED = 0 then s.linkTrain else s).fwSync.flushEvents.startTowersOwed
  if fallback then s.post 0x0C05 sevError srcDevice k else s

/-- KEEPER_BOOT (R586, R587, R590, R631): the ROM chooses, verifies and loads a slot, or runs the minimal image. -/
def execKeeperBoot (dt : Nat) (s : State) : Answer :=
  s.event dt fun s => s.whenever s.fw.romAt.isSome fun s =>
    let plan := s.bootPlan
    let s := s.bootWrites
    let s := { s with fw := { s.fw with romAt := none } }
    match plan.1.find? s.slotLoads with
    | some k =>
      let first := plan.1.head? == some k
      s.runImage k (plan.2.1 || (!first && s.fw.boots.isSome)) (plan.2.2 && first)
    | none =>
      let s := { s with
        hif := { s.hif with holding := false, heldEvents := [] }
        fw := { s.fw with firstStart := false, trialFrom := none } }
      (((s.wr Reg.DEV.BOOT.IMAGE 0).wr Reg.HIF.QSTAT.IMAGE 0).linkTrain).fwSync

/-! ### The ends of the towers' start-ups -/

/-- TOWER_STARTUP_COMPLETE (R38, R39, R50, R588, R589): a tower that holds its test grants, and that the time clock reaches, completes
R38.  Towers that wait take what BU have become free first. -/
def execTowerStartupComplete (dt tower : Nat) (test : TowerTest) (s : State) : Answer :=
  s.event dt fun s =>
    let s := s.admitTowers
    s.whenever ((s.dev.startup.any fun x => x.1 = tower ∧ x.2.2.isSome) && s.timeClockUp) fun s => s.towerTested tower test

/-- TOWER_STARTUP_TIMEOUT (R589): a tower has not completed step 7 of R38 within 387 ms of beginning it. -/
def execTowerStartupTimeout (dt tower : Nat) (s : State) : Answer :=
  s.event dt fun s =>
    s.whenever (s.dev.startup.any fun x => x.1 = tower ∧ x.2.2.isSome ∧ x.2.1 + 387 * fsMs ≤ s.now) fun s =>
      s.towerTimesOut tower

end Sys2Proof.Machine
end

