-- ==== Sys2Proof/Machine/BarZero.lean ====
section
/-! DEFINITION. What the host does over PCIe beside commands: accesses to BAR0 and BAR2 (R11-R14, R474-R480), writes of
replies and interrupts (R481, R488, R502), windows of limited events (R674), PERST_N and D3hot (R469, R472, R473), and
IDENTIFY, STATUS, ECHO and LIMITS (R496, R603, R604). -/

namespace Sys2Proof.Machine

/-! ### BAR0 -/

/-- All ones in the bytes that a read of 4 or 8 bytes asked for (R476). -/
def onesOf (size : Nat) : Word := toWord (2 ^ (8 * size) - 1)

/-- All ones in every byte that a read of another size or alignment asked for (R11). -/
def onesBytes (size : Nat) : List Byte := List.replicate size 0xFF

/-- An access of a size or an alignment that the device does not perform (R11). -/
def State.badBar0 (s : State) (a size : Nat) (write : Bool) : State :=
  if s.hif.perst then s
  else
    let s := s.wr Reg.HIF.ERR.BADACC 1
    (if write then s else s.send (.readBytes a (onesBytes size))).wakeLogic 1

/-- A read of BAR0 (R11-R14, R476). -/
def State.bar0Read (s : State) (a size : Nat) : State :=
  if !accessOk a size then s.badBar0 a size false
  else
    let ok := s.bar0Status a == hsOk
    let s' := s.access a fun s =>
      let r := s.readAccess a size
      r.2.send (.readData a size r.1)
    if ok || s.hif.perst then s' else s'.send (.readData a size (onesOf size))

/-- A write of BAR0 (R11-R13, R476). -/
def State.bar0Write (s : State) (a size : Nat) (data : Word) : State :=
  if !accessOk a size then s.badBar0 a size true else s.access a fun s => s.writeAccess a size data

/-- REGISTER_WRITE (R13). -/
def execRegisterWrite (dt addr size : Nat) (data : Word) (s : State) : Answer :=
  s.event dt fun s => s.bar0Write addr size data

/-- BAD_ACCESS (R11): an access of a size or an alignment that the device does not perform. -/
def execBadAccess (dt addr size : Nat) (write : Bool) (s : State) : Answer :=
  s.event dt fun s => s.whenever (!accessOk addr size) fun s => s.badBar0 addr size write

/-- RC_READ (R13, R14): a read of a register; RC fields that it returns whole clear. -/
def execRcRead (dt addr size : Nat) (s : State) : Answer := s.event dt fun s => s.bar0Read addr size

/-- TIME_NOWNS_READ (R419): a 64-bit read of `TIME.NOWNS` latches the seconds. -/
def execTimeNownsRead (dt : Nat) (s : State) : Answer := s.event dt fun s => s.bar0Read Reg.TIME.NOWNS.NS.addr 8

/-- QCTRL_ENABLE (R478, R505): ENABLE written. -/
def execQctrlEnable (dt : Nat) (on : Bool) (s : State) : Answer :=
  s.event dt fun s => s.bar0Write Reg.HIF.QCTRL.ENABLE.addr 8 (toWord (b2n on))

/-- QRESET (R487, R503): 1 written to QRESET, with ENABLE as it is. -/
def execQreset (dt : Nat) (s : State) : Answer := s.event dt fun s =>
  s.bar0Write Reg.HIF.QCTRL.ENABLE.addr 8 (toWord (s.rd Reg.HIF.QCTRL.ENABLE + 2))

/-- CMDTAIL_WRITE (R480). -/
def execCmdtailWrite (dt value : Nat) (s : State) : Answer :=
  s.event dt fun s => s.bar0Write Reg.HIF.CMDTAIL.COUNT.addr 4 (toWord value)

/-- RPLHEAD_WRITE (R480). -/
def execRplheadWrite (dt value : Nat) (s : State) : Answer :=
  s.event dt fun s => s.bar0Write Reg.HIF.RPLHEAD.COUNT.addr 4 (toWord value)

/-- EVTHEAD_WRITE (R480). -/
def execEvtheadWrite (dt value : Nat) (s : State) : Answer :=
  s.event dt fun s => s.bar0Write Reg.HIF.EVTHEAD.COUNT.addr 4 (toWord value)

/-! ### BAR2 -/

/-- The hallway address that a BAR2 offset maps to (R475). -/
def State.bar2Addr (s : State) (offset : Nat) : Option Nat :=
  if offset < 0xF_0000_0000 then some offset
  else if offset < 0xF_1800_0000 then some (0x10_0000_0000 + (offset - 0xF_0000_0000))
  else if 0xF_C000_0000 ≤ offset ∧ offset < 0x10_0000_0000 then
    some (s.rd Reg.HIF.APERTURE.UNIT * 0x4000_0000 + (offset - 0xF_C000_0000))
  else none

/-- Whether a BAR2 access is one hallway request: 1 to 64 words of the BAR (R272); one to GDDR6 that leaves its block of 512 bytes is
routed by its first byte and refused by the controller (R314). -/
def bar2Ok (offset words : Nat) : Bool :=
  decide (1 ≤ words) && decide (words ≤ 64) && offset % 8 == 0 && decide (offset + 8 * words ≤ 2 ^ 36)

/-- An access to BAR2 (R475, R476, R590); a write of the CFG_DATA window with bytes left out breaks its order (R526). -/
def State.bar2 (s : State) (offset : Nat) (write : Bool) (words firstbe lastbe : Nat) (data : List Word) : State :=
  let failed := fun (st : Nat) => s.transactionDone (.bar2 offset) iniPcie 0 write st (if write then [] else onesFor words)
  if !s.rdb Reg.DEV.BOOT.IMAGE then failed hsNoroute
  else if write ∧ 0xF_4000_0000 ≤ offset ∧ offset < 0xF_4100_0000 then
    let bytes := wordBytes data
    s.windowWrite (offset - 0xF_4000_0000) (if firstbe = 255 ∧ lastbe = 255 then bytes else bytes.drop 1)
  else match s.bar2Addr offset with
    | some a => s.issue (requestPacket iniPcie write a words firstbe lastbe (if write then data else [])) (.bar2 offset)
    | none => failed hsDecode

/-- BAR2_ACCESS (R475): a PCIe read or write of BAR2. -/
def execBar2Access (dt offset : Nat) (write : Bool) (words firstbe lastbe : Nat) (data : List Word) (s : State) : Answer :=
  s.event dt fun s =>
    s.whenever (!s.hif.perst && bar2Ok offset words && (!write || data.length == words) && decide (firstbe < 256) &&
        decide (lastbe < 256)) fun s =>
      (s.bar2 offset write words firstbe lastbe data).wakeLogic 1

/-! ### Replies and interrupts -/

/-- The words of a reply written to the reply ring, which wraps (R479, R489). -/
def State.writeReplyRing (s : State) (ws : List Word) : State :=
  let tail := s.rd Reg.HIF.RPLTAIL.COUNT
  let size := 2 ^ s.rd Reg.HIF.RINGSIZE.RPLLOG
  let base := s.rd Reg.HIF.RPLBASE.BASE * 4096
  let s := ws.zipIdx.foldl (fun s wi => s.send (.memWrite (base + 8 * ((tail + wi.2) % size)) wi.1)) s
  s.wr Reg.HIF.RPLTAIL.COUNT (tail + ws.length)

/-- Whether a reply is that of a RESET that was accepted. -/
def Reply.resets (r : Reply) : Bool := r.opcode == 0x0003 && r.status == stOk

/-- The oldest reply that waits for the reply ring (R481, R488): suppressed where EPOCH has wrapped to its own, else written
where the ring has room for all of it. -/
def State.writeReply (s : State) (r : Reply) (hostTakes : Bool) : State :=
  let rest := { s with hif := { s.hif with replies := s.hif.replies.erase r } }
  let after := fun (s : State) => if r.resets then s.beginOwed else s
  if r.gen ≠ s.hif.gen ∧ r.epoch % 256 = s.rd Reg.HIF.QSTAT.EPOCH then after (rest.count Reg.HIF.QSTAT.SUPPRESSED 1)
  else
    let ws := r.packet 8192
    let held := ringHolds (s.rd Reg.HIF.RPLTAIL.COUNT) (s.rd Reg.HIF.RPLHEAD.COUNT)
    if 2 ^ s.rd Reg.HIF.RINGSIZE.RPLLOG < held + ws.length then s
    else
      let s := ((rest.writeRbuf r).writeReplyRing ws).writeBack
      after (if hostTakes then s.msix 0
        else ((s.wr Reg.HIF.ERR.WBERR 1).wr Reg.HIF.QSTAT.STALLED 1).wr Reg.HIF.QSTAT.STALLCAUSE 3)

/-- REPLY_WRITE (R472, R481, R488); `hostTakes` says whether the host completes the write-back. -/
def execReplyWrite (dt : Nat) (hostTakes : Bool) (s : State) : Answer :=
  s.event dt fun s =>
    match s.hif.replies.find? fun r => r.path = .ring with
    | none => s
    | some r => s.whenever (s.rdb Reg.HIF.QCTRL.ENABLE && s.hostWrites && !s.wbFailed && s.fw.romAt.isNone) fun s =>
        s.writeReply r hostTakes

/-- IRQ_MODERATION_EXPIRY (R502): the interval of a moderated vector ends. -/
def execIrqModerationExpiry (dt vector : Nat) (s : State) : Answer :=
  s.event dt fun s =>
    let i := modIndex vector
    let iv := s.rd Reg.HIF.IRQMOD.INTERVAL * fsUs
    s.whenever ((vector == 0 || vector == 2) && (s.hif.irqLast.getD i none).any fun t => decide (t + iv ≤ s.now)) fun s =>
      if s.hif.irqWant.getD i false then
        { s.sendMsix vector with hif := { s.hif with
          irqLast := s.hif.irqLast.set i (some s.now), irqWant := s.hif.irqWant.set i false } }
      else { s with hif := { s.hif with irqLast := s.hif.irqLast.set i none } }

/-- LIMITED_EVENT_WINDOW_END (R674): a window of 1 ms ends; what it held is posted and opens a new one. -/
def execLimitedEventWindowEnd (dt code key : Nat) (s : State) : Answer :=
  s.event dt fun s =>
    match s.hif.windows.find? fun w => w.code = code ∧ w.key = key with
    | none => s
    | some w => s.whenever (decide (w.opened + fsMs ≤ s.now)) fun s =>
        let others := s.hif.windows.erase w
        if w.held = 0 then { s with hif := { s.hif with windows := others } }
        else
          let w' := { w with held := 0, opened := s.now }
          let s := { s with hif := { s.hif with windows := others ++ [w'] } }
          s.post w.code w.sev w.src (limitedDetail w.code w.detail w.held)

/-! ### PERST_N and D3hot -/

/-- Configuration jobs and a staging that read host memory end with ABORTED. -/
def State.endHostReads (s : State) : State :=
  let s := s.endJobsOf (fun j => !j.gddr) stAborted 11
  match s.cfg.staging with
  | some st => if st.gddr then s else s.stageFails st stAborted
  | none => s

/-- PERST_N_ASSERT (R473, R487, R503): the endpoint and the HIF block. -/
def execPerstNAssert (dt : Nat) (s : State) : Answer :=
  s.event dt fun s => s.whenever (!s.hif.perst) fun s =>
    let epoch := s.rd Reg.HIF.QSTAT.EPOCH
    let s := ((s.resetRegs 0x10000 0x20000).wr Reg.HIF.QSTAT.EPOCH (epoch + 1)).wr Reg.HIF.QSTAT.IMAGE
      (s.rd Reg.DEV.BOOT.IMAGE)
    let s := { s with hif := { s.hif with
      gen := s.hif.gen + 1
      fetched := s.hif.fetched.filter fun c => c.path ≠ Path.ring
      tailWait := none
      irqLast := [none, none]
      irqWant := [false, false]
      bme := false
      d3hot := false
      autoBw := false
      perst := true } }
    (s.streamFails 11 0).endHostReads.linkTrain

/-- PERST_N_RELEASE (R469, R503): the link trains, a mailbox reply that waits is written. -/
def execPerstNRelease (dt : Nat) (s : State) : Answer :=
  s.event dt fun s => s.whenever s.hif.perst fun s =>
    let mine := s.hif.replies.filter fun (r : Reply) => r.path = Path.mailbox
    let s := { s with hif := { s.hif with perst := false, replies := s.hif.replies.filter fun (r : Reply) => r.path ≠ Path.mailbox } }
    let s := s.linkTrain.wrb Reg.HIF.MBOXCTL.BUSY ((s.hif.running ++ s.hif.fetched).any fun (c : Cmd) => c.path = Path.mailbox)
    mine.foldl (fun s r => let s := s.mailboxReply r; if r.resets then s.beginOwed else s) s

/-- D3HOT_ENTRY (R472): the function enters D3hot, or Bus Master Enable is cleared. -/
def execD3hotEntry (dt : Nat) (clearsBme : Bool) (s : State) : Answer :=
  s.event dt fun s => s.whenever (!s.hif.perst) fun s =>
    if clearsBme then { s with hif := { s.hif with bme := false } } else { s with hif := { s.hif with d3hot := true } }

/-- D3HOT_EXIT (R472): the function returns to D0, or Bus Master Enable is set. -/
def execD3hotExit (dt : Nat) (setsBme : Bool) (s : State) : Answer :=
  s.event dt fun s => s.whenever (!s.hif.perst) fun s =>
    if setsBme then { s with hif := { s.hif with bme := true } } else { s with hif := { s.hif with d3hot := false } }

/-! ### IDENTIFY, STATUS, ECHO -/

/-- IDENTIFY (R496). -/
def identifyBody (c : Cmd) (s : State) : State :=
  s.checked c [] fun s =>
    let w0 := 0x4624 + Config.stepping.toNat * 2 ^ 16 + s.dev.seat % 1024 * 2 ^ 24 + s.rd Reg.DEV.BOOT.IMAGE * 2 ^ 34 +
      s.rd Reg.DEV.BOOT.SLOT * 2 ^ 35
    s.ok c [toWord w0, Config.serial, s.readReg Reg.FWU.VERSION.SLOTA.addr, toWord Config.romVersion.toNat]

/-- IDENTIFY's command. -/
def identifyCmd : Command := { op := 0x0001, len := exactly 0, svcOnly := false, inRom := true, body := identifyBody }

/-- IDENTIFY (R496). -/
def execIdentify (dt : Nat) (hdr : CmdHdr) (ws : List Word) (s : State) : Answer :=
  s.event dt fun s => s.issueCmd identifyCmd hdr ws

/-- Word 0 of a STATUS reply (R496). -/
def State.statusWord (s : State) : Word :=
  toWord (s.engine + s.power * 2 ^ 3 + s.rd Reg.DEV.READY.SELFTEST * 2 ^ 6 + s.rd Reg.DEV.READY.PASSED * 2 ^ 7 +
    b2n (s.lockEntry.any LockEntry.locked) * 2 ^ 8 + s.rd Reg.CFG.STAT.ACTIVE * 2 ^ 9 + s.rd Reg.DEV.BOOT.IMAGE * 2 ^ 10)

/-- STATUS (R496, R499). -/
def statusBody (c : Cmd) (s : State) : State :=
  s.checked c [(c.reserved [[(0, 0)]], stBadParam, 0)] fun s =>
    let drops := s.hif.drops.map fun d => toWord (d.1 % 2 ^ 16 + d.2 % 2 ^ 32 * 2 ^ 16)
    let kept := s.hif.retained.flatMap fun r => [r.w0, r.w1, r.w2, r.w3]
    let payload := [s.statusWord, toWord s.hif.dropTotal, toWord drops.length] ++ drops ++
      [toWord s.hif.retained.length] ++ kept
    (if c.b 0 0 then { s with hif := { s.hif with dropTotal := 0, drops := [] } } else s).ok c payload

/-- STATUS's command. -/
def statusCmd : Command := { op := 0x0002, len := exactly 1, svcOnly := false, inRom := true, body := statusBody }

/-- STATUS (R496). -/
def execStatus (dt : Nat) (hdr : CmdHdr) (ws : List Word) (s : State) : Answer :=
  s.event dt fun s => s.issueCmd statusCmd hdr ws

/-- ECHO (R496). -/
def echoBody (c : Cmd) (s : State) : State := s.checked c [] fun s => s.ok c c.payload

/-- ECHO's command. -/
def echoCmd : Command := command 0x0004 (fun ws => decide (ws.length ≤ 8192)) echoBody

/-- ECHO (R496). -/
def execEcho (dt : Nat) (hdr : CmdHdr) (ws : List Word) (s : State) : Answer :=
  s.event dt fun s => s.issueCmd echoCmd hdr ws

/-! ### LIMITS -/

/-- The clock domains that a wing's design uses. -/
def WingCfg.domains (w : WingCfg) : List Nat :=
  (w.cells.flatMap fun x => [x.2.fa.domain, x.2.fb.domain]) ++
    ((w.macs.filter fun m => m.2.mulmode ≠ .off).map fun m => m.2.domain) ++ w.attic.map fun p => p.domain

/-- The clock domains that the contexts in use use. -/
def State.domainsUsed (s : State) : List Nat :=
  (s.ctxsInUse.flatMap fun c => (s.ctx c).wings.flatMap fun w => w.2.domains).eraseDups

/-- The largest of the counts of some entries over `n` keys. -/
def largest (n : Nat) (count : Nat → Nat) : Nat := maxList ((List.range n).map count)

/-- The card entries that lie in a segment. -/
def State.cardUsed (s : State) : Nat :=
  ((List.range 4096).filter fun i => (List.range 4).any fun c =>
    decide (s.rd (Reg.STEP.CARDSEG.BASE c) ≤ i) &&
      decide (i < s.rd (Reg.STEP.CARDSEG.BASE c) + s.rd (Reg.STEP.CARDSEG.LEN c))).length

/-- The rows of R603: limit, in use, and whether the limit is a width. -/
def State.limitRows (s : State) : List (Nat × Nat × Bool) :=
  [(1024, 0, false), (65536, 65536 - s.rd Reg.NOC.STAT.FREETAGS, false), (64, 0, false), (64, s.inProgress, false),
    (16, 0, true), (32, 0, true),
    (65536, ringHolds (s.rd Reg.HIF.EVTTAIL.COUNT) (s.rd Reg.HIF.EVTHEAD.COUNT), false),
    (32, largest 8 fun t => (s.attic.table.filter fun r => r.1 = t).length, false),
    (64, largest 2 fun p => (s.g6.log.filter fun r => r.1 = p).length, false),
    (32, largest 2 fun p => (s.crypt.log.filter fun r => r.1 = p).length, false),
    (4096, s.cardUsed, false), (16, s.domainsUsed.length, false),
    (64, largest 512 fun w => (s.dbg.taps.filter fun t => t.wing = w).length, false),
    (16, ((List.range 16).filter fun k => s.cueFunc k ≠ 0).length, false), (8, s.cfg.jobs.length, false), (65535, 0, false),
    (16, s.g6.regions.length, false), (4, s.treeUnits.length, false),
    (8, largest 16 fun c => (s.crypt.blocked.filter fun b => b.channel = c).length, false),
    (16, largest 28 fun d => s.rd (Reg.CORR.DIR.MAXLOAD d), false), (256, s.dev.ledger.length, false),
    (16, s.cfg.lock.length, false), (2, (s.fw.slots.filter Option.isSome).length, false), (64, 0, true)]

/-- LIMITS (R603, R604). -/
def limitsBody (c : Cmd) (s : State) : State :=
  s.checked c [(c.reserved [[(0, 0)]], stBadParam, 0)] fun s =>
    if c.b 0 0 then
      let entry := fun (e : Nat × Nat × Nat × Nat × Nat × Nat) =>
        toWord (e.1 + e.2.1 * 2 ^ 4 + e.2.2.1 * 2 ^ 8 + e.2.2.2.1 % 1024 * 2 ^ 14 + e.2.2.2.2.1 * 2 ^ 24 + e.2.2.2.2.2 * 2 ^ 32)
      s.ok c (toWord (s.avoidMap.length % 65536) :: s.avoidMap.map entry)
    else
      s.ok c (s.limitRows.map fun r => toWord (r.1 + min r.2.1 (2 ^ 23 - 1) * 2 ^ 40 + b2n r.2.2 * 2 ^ 63))

/-- LIMITS's command. -/
def limitsCmd : Command := command 0x0007 (exactly 1) limitsBody

/-- LIMITS (R603). -/
def execLimits (dt : Nat) (hdr : CmdHdr) (ws : List Word) (s : State) : Answer :=
  s.event dt fun s => s.issueCmd limitsCmd hdr ws

end Sys2Proof.Machine
end

