-- ==== Sys2Proof/Machine/Clocks.lean ====
section
/-! DEFINITION. Reference clocks, loops, multiplexers and measurement (R547-R559, R582): CLK_SETUP, CLK_SWITCH, CLK_MEASURE
and the events of the clocks. -/

namespace Sys2Proof.Machine

/-! ### Setup -/

/-- The payload of CLK_SETUP: words 1 to 4 for ITEM 1 to 3, word 1 for ITEM 8 (assumption 28). -/
def clkSetupLen (ws : List Word) : Bool :=
  let item := bits (ws.getD 0 0).toNat 3 0
  ws.length == if 1 ≤ item ∧ item ≤ 3 then 5 else if item = 8 then 2 else 1

/-- The frequency of a reference input in Hz, in the order of R559: REFCLK_SYS, PCIE, ETH0, ETH1, AUX (R547). -/
def State.refHz (s : State) (r : Nat) : Nat :=
  if r = 1 then 100000000
  else if r = 4 then [10000000, 25000000, 100000000, 156250000].getD (s.rd Reg.CLK.SYSSPREAD.AUXFREQ) 0
  else 156250000

/-- The frequency of an OUT domain in Hz, by its source (R555). -/
def State.domFreq (s : State) (o : Nat) : Nat :=
  let src := s.rd (Reg.CLK.DOM.SRC (8 + o))
  if src = 0 then s.outFreq 11 o else s.refHz (if src = 1 then 0 else 4)

/-- The multiplexer domain of output `o` of loop `l` (R548, R555). -/
def outDomain (l o : Nat) : Nat := 4 * (l - 9) + o

/-- Whether some output of loop ML9 to ML11 that is on is selected by its domain (R557, R580). -/
def State.loopSelected (s : State) (l : Nat) : Bool :=
  (List.range 4).any fun o => s.outFreq l o != 0 && s.rd (Reg.CLK.DOM.SRC (outDomain l o)) == 0

/-- Whether the frequencies of a loop's four outputs lie in the range of R548; an output with SYSREF stays at 156.25 MHz
(R551). -/
def State.freqsBad (s : State) (l : Nat) (fs : List Nat) : Bool :=
  let top := if l = 11 then 350000000 else 800000000
  fs.any (fun f => f != 0 && !(decide (10000000 ≤ f) && decide (f ≤ top))) ||
    (l == 11 && (List.range 4).any fun o =>
      s.rdb (Reg.CLK.DOM.SYSREF (8 + o)) && s.rd (Reg.CLK.DOM.SRC (8 + o)) == 0 && fs.getD o 0 != 156250000)

/-- CLK_SETUP's fields outside R548 to R551; with DEPTH 0 there is no spread, and RATE may hold any value (DEDUCED, assumption
125). -/
def State.clkSetupBad (s : State) (c : Cmd) : Bool :=
  let item := c.f 0 3 0
  let depth := c.f 0 20 16
  let rate := c.f 0 30 24
  let spread := item == 0 || (decide (4 ≤ item) && decide (item ≤ 7))
  let fields := if item = 0 then [(3, 0), (20, 16), (30, 24)]
    else if item ≤ 3 then [(3, 0), (9, 8)]
    else if item ≤ 7 then [(3, 0), (20, 16), (30, 24), (32, 32)] else [(3, 0)]
  decide (8 < item) || badBits (c.w 0) fields ||
    (spread && (decide (20 < depth) || (depth != 0 && !(decide (25 ≤ rate) && decide (rate ≤ 64))))) ||
    (decide (1 ≤ item) && decide (item ≤ 3) &&
      ((List.range 4).any (fun i => badBits (c.w (1 + i)) [(39, 0)]) ||
        s.freqsBad (8 + item) ((List.range 4).map fun i => c.w (1 + i)))) ||
    (decide (4 ≤ item) && c.b 0 32 && s.domFreq (item - 4) != 156250000) ||
    (item == 8 && badBits (c.w 1) [(1, 0)])

/-- The declared spread of REFCLK_SYS changes: the HOST domains take its mean rate (R550). -/
def State.setSpread (s : State) (depth rate : Nat) : State :=
  let s := (s.wr Reg.CLK.SYSSPREAD.DEPTH depth).wr Reg.CLK.SYSSPREAD.RATE (if depth = 0 then 0 else rate)
  [0, 1].foldl (fun s d =>
    if s.domSource d = 1 then
      let s := s.setDom d { s.dom d with rate := hostRate depth }
      if s.selected = d then s.followRate else s
    else s) s

/-- A loop of ML9 to ML11 set up (R548): it is unlocked until it relocks, and holds 1 BU while an output is on. -/
def State.setLoop (s : State) (l ref : Nat) (fs : List Nat) : State :=
  let was := s.loopOn l
  let freq := fs.zipIdx.foldl (fun m f => m.upd 0 ((l - 9) * 4 + f.2) f.1) s.clk.freq
  let s := { s with clk := { s.clk with loopRef := s.clk.loopRef.upd 0 l ref, freq := freq } }
  let s := (s.wrBit Reg.CLK.STAT.LOCKED l false).wrBit Reg.CLK.STAT.COAST l false
  if s.loopOn l && !was then s.grantAlways 0x14 1 else if was && !s.loopOn l then s.ungrant 0x14 1 else s

/-- An OUT domain's spread and SYSREF set (R549, R551). -/
def State.setOut (s : State) (o depth rate : Nat) (sysref : Bool) : State :=
  let s := { s with clk := { s.clk with
    outDepth := s.clk.outDepth.upd 0 o depth, outRate := s.clk.outRate.upd 0 o (if depth = 0 then 0 else rate) } }
  (s.wrb (Reg.CLK.DOM.SPREAD (8 + o)) (depth != 0)).wrb (Reg.CLK.DOM.SYSREF (8 + o)) sysref

/-- REFCLK_AUX's frequency set: the loops that it feeds relock (R547, R582). -/
def State.setAux (s : State) (code : Nat) : State :=
  let s := s.wr Reg.CLK.SYSSPREAD.AUXFREQ code
  ((List.range 12).filter fun l => s.loopOn l && s.loopRef l == 4).foldl (fun s l =>
    s.wrBit Reg.CLK.STAT.LOCKED l false) s

/-- CLK_SETUP (R378, R547-R551, R580, R582). -/
def clkSetupBody (c : Cmd) (s : State) : State :=
  let item := c.f 0 3 0
  let depth := c.f 0 20 16
  let rate := c.f 0 30 24
  let freqs := (List.range 4).map fun i => c.w (1 + i)
  let isLoop := decide (1 ≤ item) && decide (item ≤ 3)
  let onSys := item == 0 || (decide (4 ≤ item) && decide (item ≤ 7) && c.b 0 32)
  let l := 8 + item
  s.checked c
    [(s.clkSetupBad c, stBadParam, 0),
     ((item == 0 && s.engine == seRunning) || (onSys && !spreadOk depth rate && !s.groups.isEmpty) ||
        (isLoop && s.loopSelected l) ||
        (item == 8 && [0, 1].any fun d => s.domState d != dsOff && s.domPath d == 1), stState, 0),
     (isLoop && !s.loopOn l && freqs.any (· != 0) && decide (s.freeBu < 1), stBudget, 0)]
    fun s =>
      let s := if item = 0 then s.setSpread depth rate
        else if isLoop then s.setLoop l (c.f 0 9 8) freqs
        else if item = 8 then s.setAux (c.f 1 1 0)
        else s.setOut (item - 4) depth rate (c.b 0 32)
      s.ok c []

/-- CLK_SETUP's command. -/
def clkSetupCmd : Command := command 0x0A01 clkSetupLen clkSetupBody

/-- CLK_SETUP (R582). -/
def execClkSetup (dt : Nat) (hdr : CmdHdr) (ws : List Word) (s : State) : Answer :=
  s.event dt fun s => s.issueCmd clkSetupCmd hdr ws

/-! ### Multiplexers -/

/-- A domain's FIFOs emptied and their overflow flags cleared, in every bank it clocks (R558). -/
def State.emptyFifos (s : State) (d : Nat) : State :=
  { s with pins := { s.pins with fifos := s.pins.fifos.filter fun f => s.rd (Reg.IOB.CFG.DOMAIN f.bank) ≠ d } }

/-- A domain pending toward a source; what was pending there ends (R556, R558). -/
def State.setPending (s : State) (d src : Nat) (cmd : Nat) (reset : Bool) : State :=
  let old := s.clk.pend.find? fun (p : Nat × Nat × Option Nat × Bool) => p.1 = d
  let s := { s with clk := { s.clk with
    pend := s.clk.pend.filter (fun (p : Nat × Nat × Option Nat × Bool) => p.1 ≠ d) ++ [(d, s.now, some cmd, reset)] } }
  let s := (s.wr (Reg.CLK.DOM.TARGET d) src).wr (Reg.CLK.DOM.PENDING d) 1
  let s := if reset then s.wr (Reg.CLK.DOM.STUCK d) 0 else s
  match old with
  | some (_, _, some id, _) => s.complete id stAborted 0 []
  | _ => s

/-- CLK_SWITCH (R555-R558). -/
def clkSwitchBody (c : Cmd) (s : State) : State :=
  let d := c.f 0 3 0
  let src := c.f 0 5 4
  let reset := c.b 0 8
  s.checked c
    [(c.reserved [[(3, 0), (5, 4), (8, 8)]] || decide (11 < d) || !srcListed d src, stBadParam, 0),
     (!s.srcReady d src, stState, 1),
     (!reset && !s.srcRuns d (s.rd (Reg.CLK.DOM.SRC d)), stState, 2),
     (!reset && s.rdb (Reg.CLK.DOM.PENDING d), stBusy, 0)]
    fun s =>
      let s := s.setPending d src c.id reset
      if reset ∧ d < 8 then s.emptyFifos d else s

/-- CLK_SWITCH's command. -/
def clkSwitchCmd : Command := command 0x0A02 (exactly 1) clkSwitchBody

/-- CLK_SWITCH (R556). -/
def execClkSwitch (dt : Nat) (hdr : CmdHdr) (ws : List Word) (s : State) : Answer :=
  s.event dt fun s => s.issueCmd clkSwitchCmd hdr ws

/-- MUX_SWITCH_COMPLETE (R556-R558): the domain runs on its new source, where both clocks run; a domain reset needs the new
one only. -/
def execMuxSwitchComplete (dt domain : Nat) (s : State) : Answer :=
  s.event dt fun s =>
    match s.clk.pend.find? fun p => p.1 = domain with
    | none => s
    | some (_, _, cmd, reset) =>
      let src := s.rd (Reg.CLK.DOM.TARGET domain)
      s.whenever (s.srcRuns domain src && (reset || s.srcRuns domain (s.rd (Reg.CLK.DOM.SRC domain)))) fun s =>
        let s := s.domSwitched domain src reset
        match cmd with
        | some id => s.complete id stOk 0 []
        | none => s

/-- MUX_PENDING_TIMEOUT (R557): after 1 ms the domain is stuck; it stays pending. -/
def execMuxPendingTimeout (dt domain : Nat) (s : State) : Answer :=
  s.event dt fun s =>
    match s.clk.pend.find? fun p => p.1 = domain with
    | none => s
    | some (_, since, cmd, reset) =>
      s.whenever (!reset && !s.rdb (Reg.CLK.DOM.STUCK domain) && decide (since + fsMs ≤ s.now)) fun s =>
        let s := { s with clk := { s.clk with pend := s.clk.pend.map fun (p : Nat × Nat × Option Nat × Bool) =>
          if p.1 = domain then (domain, since, none, false) else p } }
        let s := (s.wr (Reg.CLK.DOM.STUCK domain) 1).post 0x0A03 sevError srcDevice domain
        match cmd with
        | some id => s.complete id stTimeout 0 []
        | none => s

/-! ### Measurement -/

/-- CLK_MEASURE (R559, R582). -/
def clkMeasureBody (c : Cmd) (s : State) : State :=
  let gate := c.f 0 25 16
  s.checked c
    [(c.reserved [[(5, 0), (25, 16)]] || decide (36 < c.f 0 5 0) || gate == 0 || decide (1000 < gate), stBadParam, 0),
     (decide (4 ≤ s.clk.measures.length), stBusy, 0)]
    fun s => { s with clk := { s.clk with measures := s.clk.measures ++
      [Measuring.mk c.id (c.f 0 5 0) gate s.now false] } }

/-- CLK_MEASURE's command. -/
def clkMeasureCmd : Command := command 0x0A03 (exactly 1) clkMeasureBody

/-- CLK_MEASURE (R582). -/
def execClkMeasure (dt : Nat) (hdr : CmdHdr) (ws : List Word) (s : State) : Answer :=
  s.event dt fun s => s.issueCmd clkMeasureCmd hdr ws

/-- CLK_MEASURE_GATE_END (R580, R582): the edges counted, and the time-clock periods of the gate. -/
def execClkMeasureGateEnd (dt clock edges : Nat) (s : State) : Answer :=
  s.event dt fun s =>
    match s.clk.measures.find? fun m => m.clock = clock ∧ m.began + m.gate * fsMs ≤ s.now with
    | none => s
    | some m =>
      { s with clk := { s.clk with measures := s.clk.measures.erase m } }.complete m.cmd stOk (b2n m.relocked)
        [toWord edges, toWord (m.gate * 500000)]

/-- FREQUENCY_COUNT_INTERVAL (R552, R559): the counters show what each clock counted; a reference input or pin clock that
shows edges again is present. -/
def execFrequencyCountInterval (dt : Nat) (khz : List (Nat × Nat)) (s : State) : Answer :=
  s.event dt fun s => s.periodic 1 fsMs fun s => (khz.filter fun x => x.1 < 37).foldl (fun s x =>
    let i := x.1
    let s := (s.wr (Reg.CLK.FREQ.KHZ i) (min x.2 (2 ^ 32 - 1))).wrb (Reg.CLK.FREQ.PRESENT i) (x.2 != 0)
    if x.2 = 0 then s
    else if i < 5 then
      let back := !bit (s.rd Reg.CLK.STAT.REFOK) i
      let s := s.wrBit Reg.CLK.STAT.REFOK i true
      if i = 1 ∧ back then s.linkTrain else s
    else if 29 ≤ i then s.wrBit Reg.CLK.STAT.GCLKOK (i - 29) true
    else s) s

/-! ### Losses and returns -/

/-- REFERENCE_LOSS (R552-R554): a reference input, a loop or a pin clock that was present is lost. -/
def execReferenceLoss (dt clock : Nat) (s : State) : Answer :=
  s.event dt fun s =>
    let present := if clock < 5 then bit (s.rd Reg.CLK.STAT.REFOK) clock
      else if clock < 17 then s.loopOn (clock - 5) && !s.coastsTruly (clock - 5)
      else decide (29 ≤ clock) && decide (clock < 37) && bit (s.rd Reg.CLK.STAT.GCLKOK) (clock - 29)
    s.whenever present fun s => s.clockLost clock

/-- LOOP_RELOCK (R553, R554, R580, R582): a coasting loop whose reference returns, or a loop set up, locks. -/
def execLoopRelock (dt clock : Nat) (s : State) : Answer :=
  s.event dt fun s =>
    let l := clock - 5
    s.whenever (decide (5 ≤ clock) && decide (clock < 17) && s.loopOn l) fun s =>
      let mark := fun (m : Measuring) => if m.clock = clock then { m with relocked := true } else m
      if s.coastsTruly l then
        let s := (s.wrBit Reg.CLK.STAT.REFOK (s.loopRef l) true).loopBack l
        { s with clk := { s.clk with measures := s.clk.measures.map mark } }
      else if !bit (s.rd Reg.CLK.STAT.LOCKED) l && bit (s.rd Reg.CLK.STAT.REFOK) (s.loopRef l) then
        s.wrBit Reg.CLK.STAT.LOCKED l true
      else s

/-- REFCLK_AUX_PRESENT (R421, R548): ML1 starts when REFCLK_AUX is first present. -/
def execRefclkAuxPresent (dt : Nat) (s : State) : Answer :=
  s.event dt fun s => s.whenever (!s.time.ml1) fun s =>
    { s with time := { s.time with ml1 := true } }.wrBit Reg.CLK.STAT.REFOK 4 true

end Sys2Proof.Machine
end

