-- ==== Sys2Proof/Machine/ReelMode.lean ====
section
/-! DEFINITION. Multi-device steps (R444-R461): REEL_JOIN, values from other seats, the promise window and the guard, HOLD and
STOP frames. -/

namespace Sys2Proof.Machine

/-! ### The schedule -/

/-- L_m in units of 2^-16 ns (R444). -/
def Reel.launchUnits (r : Reel) (m : Nat) : Nat := r.t0 + ((m - r.m0) * r.period + r.slip) * tickUnits

/-- The number of the next step that has not launched. -/
def State.nextStep (s : State) : Nat := s.rd Reg.STEP.COUNT.COUNT + b2n s.step.cur.isSome

/-- The reel's record changed, with the registers that show S and h (R466). -/
def State.setReel (s : State) (r : Reel) : State :=
  let s := { s with time := { s.time with reel := some r } }
  (s.wr Reg.TIME.REELSLIP.VALUE r.slip).wr Reg.TIME.REELLAST.VALUE (unsigned 64 r.hold)

/-- Whether step `m` lies in the shadow of the last hold (R453). -/
def Reel.inShadow (r : Reel) (m : Nat) : Bool := decide ((m : Int) ≤ r.hold + r.window)

/-- A hold for step `m` applied (R454): S grows by G for every step not launched, h is `m`, the hold is forwarded. -/
def State.applyHold (s : State) (m seat hops : Nat) (arrived : Option Nat) : State :=
  match s.time.reel with
  | none => s
  | some r =>
    let r := { r with slip := r.slip + r.guard, hold := m }
    let s := (s.setReel r).count Reg.TIME.REELCNT.HOLDS 1
    let s := s.setCueUnits (s.rd Reg.TIME.REEL.CUE) (r.launchUnits s.nextStep)
    let run := s.step.run.map fun x => { x with fallen := x.tick }
    let s := { s with step := { s.step with run := run } }
    let s := s.sendHold 1 m seat false hops arrived
    s.postLimited 0x0809 seat sevInfo srcDevice seat

/-- The cross-seat channels of a step that begins under context `c` whose values are missing: channel and group (R450). -/
def State.missing (s : State) (c m : Nat) : List (Nat × Nat) :=
  let ins := ((s.stepCtxs c).flatMap fun d => (s.ctx d).porchIns).filterMap fun p =>
    p.cross.map fun x => (p.porch, p.chan, x)
  let taken := fun (porch chan : Nat) =>
    match s.step.cur with
    | some r => r.inputs.any fun v => v.1 = porch ∧ v.2.1 = chan
    | none => false
  let arrived := fun (x : Nat × Nat) =>
    match s.group x.2 with
    | some g => g.landing.any fun l => l.1 = m % 2 ^ 48 ∧ l.2.1 = x.1
    | none => false
  ((ins.filter fun p => !taken p.1 p.2.1 && !arrived p.2.2).map fun p => p.2.2).eraseDups

/-- The context of the step that runs or launches next. -/
def State.currentCtx (s : State) : Nat := match s.step.cur with
  | some r => r.ctx
  | none => s.nextCtx

/-- The promise window of the step that runs or launches next closes at L_m (R450, R454, R455): each value that has not
arrived is late, and a hold is applied outside the shadow. -/
def State.closeWindow (s : State) : State :=
  match s.time.reel with
  | none => s
  | some r =>
    let m := s.rd Reg.STEP.COUNT.COUNT
    let lm := r.launchUnits m
    let open_ := r.closed.all fun c => c.1 != m
    if s.rd Reg.STEP.CTRL.MODE = 3 ∧ s.stepping ∧ open_ ∧ (s.step.cur.isSome ∨ lm * 65536 ≤ s.time.out) then
      let late := s.missing s.currentCtx m
      let s := s.setReel { r with closed := some (m, lm), late := late.map Prod.fst }
      let ns := min ((s.time.out - lm * 65536) / 2 ^ 32) 65535
      let s := late.foldl (fun s x =>
        (s.count Reg.TIME.REELCNT.LATE 1).postLimited 0x0808 0 sevWarn srcDevice (x.1 + ns * 2 ^ 16)) s
      if !late.isEmpty && !r.inShadow m then s.applyHold m s.dev.seat 0 none else s
    else s

/-- PROMISE_WINDOW_CLOSE (R450). -/
def execPromiseWindowClose (dt : Nat) (s : State) : Answer := s.event dt State.closeWindow

/-- Late channels of the step that runs or launches next whose values are still missing. -/
def State.stillLate (s : State) : List Nat :=
  match s.time.reel with
  | none => []
  | some r =>
    let m := s.rd Reg.STEP.COUNT.COUNT
    if r.closed.any fun c => c.1 = m then ((s.missing s.currentCtx m).map Prod.fst).filter r.late.contains else []

/-- REEL_GUARD_EXPIRY (R452): a late value that has not arrived by L_m + G. -/
def execReelGuardExpiry (dt : Nat) (s : State) : Answer :=
  s.event dt fun s =>
    match s.time.reel, s.stillLate with
    | some r, chan :: _ =>
      let end_ := ((r.closed.map Prod.snd).getD 0 + r.guard * tickUnits) * 65536
      s.whenever (s.rd Reg.STEP.CTRL.MODE == 3 && s.stepping && decide (end_ ≤ s.time.out)) fun s =>
        let m := s.rd Reg.STEP.COUNT.COUNT
        let s := s.post 0x080B sevError srcDevice (chan + m % 2 ^ 48 * 2 ^ 16)
        (s.sendHold 2 m s.dev.seat true 0 none).halts true 7 seHalted
    | _, _ => s

/-! ### Values -/

/-- A remote value of the step in progress arrives (R449-R451): the landing logic takes it, and the porch sends the token of a channel
that the phase waits for. -/
def State.valueArrives (s : State) (chan first : Nat) : State :=
  match s.step.cur with
  | none => s
  | some r =>
    let late := s.time.reel.any fun x => x.late.contains chan
    let s := if late then s.setCur { r with remoteLast := s.now - r.launchAt } else s
    ((s.ctx (s.phaseCtx r)).porchIns.filter fun p => p.cross = some (chan, first) ∧
      !(r.inputs.any fun v => v.1 = p.porch ∧ v.2.1 = p.chan)).foldl State.sendInput s.takeRemotes

/-- What an accepted VALUE frame does (R448-R450): its value waits in the landing buffer until its step launches; a frame of a step
that has ended is discarded. -/
def State.takeValue (s : State) (first : Nat) (word : Word) (value : List Word) : State :=
  let s := s.closeWindow
  let m := fieldOf word 47 0
  let chan := fieldOf word 63 48
  if m < s.rd Reg.STEP.COUNT.COUNT % 2 ^ 48 then (s.count Reg.TIME.REELCNT.LATE 1).freeSlotOf first 1
  else
    match s.group first with
    | none => s
    | some g =>
      let s := s.setGroup { g with landing := g.landing ++ [(m, chan, value)] }
      if m = s.rd Reg.STEP.COUNT.COUNT % 2 ^ 48 then s.valueArrives chan first else s

/-- VALUE_FRAME_RECEIVE (R387, R391, R448-R450); a frame of a KIND that R387 does not name arrives by this row too. -/
def execValueFrameReceive (dt first fseq expseq ctl : Nat) (word : Word) (payload : List Word) (crc : Nat) (others : List LaneBlock)
    (s : State) : Answer :=
  let frame := rxFrame fseq expseq ctl word payload crc others
  s.event dt fun s =>
    s.whenever (s.laneHears first && (decide (rxKind frame ≤ 1) || decide (5 < rxKind frame))) fun s =>
      s.receive first frame fun s => s.takeValue first frame.word frame.payload

/-! ### HOLD and STOP frames -/

/-- Whether a HOLD or STOP frame carries the seat's reel ID (R457). -/
def State.ownReel (s : State) (word : Word) : Bool :=
  s.rdb Reg.TIME.REEL.JOINED && s.time.reel.isSome && fieldOf word 63 52 == s.rd Reg.TIME.REEL.REELID

/-- A HOLD frame (R454, R455). -/
def State.takeHold (s : State) (first : Nat) (word p : Word) : State :=
  match s.time.reel with
  | none => s
  | some r =>
    let m := fieldOf word 47 0
    if r.inShadow m then s else s.applyHold m (fieldOf p 9 0) (fieldOf p 31 24 + 1) (some first)

/-- A STOP frame (R458, R459, R462): forwarded; the seat halts at the end of step k, or with FAULT at the end of the step in
progress, abandoning one that waits for a late value. -/
def State.takeStop (s : State) (first : Nat) (word p : Word) : State :=
  let k := fieldOf word 47 0
  let seat := fieldOf p 9 0
  let fault := flagOf p 16
  let s := s.sendHold 2 k seat fault (fieldOf p 31 24 + 1) (some first)
  match s.time.reel with
  | none => s
  | some r =>
    if !s.stepping || s.rd Reg.STEP.CTRL.MODE != 3 then s
    else
      let s := s.post 0x080A sevInfo srcDevice (seat + b2n fault * 2 ^ 10)
      let now := s.rd Reg.STEP.COUNT.COUNT
      if fault then
        if !s.stillLate.isEmpty then s.halts true 7 seHalted
        else if s.step.cur.isNone then s.stopEngine 7 seHalted
        else s.setReel { r with stopAt := some (now, 7) }
      else
        let stop := match r.stopAt with
          | some (j, c) => if k < now ∨ j ≤ k then (j, c) else (k, 7)
          | none => (k, 7)
        let s := s.setReel { r with stopAt := some stop }
        if s.step.cur.isNone ∧ stop.1 < now then s.stopEngine stop.2 seHalted else s

/-- What an accepted frame of KIND 0x4 does, by its HKIND (R457). -/
def State.takeHoldFrame (s : State) (first : Nat) (word p : Word) : State :=
  if !s.ownReel word then s.count (Reg.LANE.LINK1.CRCERR first) 1
  else if fieldOf word 51 48 = 1 then s.takeHold first word p
  else if fieldOf word 51 48 = 2 then s.takeStop first word p
  else s

/-- HOLD_FRAME_RECEIVE (R391, R454, R455, R457); a frame of KIND 0x4 with an HKIND that R457 does not name arrives by this row too, and
does nothing once accepted (DESIGN CHOICE, assumption 115). -/
def execHoldFrameReceive (dt first fseq expseq ctl : Nat) (word : Word) (payload : List Word) (ending : FrameEnd) (s : State) :
    Answer :=
  let frame := rxFrame fseq expseq ctl word payload ending.crc ending.others
  s.event dt fun s =>
    s.whenever (s.laneHears first && rxKind frame == kindHold && fieldOf frame.word 51 48 != 2) fun s =>
      s.receive first frame fun s => s.takeHoldFrame first frame.word (frame.payload.headD 0)

/-- STOP_FRAME_RECEIVE (R391, R457-R459). -/
def execStopFrameReceive (dt first fseq expseq ctl : Nat) (word : Word) (payload : List Word) (ending : FrameEnd) (s : State) :
    Answer :=
  let frame := rxFrame fseq expseq ctl word payload ending.crc ending.others
  s.event dt fun s =>
    s.whenever (s.laneHears first && rxKind frame == kindHold && fieldOf frame.word 51 48 == 2) fun s =>
      s.receive first frame fun s => s.takeHoldFrame first frame.word (frame.payload.headD 0)

/-! ### REEL_JOIN -/

/-- REEL_JOIN (R444-R446, R456, R461, R464). -/
def reelJoinBody (c : Cmd) (s : State) : State :=
  let cue := c.f 0 15 12
  let diam := c.f 0 25 16
  let period := c.f 1 19 0
  let guard := c.f 2 23 0
  let t0 := timeUnits (c.w 3) (c.w 4)
  let groups := (List.range 64).filter fun n => c.b 5 n
  let hop := s.reelHop groups
  let ahead := t0 - s.outUnits
  let msUnits := 1000000 * 65536
  let cs := s.ctxsInUse
  let demand := s.demandOf 3 s.ctxMode period cs
  let old := s.rd Reg.TIME.REEL.CUE
  s.checked c
    [(c.reserved [[(11, 0), (15, 12), (25, 16)], [(19, 0)], [(23, 0)], [(47, 0)], [(47, 0)], [(63, 0)]] || diam == 0 ||
        decide (guard < 100) || decide (10000000 < guard) || timeBad (c.w 3) || decide (ahead < msUnits) ||
        decide (1000000 * msUnits < ahead) || decide (period < maxList (s.promises s.ctxMode cs) + hop) ||
        decide (8 * guard < diam * (hop + 192)), stBadParam, 0),
     (s.engine ≠ seHalted || groups.any (fun g => !((s.group g).isSome && s.laneUp g)) ||
        s.domState s.selected != dsLocked ||
        s.runSegments.any (fun d => s.rd (Reg.STEP.CARDSEG.LEN d) == 0) || decide (2 ≤ s.power) || s.pwr.target.isSome,
        stState, 0),
     (s.engineBusy, stBusy, 0),
     (!s.cueFree cue fnStep, stTaken, 0),
     ((s.requestDemand demand true).isNone, stBudget, 0),
     (s.badParts, stHwFault, 0)]
    fun s =>
      let s := (s.requestDemand demand true).getD s
      let s := if s.rdb Reg.TIME.REEL.JOINED && old != cue then s.releaseCue old else s
      let s := if s.rdb Reg.STEP.PACE.CUESTART && s.rd Reg.STEP.PACE.CUE != cue && s.cueFunc (s.rd Reg.STEP.PACE.CUE) == fnStep
        then s.releaseCue (s.rd Reg.STEP.PACE.CUE) else s
      let m0 := s.rd Reg.STEP.COUNT.COUNT
      let r := Reel.mk t0 period (8 * guard) m0 0 0 groups none none []
      let s := s.setReel { r with hold := (m0 : Int) - r.window - 1 }
      let s := s.store Reg.TIME.REEL.REELID.addr
        (toWord (c.f 0 11 0 + 2 ^ 12 + cue * 2 ^ 16 + diam * 2 ^ 20 + guard * 2 ^ 32))
      let s := ((s.wr Reg.STEP.CTRL.MODE 3).wr Reg.STEP.PACE.PERIOD period).wr Reg.STEP.PACE.CUESTART 0
      let s := (s.claimCue cue fnStep).armCue cue t0 period
      (s.pacingSync).startRun (some c.id) none

/-- REEL_JOIN's command. -/
def reelJoinCmd : Command := command 0x0804 (exactly 6) reelJoinBody

/-- REEL_JOIN (R464). -/
def execReelJoin (dt : Nat) (hdr : CmdHdr) (ws : List Word) (s : State) : Answer :=
  s.event dt fun s => s.issueCmd reelJoinCmd hdr ws

end Sys2Proof.Machine
end

