-- ==== Sys2Proof/Machine/Keeper.lean ====
section
/-! DEFINITION. Keeper's command paths (R482-R491, R626-R628): the opcode table, the parsing of packets, the command ring, the
mailbox, the service port. -/

namespace Sys2Proof.Machine

/-! ### The opcode table -/

/-- The commands of R492. -/
def opcodeTable : List Command :=
  [identifyCmd, statusCmd, resetCmd, echoCmd, ownerLockCmd, ownerUnlockCmd, limitsCmd] ++
  [stepConfigureCmd, cardLoadCmd, stepRunCmd, stepHaltCmd, stepSingleCmd, stepStatusCmd, stateSaveCmd, stateRestoreCmd] ++
  [ctxStageCmd, ctxModeCmd, ctxSelectCmd, scrubCmd, atcErrlogCmd, atcFillCmd, blockRemapCmd] ++
  [nocStatsCmd, nocQuotaCmd, corrStatusCmd, g6InitCmd, g6MapCmd, g6ErrlogCmd, g6QosCmd, cryptEnableCmd, cryptStatusCmd] ++
  [laneSetupCmd, laneLoopCmd, laneStatusCmd, laneSleepCmd, timeDomainSetupCmd, timeSelectCmd, cueSetCmd, reelJoinCmd] ++
  [cfgBeginCmd, cfgEndCmd, cfgAbortCmd, cfgWingCmd, sigStatusCmd, clkSetupCmd, clkSwitchCmd, clkMeasureCmd] ++
  [pwrStateCmd, budgetQueryCmd, budgetRequestCmd, thermalLimitsCmd, patrolSetupCmd] ++
  [fwInfoCmd, fwStageBeginCmd, fwStageDataCmd, fwStageEndCmd, fwActivateAtCmd, fwCancelCmd] ++
  [probeRouteCmd, traceSetupCmd, traceReadCmd, perturbCmd, testUnlockCmd]

/-- The command of an opcode; an opcode that R492 does not list returns BAD_OPCODE (R494, R495). -/
def commandOf (op : Nat) : Command :=
  (opcodeTable.find? fun k => k.op = op).getD
    { op := op, len := fun _ => true, svcOnly := false, inRom := true, body := fun c s => s.answer c stBadOpcode 0 [] }

/-! ### The command ring -/

/-- Fetching stops with a cause (R483). -/
def State.stall (s : State) (cause : Nat) : State := (s.wr Reg.HIF.QSTAT.STALLED 1).wr Reg.HIF.QSTAT.STALLCAUSE cause

/-- A packet that is taken as two words long returns LENGTH_ERROR, and fetching stops (R483). -/
def State.lengthError (s : State) (w0 : Word) (cause : Nat) : State :=
  let s := { s with hif := { s.hif with tailWait := none } }
  let s := s.wr Reg.HIF.CMDHEAD.COUNT (s.rd Reg.HIF.CMDHEAD.COUNT + 2)
  (s.deliver ((s.headerOnly .ring w0).reply stLength 0 [])).stall cause

/-- A packet whose words the ring does not hold yet waits for the tail (R483). -/
def State.waitTail (s : State) (w0 : Word) (need : Nat) : State :=
  let since := match s.hif.tailWait with
    | some t => t.1
    | none => s.now
  { s with hif := { s.hif with tailWait := some (since, w0, need) } }

/-- The packet at CMDHEAD, whose words a read of the command ring returned (R483-R485, R487). -/
def State.fetchWords (s : State) (ws : List Word) (desc : HostRead) : State :=
  let held := ringHolds (s.rd Reg.HIF.CMDTAIL.COUNT) (s.rd Reg.HIF.CMDHEAD.COUNT)
  let w0 := ws.getD 0 0
  let w1 := ws.getD 1 0
  let n := fieldOf w1 19 0
  if held < 2 then s.waitTail w0 2
  else if 8192 < n then s.lengthError w0 1
  else if held < 2 + n then s.waitTail w0 (2 + n)
  else
    let c := s.parse .ring w0 w1 ((List.range n).map fun i => ws.getD (2 + i) 0) desc
    let s := { s with hif := { s.hif with tailWait := none } }
    (s.wr Reg.HIF.CMDHEAD.COUNT (s.rd Reg.HIF.CMDHEAD.COUNT + 2 + n)).holdCmd c

/-- A read of the command ring fails (R483). -/
def State.fetchFails (s : State) : State :=
  let head := s.rd Reg.HIF.CMDHEAD.COUNT
  let c := { s.headerOnly .ring 0 with epoch := s.rd Reg.HIF.QSTAT.EPOCH }
  let s := { s with hif := { s.hif with tailWait := none } }
  ((s.deliver (c.reply stAborted head [])).wr Reg.HIF.ERR.FETCHERR 1).stall 4

/-- COMMAND_FETCH (R483): Keeper reads the packet at CMDHEAD; `packet` is what host memory returns for its words, `desc` for
those that its descriptor names. -/
def execCommandFetch (dt : Nat) (packet desc : HostRead) (s : State) : Answer :=
  s.event dt fun s =>
    s.whenever (s.mayFetch && s.rd Reg.HIF.CMDTAIL.COUNT != s.rd Reg.HIF.CMDHEAD.COUNT) fun s =>
      match packet with
      | .words ws => s.fetchWords ws desc
      | .failed => s.fetchFails

/-- PACKET_TAIL_TIMEOUT (R483): a packet has waited 10 ms for the tail to cover it. -/
def execPacketTailTimeout (dt : Nat) (s : State) : Answer :=
  s.event dt fun s =>
    match s.hif.tailWait with
    | none => s
    | some (t, w0, need) =>
      let held := ringHolds (s.rd Reg.HIF.CMDTAIL.COUNT) (s.rd Reg.HIF.CMDHEAD.COUNT)
      s.whenever (s.rdb Reg.HIF.QCTRL.ENABLE && !s.rdb Reg.HIF.QSTAT.STALLED && decide (held < need) &&
          decide (t + 10 * fsMs ≤ s.now)) fun s => s.lengthError w0 2

/-- The first command that may start: of the ring's only the oldest, and with FENCE only after every earlier one has
replied (R485). -/
def State.startable (s : State) : Option Cmd :=
  let ringBusy := (s.hif.running.any fun c => c.path == .ring) || s.hif.replies.any fun r => r.path == .ring
  let oldest := s.hif.fetched.find? fun c => c.path == .ring
  s.hif.fetched.find? fun c => c.path != .ring || (oldest == some c && !(c.fence && ringBusy))

/-- COMMAND_START (R485): a command that waits starts, and is checked against the state of the device now. -/
def execCommandStart (dt : Nat) (s : State) : Answer :=
  s.event dt fun s =>
    match s.startable with
    | none => s
    | some c => s.whenever (!s.keeperDown && decide (s.inProgress < 64)) fun s =>
        { s with hif := { s.hif with fetched := s.hif.fetched.erase c } }.begin (commandOf c.opcode) c

/-! ### The mailbox -/

/-- A packet arrives by a path that starts it at once, or waits while Keeper runs no image. -/
def State.arrive (s : State) (c : Cmd) : State := if s.keeperDown then s.holdCmd c else s.begin (commandOf c.opcode) c

/-- MBOX_GO (R491): 1 written to GO; `desc` is what host memory returns for the words that a descriptor names. -/
def execMboxGo (dt : Nat) (desc : HostRead) (s : State) : Answer :=
  s.event dt fun s => s.access Reg.HIF.MBOXCTL.GO.addr fun s => s.mboxGo desc State.arrive

/-! ### The service port -/

/-- SVC_ALERT_N is driven low while a reply waits on the service port (R628). -/
def State.svcAlertLow (s : State) : Bool := !s.hif.svcReplies.isEmpty

/-- SVC_WRITE (R627, R628): one command packet; discarded while four replies wait. -/
def execSvcWrite (dt : Nat) (packet : List Word) (desc : HostRead) (s : State) : Answer :=
  s.event dt fun s =>
    if 4 ≤ s.hif.svcReplies.length then s.wr Reg.FWU.STAT.SVCOVF 1
    else s.whenever (decide (2 ≤ packet.length)) fun s =>
      let w0 := packet.getD 0 0
      let w1 := packet.getD 1 0
      let n := fieldOf w1 19 0
      if 8192 < n ∨ packet.length ≠ 2 + n then s.arrive (s.headerOnly .service w0)
      else s.arrive (s.parse .service w0 w1 (packet.drop 2) desc)

/-- SVC_READ (R627): the oldest reply that waits, or one word of zero. -/
def execSvcRead (dt : Nat) (s : State) : Answer :=
  s.event dt fun s =>
    match s.hif.svcReplies with
    | [] => s.send (.svcWords [0])
    | r :: rest => ({ s with hif := { s.hif with svcReplies := rest } }.writeRbuf r).send (.svcWords (r.packet 8192))

/-- SVC_STAT (R627). -/
def execSvcStat (dt : Nat) (s : State) : Answer :=
  s.event dt fun s => s.send (.svcWords [s.readReg Reg.FWU.STAT.SLOT.addr])

end Sys2Proof.Machine
end

