-- ==== Sys2Proof/Machine/Dispatch.lean ====
section
/-! DEFINITION. One arm for each command: the meaning it calls. -/

namespace Sys2Proof.Machine

/-- The effect of a command on everything but the queue. -/
def exec (i : Instr) (s : State) : Host.Outcome State Fault Refusal :=
  match i with
  | .registerWrite dt addr size data => Sys2Proof.Machine.execRegisterWrite dt addr size data s
  | .badAccess dt addr size write => Sys2Proof.Machine.execBadAccess dt addr size write s
  | .rcRead dt addr size => Sys2Proof.Machine.execRcRead dt addr size s
  | .stepCtrlRun dt => Sys2Proof.Machine.execStepCtrlRun dt s
  | .stepCtrlHalt dt alsoRun => Sys2Proof.Machine.execStepCtrlHalt dt alsoRun s
  | .stepSingleNstep dt n => Sys2Proof.Machine.execStepSingleNstep dt n s
  | .timeNownsRead dt => Sys2Proof.Machine.execTimeNownsRead dt s
  | .capturePop dt input => Sys2Proof.Machine.execCapturePop dt input s
  | .qctrlEnable dt on => Sys2Proof.Machine.execQctrlEnable dt on s
  | .qreset dt => Sys2Proof.Machine.execQreset dt s
  | .cmdtailWrite dt value => Sys2Proof.Machine.execCmdtailWrite dt value s
  | .rplheadWrite dt value => Sys2Proof.Machine.execRplheadWrite dt value s
  | .evtheadWrite dt value => Sys2Proof.Machine.execEvtheadWrite dt value s
  | .mboxGo dt desc => Sys2Proof.Machine.execMboxGo dt desc s
  | .commandFetch dt packet desc => Sys2Proof.Machine.execCommandFetch dt packet desc s
  | .packetTailTimeout dt => Sys2Proof.Machine.execPacketTailTimeout dt s
  | .commandStart dt => Sys2Proof.Machine.execCommandStart dt s
  | .replyWrite dt hostTakes => Sys2Proof.Machine.execReplyWrite dt hostTakes s
  | .irqModerationExpiry dt vector => Sys2Proof.Machine.execIrqModerationExpiry dt vector s
  | .limitedEventWindowEnd dt code key => Sys2Proof.Machine.execLimitedEventWindowEnd dt code key s
  | .bar2Access dt offset write words firstbe lastbe data => Sys2Proof.Machine.execBar2Access dt offset write words firstbe lastbe data s
  | .multicastWrite dt group offset data => Sys2Proof.Machine.execMulticastWrite dt group offset data s
  | .cfgDataWrite dt offset data => Sys2Proof.Machine.execCfgDataWrite dt offset data s
  | .perstNAssert dt => Sys2Proof.Machine.execPerstNAssert dt s
  | .perstNRelease dt => Sys2Proof.Machine.execPerstNRelease dt s
  | .d3hotEntry dt clearsBme => Sys2Proof.Machine.execD3hotEntry dt clearsBme s
  | .identify dt hdr ws => Sys2Proof.Machine.execIdentify dt hdr ws s
  | .status dt hdr ws => Sys2Proof.Machine.execStatus dt hdr ws s
  | .reset dt hdr ws => Sys2Proof.Machine.execReset dt hdr ws s
  | .echo dt hdr ws => Sys2Proof.Machine.execEcho dt hdr ws s
  | .ownerLock dt hdr ws => Sys2Proof.Machine.execOwnerLock dt hdr ws s
  | .ownerUnlock dt hdr ws => Sys2Proof.Machine.execOwnerUnlock dt hdr ws s
  | .limits dt hdr ws => Sys2Proof.Machine.execLimits dt hdr ws s
  | .stepConfigure dt hdr ws => Sys2Proof.Machine.execStepConfigure dt hdr ws s
  | .cardLoad dt hdr ws => Sys2Proof.Machine.execCardLoad dt hdr ws s
  | .stepRun dt hdr ws => Sys2Proof.Machine.execStepRun dt hdr ws s
  | .stepHalt dt hdr ws => Sys2Proof.Machine.execStepHalt dt hdr ws s
  | .stepSingle dt hdr ws => Sys2Proof.Machine.execStepSingle dt hdr ws s
  | .stepStatus dt hdr ws => Sys2Proof.Machine.execStepStatus dt hdr ws s
  | .stateSave dt hdr ws => Sys2Proof.Machine.execStateSave dt hdr ws s
  | .stateSaveComplete dt => Sys2Proof.Machine.execStateSaveComplete dt s
  | .stateRestore dt hdr ws => Sys2Proof.Machine.execStateRestore dt hdr ws s
  | .ctxStage dt hdr ws => Sys2Proof.Machine.execCtxStage dt hdr ws s
  | .ctxStageComplete dt => Sys2Proof.Machine.execCtxStageComplete dt s
  | .ctxMode dt hdr ws => Sys2Proof.Machine.execCtxMode dt hdr ws s
  | .ctxSelect dt hdr ws => Sys2Proof.Machine.execCtxSelect dt hdr ws s
  | .scrub dt hdr ws => Sys2Proof.Machine.execScrub dt hdr ws s
  | .scrubComplete dt tower => Sys2Proof.Machine.execScrubComplete dt tower s
  | .atcErrlog dt hdr ws => Sys2Proof.Machine.execAtcErrlog dt hdr ws s
  | .atcFill dt hdr ws => Sys2Proof.Machine.execAtcFill dt hdr ws s
  | .atcFillComplete dt tower => Sys2Proof.Machine.execAtcFillComplete dt tower s
  | .blockRemap dt hdr ws => Sys2Proof.Machine.execBlockRemap dt hdr ws s
  | .nocStats dt hdr ws => Sys2Proof.Machine.execNocStats dt hdr ws s
  | .nocQuota dt hdr ws => Sys2Proof.Machine.execNocQuota dt hdr ws s
  | .nocQuotaApply dt => Sys2Proof.Machine.execNocQuotaApply dt s
  | .nocQuotaTimeout dt => Sys2Proof.Machine.execNocQuotaTimeout dt s
  | .corrStatus dt hdr ws => Sys2Proof.Machine.execCorrStatus dt hdr ws s
  | .g6Init dt hdr ws => Sys2Proof.Machine.execG6Init dt hdr ws s
  | .g6InitComplete dt failed => Sys2Proof.Machine.execG6InitComplete dt failed s
  | .g6Map dt hdr ws => Sys2Proof.Machine.execG6Map dt hdr ws s
  | .g6Errlog dt hdr ws => Sys2Proof.Machine.execG6Errlog dt hdr ws s
  | .g6Qos dt hdr ws => Sys2Proof.Machine.execG6Qos dt hdr ws s
  | .cryptEnable dt hdr ws => Sys2Proof.Machine.execCryptEnable dt hdr ws s
  | .cryptInitComplete dt => Sys2Proof.Machine.execCryptInitComplete dt s
  | .cryptStatus dt hdr ws => Sys2Proof.Machine.execCryptStatus dt hdr ws s
  | .laneSetup dt hdr ws => Sys2Proof.Machine.execLaneSetup dt hdr ws s
  | .laneLoop dt hdr ws => Sys2Proof.Machine.execLaneLoop dt hdr ws s
  | .loopDurationEnd dt lane bits errors => Sys2Proof.Machine.execLoopDurationEnd dt lane bits errors s
  | .laneStatus dt hdr ws => Sys2Proof.Machine.execLaneStatus dt hdr ws s
  | .laneSleep dt hdr ws => Sys2Proof.Machine.execLaneSleep dt hdr ws s
  | .timeDomainSetup dt hdr ws => Sys2Proof.Machine.execTimeDomainSetup dt hdr ws s
  | .timeSelect dt hdr ws => Sys2Proof.Machine.execTimeSelect dt hdr ws s
  | .cueSet dt hdr ws => Sys2Proof.Machine.execCueSet dt hdr ws s
  | .reelJoin dt hdr ws => Sys2Proof.Machine.execReelJoin dt hdr ws s
  | .cfgBegin dt hdr ws => Sys2Proof.Machine.execCfgBegin dt hdr ws s
  | .cfgEnd dt hdr ws => Sys2Proof.Machine.execCfgEnd dt hdr ws s
  | .cfgStreamTimeout dt => Sys2Proof.Machine.execCfgStreamTimeout dt s
  | .cfgAbort dt hdr ws => Sys2Proof.Machine.execCfgAbort dt hdr ws s
  | .cfgWing dt hdr ws => Sys2Proof.Machine.execCfgWing dt hdr ws s
  | .cfgWingVerified dt job => Sys2Proof.Machine.execCfgWingVerified dt job s
  | .sigStatus dt hdr ws => Sys2Proof.Machine.execSigStatus dt hdr ws s
  | .mirrorCopyComplete dt => Sys2Proof.Machine.execMirrorCopyComplete dt s
  | .clkSetup dt hdr ws => Sys2Proof.Machine.execClkSetup dt hdr ws s
  | .clkSwitch dt hdr ws => Sys2Proof.Machine.execClkSwitch dt hdr ws s
  | .muxSwitchComplete dt domain => Sys2Proof.Machine.execMuxSwitchComplete dt domain s
  | .muxPendingTimeout dt domain => Sys2Proof.Machine.execMuxPendingTimeout dt domain s
  | .clkMeasure dt hdr ws => Sys2Proof.Machine.execClkMeasure dt hdr ws s
  | .clkMeasureGateEnd dt clock edges => Sys2Proof.Machine.execClkMeasureGateEnd dt clock edges s
  | .pwrState dt hdr ws => Sys2Proof.Machine.execPwrState dt hdr ws s
  | .powerStateReached dt => Sys2Proof.Machine.execPowerStateReached dt s
  | .budgetQuery dt hdr ws => Sys2Proof.Machine.execBudgetQuery dt hdr ws s
  | .budgetRequest dt hdr ws => Sys2Proof.Machine.execBudgetRequest dt hdr ws s
  | .thermalLimits dt hdr ws => Sys2Proof.Machine.execThermalLimits dt hdr ws s
  | .patrolSetup dt hdr ws => Sys2Proof.Machine.execPatrolSetup dt hdr ws s
  | .fwInfo dt hdr ws => Sys2Proof.Machine.execFwInfo dt hdr ws s
  | .fwStageBegin dt hdr ws => Sys2Proof.Machine.execFwStageBegin dt hdr ws s
  | .fwStageData dt hdr ws => Sys2Proof.Machine.execFwStageData dt hdr ws s
  | .fwStageEnd dt hdr ws => Sys2Proof.Machine.execFwStageEnd dt hdr ws s
  | .fwActivateAt dt hdr ws => Sys2Proof.Machine.execFwActivateAt dt hdr ws s
  | .fwCancel dt hdr ws => Sys2Proof.Machine.execFwCancel dt hdr ws s
  | .probeRoute dt hdr ws => Sys2Proof.Machine.execProbeRoute dt hdr ws s
  | .traceSetup dt hdr ws => Sys2Proof.Machine.execTraceSetup dt hdr ws s
  | .traceRead dt hdr ws => Sys2Proof.Machine.execTraceRead dt hdr ws s
  | .perturb dt hdr ws => Sys2Proof.Machine.execPerturb dt hdr ws s
  | .testUnlock dt hdr ws => Sys2Proof.Machine.execTestUnlock dt hdr ws s
  | .challengeExpiry dt => Sys2Proof.Machine.execChallengeExpiry dt s
  | .stepLaunch dt pins => Sys2Proof.Machine.execStepLaunch dt pins s
  | .pacerTick dt => Sys2Proof.Machine.execPacerTick dt s
  | .wingRoundEnd dt wing => Sys2Proof.Machine.execWingRoundEnd dt wing s
  | .tokenArrival dt dest => Sys2Proof.Machine.execTokenArrival dt dest s
  | .tokenAckArrival dt wing port => Sys2Proof.Machine.execTokenAckArrival dt wing port s
  | .doneAtStepMaster dt porch unit => Sys2Proof.Machine.execDoneAtStepMaster dt porch unit s
  | .commitComplete dt => Sys2Proof.Machine.execCommitComplete dt s
  | .switchComplete dt => Sys2Proof.Machine.execSwitchComplete dt s
  | .refillBurstDone dt wing room result badBonds badSpares => Sys2Proof.Machine.execRefillBurstDone dt wing room result badBonds badSpares s
  | .hangLimitExpiry dt => Sys2Proof.Machine.execHangLimitExpiry dt s
  | .suMonitorInterval dt su => Sys2Proof.Machine.execSuMonitorInterval dt su s
  | .bankFifoWrite dt bank fifo entry => Sys2Proof.Machine.execBankFifoWrite dt bank fifo entry s
  | .bankFifoRead dt bank fifo => Sys2Proof.Machine.execBankFifoRead dt bank fifo s
  | .stewardRequest dt tower => Sys2Proof.Machine.execStewardRequest dt tower s
  | .stewardWriteAccept dt wing => Sys2Proof.Machine.execStewardWriteAccept dt wing s
  | .maintenanceLine dt wing => Sys2Proof.Machine.execMaintenanceLine dt wing s
  | .outerCheckComplete dt tower => Sys2Proof.Machine.execOuterCheckComplete dt tower s
  | .corridorTransfer dt dir group slot wires => Sys2Proof.Machine.execCorridorTransfer dt dir group slot wires s
  | .handshakeTimeout dt dir group => Sys2Proof.Machine.execHandshakeTimeout dt dir group s
  | .idlePatternBeat dt dir group failsLow failsHigh failsOther => Sys2Proof.Machine.execIdlePatternBeat dt dir group failsLow failsHigh failsOther s
  | .remapComplete dt dir => Sys2Proof.Machine.execRemapComplete dt dir s
  | .packetAtRouter dt router turn => Sys2Proof.Machine.execPacketAtRouter dt router turn s
  | .responseArrival dt initiator => Sys2Proof.Machine.execResponseArrival dt initiator s
  | .tagTimeout dt tag => Sys2Proof.Machine.execTagTimeout dt tag s
  | .quarantineEnd dt tag => Sys2Proof.Machine.execQuarantineEnd dt tag s
  | .packetExpiry dt router => Sys2Proof.Machine.execPacketExpiry dt router s
  | .drainEnd dt tower => Sys2Proof.Machine.execDrainEnd dt tower s
  | .g6Request dt controller link find => Sys2Proof.Machine.execG6Request dt controller link find s
  | .refreshDue dt channel bank => Sys2Proof.Machine.execRefreshDue dt channel bank s
  | .selfRefreshEntry dt controller => Sys2Proof.Machine.execSelfRefreshEntry dt controller s
  | .retrainDue dt channel ok => Sys2Proof.Machine.execRetrainDue dt channel ok s
  | .groupUp dt first seat seenFirst seenWlog skews => Sys2Proof.Machine.execGroupUp dt first seat seenFirst seenWlog skews s
  | .groupGoesDown dt lane loss => Sys2Proof.Machine.execGroupGoesDown dt lane loss s
  | .miswireRetry dt first => Sys2Proof.Machine.execMiswireRetry dt first s
  | .valueFrameReceive dt first fseq expseq ctl word payload crc others => Sys2Proof.Machine.execValueFrameReceive dt first fseq expseq ctl word payload crc others s
  | .ackNackReceive dt first start data ending => Sys2Proof.Machine.execAckNackReceive dt first start data ending s
  | .holdFrameReceive dt first fseq expseq ctl word payload ending => Sys2Proof.Machine.execHoldFrameReceive dt first fseq expseq ctl word payload ending s
  | .stopFrameReceive dt first fseq expseq ctl word payload ending => Sys2Proof.Machine.execStopFrameReceive dt first fseq expseq ctl word payload ending s
  | .syncFrameReceive dt first fseq expseq ctl word payload ending => Sys2Proof.Machine.execSyncFrameReceive dt first fseq expseq ctl word payload ending s
  | .ackTimerExpiry dt first => Sys2Proof.Machine.execAckTimerExpiry dt first s
  | .replayTimeout dt first => Sys2Proof.Machine.execReplayTimeout dt first s
  | .nackHoldoffEnd dt first => Sys2Proof.Machine.execNackHoldoffEnd dt first s
  | .syncInterval dt first => Sys2Proof.Machine.execSyncInterval dt first s
  | .wakePatternDetect dt first => Sys2Proof.Machine.execWakePatternDetect dt first s
  | .wakePatternEnd dt first => Sys2Proof.Machine.execWakePatternEnd dt first s
  | .ethFrameReceive dt lane bytes fecCorrected fecBad buffer ptp => Sys2Proof.Machine.execEthFrameReceive dt lane bytes fecCorrected fecBad buffer ptp s
  | .ethLinkChange dt lane up => Sys2Proof.Machine.execEthLinkChange dt lane up s
  | .domainOffsetMeasurement dt domain offsetPs => Sys2Proof.Machine.execDomainOffsetMeasurement dt domain offsetPs s
  | .sourceSilenceTimeout dt domain => Sys2Proof.Machine.execSourceSilenceTimeout dt domain s
  | .slewComplete dt => Sys2Proof.Machine.execSlewComplete dt s
  | .cueMatch dt cue => Sys2Proof.Machine.execCueMatch dt cue s
  | .captureEdge dt input rising => Sys2Proof.Machine.execCaptureEdge dt input rising s
  | .promiseWindowClose dt => Sys2Proof.Machine.execPromiseWindowClose dt s
  | .reelGuardExpiry dt => Sys2Proof.Machine.execReelGuardExpiry dt s
  | .scanFrame dt => Sys2Proof.Machine.execScanFrame dt s
  | .mirrorRepair dt wing room ctx readOk => Sys2Proof.Machine.execMirrorRepair dt wing room ctx readOk s
  | .referenceLoss dt clock => Sys2Proof.Machine.execReferenceLoss dt clock s
  | .loopRelock dt clock => Sys2Proof.Machine.execLoopRelock dt clock s
  | .frequencyCountInterval dt khz => Sys2Proof.Machine.execFrequencyCountInterval dt khz s
  | .wakeNAssert dt => Sys2Proof.Machine.execWakeNAssert dt s
  | .holdDomainIdle dt unit => Sys2Proof.Machine.execHoldDomainIdle dt unit s
  | .patrolSample dt values alarms => Sys2Proof.Machine.execPatrolSample dt values alarms s
  | .currentMeasurement dt tenthsOfAmp => Sys2Proof.Machine.execCurrentMeasurement dt tenthsOfAmp s
  | .thermalSensorRead dt cellar floor attic porch => Sys2Proof.Machine.execThermalSensorRead dt cellar floor attic porch s
  | .holdupNAssert dt low => Sys2Proof.Machine.execHoldupNAssert dt low s
  | .vccioMeasure dt bank mv => Sys2Proof.Machine.execVccioMeasure dt bank mv s
  | .tapInstruction dt ins => Sys2Proof.Machine.execTapInstruction dt ins s
  | .devRstNAssert dt => Sys2Proof.Machine.execDevRstNAssert dt s
  | .devRstNRelease dt seat => Sys2Proof.Machine.execDevRstNRelease dt seat s
  | .keeperBoot dt => Sys2Proof.Machine.execKeeperBoot dt s
  | .towerStartupComplete dt tower test => Sys2Proof.Machine.execTowerStartupComplete dt tower test s
  | .towerStartupTimeout dt tower => Sys2Proof.Machine.execTowerStartupTimeout dt tower s
  | .resetComplete dt scope which => Sys2Proof.Machine.execResetComplete dt scope which s
  | .fwRestart dt => Sys2Proof.Machine.execFwRestart dt s
  | .fwFirstStart dt storeCrcOk => Sys2Proof.Machine.execFwFirstStart dt storeCrcOk s
  | .fwSelfCheckPass dt => Sys2Proof.Machine.execFwSelfCheckPass dt s
  | .fwConfirmDeadline dt => Sys2Proof.Machine.execFwConfirmDeadline dt s
  | .watchdogExpiry dt => Sys2Proof.Machine.execWatchdogExpiry dt s
  | .svcWrite dt packet desc => Sys2Proof.Machine.execSvcWrite dt packet desc s
  | .svcRead dt => Sys2Proof.Machine.execSvcRead dt s
  | .svcStat dt => Sys2Proof.Machine.execSvcStat dt s
  | .streamDataFetch dt consumer data => Sys2Proof.Machine.execStreamDataFetch dt consumer data s
  | .d3hotExit dt setsBme => Sys2Proof.Machine.execD3hotExit dt setsBme s
  | .refclkAuxPresent dt => Sys2Proof.Machine.execRefclkAuxPresent dt s
  | .ptpSyncInterval dt domain => Sys2Proof.Machine.execPtpSyncInterval dt domain s
  | .pcieWakeRequest dt kind => Sys2Proof.Machine.execPcieWakeRequest dt kind s

end Sys2Proof.Machine
end

