-- ==== Sys2Proof/WellFormed.lean ====
section
/-! DEFINITION. Well-formed commands: operands that name something the device has, in the sizes the manual gives.  The
meanings do not rest on it: an access or a packet may hold anything, and an event whose unit does not exist changes
nothing (assumption 3). -/

namespace Sys2Proof

/-! ### The checks -/

/-- A header whose fields fit the packet's: SEQ, EPOCH, the reply buffer's address and its capacity (R482, R484). -/
def CmdHdr.fits (h : CmdHdr) : Bool :=
  decide (h.seq < 2 ^ 16) && decide (h.epoch < 2 ^ 8) &&
    match h.rbuf with
    | some b => decide (b.1 < 2 ^ 64) && decide (b.2 < 2 ^ 20)
    | none => true

/-- A payload that a packet can carry: its LENGTH field counts it with the reply buffer's two words (R482). -/
def payloadFits (ws : List Word) : Bool := decide (ws.length + 2 ≤ 8192)

/-- An offset within BAR0 (R474). -/
def inBar0 (addr : Nat) : Bool := decide (addr < 2 ^ 24)

/-- An offset within BAR2 (R474). -/
def inBar2 (offset : Nat) : Bool := decide (offset < 2 ^ 36)

/-- A count of a ring: 32 bits (R479). -/
def isCount (n : Nat) : Bool := decide (n < 2 ^ 32)

/-- One of the 512 wings, numbered 64 times its tower plus its number there (R4, R29). -/
def isWing (w : Nat) : Bool := decide (w < 512)

/-- One of the eight towers. -/
def isTower (t : Nat) : Bool := decide (t < 8)

/-- One of the 28 corridor directions (R255). -/
def isDirection (d : Nat) : Bool := decide (d < 28)

/-- One of a direction's 34 groups (R256). -/
def isCorridorGroup (g : Nat) : Bool := decide (g < 34)

/-- A crossing of a wing and a room that exist. -/
def Crossing.exists : Crossing → Bool
  | .bonds w r => isWing w && decide (r < 1024)
  | .tsvs w r => isWing w && decide (r < 1024)
  | .memory w => isWing w
  | .channel w => isWing w

/-- The tower of a crossing. -/
def Crossing.tower : Crossing → Nat
  | .bonds w _ => w / 64
  | .tsvs w _ => w / 64
  | .memory w => w / 64
  | .channel w => w / 64

/-- What a start-up of a tower may report: crossings of that tower, taps of the 64 (R32), wings and blocks of a tower, trim codes of
6 bits (R67), corridor groups. -/
def TowerTest.fits (x : TowerTest) (t : Nat) : Bool :=
  (x.windows.all fun y => y.1.exists && y.1.tower == t && decide (y.2.1 < 77) && decide (y.2.2.1 < 64) && decide (y.2.2.2 < 64)) &&
    (x.badBonds.all fun y => y.1.exists && y.1.tower == t && decide (y.2 < 4896)) &&
    (x.badBlocks.all fun y => decide (y.1 < 64) && decide (y.2 < 24)) && (x.badCheckers.all fun w => decide (w < 64)) &&
    (x.su.all fun y => decide (y.1 < 64) && y.2.2.all fun c => decide (c < 64)) &&
    x.badWires.all fun y => isDirection y.1 && isCorridorGroup y.2.1

/-- One of the 16 hallway routers (R277). -/
def isRouter (r : Nat) : Bool := decide (r < 16)

/-- One of the 1,028 initiators (R269). -/
def isInitiator (i : Nat) : Bool := decide (i < 1028)

/-- One of the 65,536 tags (R283). -/
def isTag (t : Nat) : Bool := decide (t < 65536)

/-- One of the eight GDDR6 controllers (R304). -/
def isController (k : Nat) : Bool := decide (k < 8)

/-- One of the 16 GDDR6 channels (R304). -/
def isChannel (c : Nat) : Bool := decide (c < 16)

/-- One of the 64 fabric lanes (R375). -/
def isFabricLane (l : Nat) : Bool := decide (l < 64)

/-- One of the four time lanes (R375). -/
def isTimeLane (l : Nat) : Bool := decide (l < 4)

/-- One of the two time domains (R420). -/
def isDomain (d : Nat) : Bool := decide (d < 2)

/-- One of the 12 clock domains that a multiplexer feeds (R555). -/
def isClockDomain (d : Nat) : Bool := decide (d < 12)

/-- One of the 37 clocks that are counted (R559). -/
def isClock (c : Nat) : Bool := decide (c < 37)

/-- One of the 16 I/O banks (R664). -/
def isBank (b : Nat) : Bool := decide (b < 16)

/-- One of the 16 cues (R437). -/
def isCue (k : Nat) : Bool := decide (k < 16)

/-- A channel's end: a wing's input port or a porch's channel (R61, R64). -/
def ChanEnd.exists : ChanEnd → Bool
  | .wing w p => isWing w && decide (p < 64)
  | .porch p _ => decide (p < 2)

/-- A reset's scope and the unit that it names (R594). -/
def resetUnit (scope unit : Nat) : Bool :=
  match scope with
  | 1 => isTower unit
  | 2 => isWing unit
  | 5 => decide (unit < 2)
  | n => decide (n < 5) && unit == 0

/-- Whether a received block's fields have their widths. -/
def LaneBlock.fits (b : LaneBlock) : Bool := decide (b.lane < 16) && decide (b.header < 4)

/-- Whether a received frame's fields have their widths: 56 bits of START, at most the 31 payload words that LEN can name, 32 bits
of CRC (R385, R386). -/
def LaneFrame.fits (f : LaneFrame) : Bool :=
  decide (f.start < 2 ^ 56) && decide (f.payload.length ≤ 31) && decide (f.crc < 2 ^ 32) && f.others.all LaneBlock.fits

/-! ### Well-formed commands -/

/-- A command of Keeper: its header and its payload fit a packet. -/
def packetFits (h : CmdHdr) (ws : List Word) : Bool := h.fits && payloadFits ws

/-- Whether a command is well formed. -/
def Instr.wf : Instr → Bool
  | .registerWrite _ addr _ _ | .badAccess _ addr _ _ | .rcRead _ addr _ => inBar0 addr
  | .stepCtrlRun _ | .stepCtrlHalt _ _ | .timeNownsRead _ | .qctrlEnable _ _ | .qreset _ => true
  | .stepSingleNstep _ n => isCount n
  | .capturePop _ input => decide (input < 8)
  | .cmdtailWrite _ n | .rplheadWrite _ n | .evtheadWrite _ n => isCount n
  | .mboxGo _ _ | .commandFetch _ _ _ | .packetTailTimeout _ | .commandStart _ | .replyWrite _ _ => true
  | .irqModerationExpiry _ v => decide (v < 16)
  | .limitedEventWindowEnd _ code _ => decide (code < 65536)
  | .bar2Access _ offset _ words firstbe lastbe _ =>
    inBar2 offset && decide (1 ≤ words) && decide (firstbe < 256) && decide (lastbe < 256)
  | .multicastWrite _ _ _ data => decide (1 ≤ data.length)
  | .cfgDataWrite _ offset _ => decide (offset < 2 ^ 24)
  | .perstNAssert _ | .perstNRelease _ | .d3hotEntry _ _ | .d3hotExit _ _ => true
  | .identify _ h ws | .status _ h ws | .reset _ h ws | .echo _ h ws | .ownerLock _ h ws | .ownerUnlock _ h ws
  | .limits _ h ws | .stepConfigure _ h ws | .cardLoad _ h ws | .stepRun _ h ws | .stepHalt _ h ws
  | .stepSingle _ h ws | .stepStatus _ h ws | .stateSave _ h ws | .stateRestore _ h ws | .ctxStage _ h ws
  | .ctxMode _ h ws | .ctxSelect _ h ws | .scrub _ h ws | .atcErrlog _ h ws | .atcFill _ h ws | .blockRemap _ h ws
  | .nocStats _ h ws | .nocQuota _ h ws | .corrStatus _ h ws | .g6Init _ h ws | .g6Map _ h ws | .g6Errlog _ h ws
  | .g6Qos _ h ws | .cryptEnable _ h ws | .cryptStatus _ h ws | .laneSetup _ h ws | .laneLoop _ h ws
  | .laneStatus _ h ws | .laneSleep _ h ws | .timeDomainSetup _ h ws | .timeSelect _ h ws | .cueSet _ h ws
  | .reelJoin _ h ws | .cfgBegin _ h ws | .cfgEnd _ h ws | .cfgAbort _ h ws | .cfgWing _ h ws | .sigStatus _ h ws
  | .clkSetup _ h ws | .clkSwitch _ h ws | .clkMeasure _ h ws | .pwrState _ h ws | .budgetQuery _ h ws
  | .budgetRequest _ h ws | .thermalLimits _ h ws | .patrolSetup _ h ws | .fwInfo _ h ws | .fwStageBegin _ h ws
  | .fwStageData _ h ws | .fwStageEnd _ h ws | .fwActivateAt _ h ws | .fwCancel _ h ws | .probeRoute _ h ws
  | .traceSetup _ h ws | .traceRead _ h ws | .perturb _ h ws | .testUnlock _ h ws => packetFits h ws
  | .stateSaveComplete _ | .ctxStageComplete _ | .nocQuotaApply _ | .nocQuotaTimeout _ | .cryptInitComplete _
  | .cfgStreamTimeout _ | .mirrorCopyComplete _ | .powerStateReached _ | .challengeExpiry _ | .pacerTick _
  | .commitComplete _ | .switchComplete _ | .hangLimitExpiry _ | .slewComplete _ | .promiseWindowClose _
  | .reelGuardExpiry _ | .scanFrame _ | .wakeNAssert _ | .holdupNAssert _ _ | .tapInstruction _ _ | .devRstNAssert _
  | .keeperBoot _ | .fwRestart _ | .fwFirstStart _ _ | .fwSelfCheckPass _ | .fwConfirmDeadline _ | .watchdogExpiry _
  | .svcRead _ | .svcStat _ | .refclkAuxPresent _ | .pcieWakeRequest _ _ | .cfgWingVerified _ _
  | .currentMeasurement _ _ | .streamDataFetch _ _ _ => true
  | .scrubComplete _ t | .atcFillComplete _ t | .stewardRequest _ t | .outerCheckComplete _ t
  | .drainEnd _ t | .towerStartupTimeout _ t => isTower t
  | .towerStartupComplete _ t test => isTower t && test.fits t
  | .stewardWriteAccept _ w | .wingRoundEnd _ w | .maintenanceLine _ w => isWing w
  | .g6InitComplete _ failed => decide (failed < 65536)
  | .loopDurationEnd _ lane _ _ => isFabricLane lane
  | .muxSwitchComplete _ d | .muxPendingTimeout _ d => isClockDomain d
  | .clkMeasureGateEnd _ c _ | .referenceLoss _ c | .loopRelock _ c => isClock c
  | .frequencyCountInterval _ khz => khz.all fun x => isClock x.1
  | .stepLaunch _ pins => pins.all fun p => decide (p.1 < 768)
  | .tokenArrival _ dest => dest.exists
  | .tokenAckArrival _ w port => isWing w && decide (port < 64)
  | .doneAtStepMaster _ porch unit => if porch then decide (unit < 2) else isTower unit
  | .refillBurstDone _ w room _ bad spares =>
    isWing w && decide (room < 1024) && bad.all (fun b => decide (b < 1040)) && spares.all fun b => decide (b < 32)
  | .mirrorRepair _ w room ctx _ => isWing w && decide (room < 1024) && decide (ctx < 4)
  | .suMonitorInterval _ su => su.all fun x => isWing x.1
  | .bankFifoWrite _ b f _ | .bankFifoRead _ b f => isBank b && decide (f < 4)
  | .corridorTransfer _ d g slot ws => isDirection d && isCorridorGroup g && decide (slot < 16) && ws.all fun w => decide (w < 72)
  | .handshakeTimeout _ d g | .idlePatternBeat _ d g _ _ _ => isDirection d && isCorridorGroup g
  | .remapComplete _ d => isDirection d
  | .packetAtRouter _ r x => isRouter r && decide (x.output ≤ 16) && x.inverted.all fun i => decide (i < 256)
  | .packetExpiry _ r => isRouter r
  | .responseArrival _ i => isInitiator i
  | .tagTimeout _ t | .quarantineEnd _ t => isTag t
  | .g6Request _ k link find =>
      isController k && (match link with
        | .clean n => decide (n ≤ 3)
        | _ => true) && find.changed.all fun c => decide (8 * c.1 < 2 ^ 36) && c.2.all fun i => decide (i < 72)
  | .selfRefreshEntry _ k => isController k
  | .refreshDue _ c bank => isChannel c && decide (bank < 16)
  | .retrainDue _ c _ => isChannel c
  | .groupUp _ first seat _ _ _ => isFabricLane first && decide (seat < 1024)
  | .miswireRetry _ first | .ackTimerExpiry _ first | .replayTimeout _ first | .nackHoldoffEnd _ first
  | .syncInterval _ first | .wakePatternDetect _ first | .wakePatternEnd _ first => isFabricLane first
  | .valueFrameReceive _ first fseq expseq ctl word payload crc others =>
    isFabricLane first && decide (fseq < 4096) && decide (expseq < 4096) && LaneFrame.fits ⟨ctl * 2 ^ 24, word, payload, crc, others⟩
  | .holdFrameReceive _ first fseq expseq ctl word payload e | .stopFrameReceive _ first fseq expseq ctl word payload e
  | .syncFrameReceive _ first fseq expseq ctl word payload e =>
    isFabricLane first && decide (fseq < 4096) && decide (expseq < 4096) &&
      LaneFrame.fits ⟨ctl * 2 ^ 24, word, payload, e.crc, e.others⟩
  | .ackNackReceive _ first start data e => isFabricLane first && LaneFrame.fits ⟨start, data.word, data.payload, e.crc, e.others⟩
  | .groupGoesDown _ lane loss => isFabricLane lane && loss.others.all LaneBlock.fits
  | .ethFrameReceive _ lane _ _ _ _ _ | .ethLinkChange _ lane _ => isTimeLane lane
  | .domainOffsetMeasurement _ d _ | .sourceSilenceTimeout _ d | .ptpSyncInterval _ d => isDomain d
  | .cueMatch _ k => isCue k
  | .captureEdge _ input _ => decide (input < 8)
  | .holdDomainIdle _ unit => decide (unit < 16)
  | .patrolSample _ values alarms => values.all (fun v => decide (v.1 < 5)) && decide (alarms < 16)
  | .thermalSensorRead _ cellar floor attic porch =>
    cellar.length == 128 && floor.length == 128 && attic.length == 128 && porch.length == 8
  | .vccioMeasure _ b _ => isBank b
  | .devRstNRelease _ seat => decide (seat < 1024)
  | .resetComplete _ scope w => resetUnit scope w.unit && w.badWires.all fun x => isDirection x.1 && isCorridorGroup x.2.1
  | .svcWrite _ packet _ => decide (1 ≤ packet.length)

end Sys2Proof
end

