-- ==== Sys2Proof/Safety.lean ====
section
/-! DEFINITION. What claims about the block are written with: the time a command brings, the state that a command leaves, a
command packet that is taken and the state it starts in, the same packet as words on the service port, and what DEV_RST_N
holds. -/

namespace Sys2Proof

/-! ### Commands -/

/-- The femtoseconds that pass before a command. -/
def Instr.dt : Instr → Nat
  | .registerWrite dt _ _ _ => dt
  | .badAccess dt _ _ _ => dt
  | .rcRead dt _ _ => dt
  | .stepCtrlRun dt => dt
  | .stepCtrlHalt dt _ => dt
  | .stepSingleNstep dt _ => dt
  | .timeNownsRead dt => dt
  | .capturePop dt _ => dt
  | .qctrlEnable dt _ => dt
  | .qreset dt => dt
  | .cmdtailWrite dt _ => dt
  | .rplheadWrite dt _ => dt
  | .evtheadWrite dt _ => dt
  | .mboxGo dt _ => dt
  | .commandFetch dt _ _ => dt
  | .packetTailTimeout dt => dt
  | .commandStart dt => dt
  | .replyWrite dt _ => dt
  | .irqModerationExpiry dt _ => dt
  | .limitedEventWindowEnd dt _ _ => dt
  | .bar2Access dt _ _ _ _ _ _ => dt
  | .multicastWrite dt _ _ _ => dt
  | .cfgDataWrite dt _ _ => dt
  | .perstNAssert dt => dt
  | .perstNRelease dt => dt
  | .d3hotEntry dt _ => dt
  | .identify dt _ _ => dt
  | .status dt _ _ => dt
  | .reset dt _ _ => dt
  | .echo dt _ _ => dt
  | .ownerLock dt _ _ => dt
  | .ownerUnlock dt _ _ => dt
  | .limits dt _ _ => dt
  | .stepConfigure dt _ _ => dt
  | .cardLoad dt _ _ => dt
  | .stepRun dt _ _ => dt
  | .stepHalt dt _ _ => dt
  | .stepSingle dt _ _ => dt
  | .stepStatus dt _ _ => dt
  | .stateSave dt _ _ => dt
  | .stateSaveComplete dt => dt
  | .stateRestore dt _ _ => dt
  | .ctxStage dt _ _ => dt
  | .ctxStageComplete dt => dt
  | .ctxMode dt _ _ => dt
  | .ctxSelect dt _ _ => dt
  | .scrub dt _ _ => dt
  | .scrubComplete dt _ => dt
  | .atcErrlog dt _ _ => dt
  | .atcFill dt _ _ => dt
  | .atcFillComplete dt _ => dt
  | .blockRemap dt _ _ => dt
  | .nocStats dt _ _ => dt
  | .nocQuota dt _ _ => dt
  | .nocQuotaApply dt => dt
  | .nocQuotaTimeout dt => dt
  | .corrStatus dt _ _ => dt
  | .g6Init dt _ _ => dt
  | .g6InitComplete dt _ => dt
  | .g6Map dt _ _ => dt
  | .g6Errlog dt _ _ => dt
  | .g6Qos dt _ _ => dt
  | .cryptEnable dt _ _ => dt
  | .cryptInitComplete dt => dt
  | .cryptStatus dt _ _ => dt
  | .laneSetup dt _ _ => dt
  | .laneLoop dt _ _ => dt
  | .loopDurationEnd dt _ _ _ => dt
  | .laneStatus dt _ _ => dt
  | .laneSleep dt _ _ => dt
  | .timeDomainSetup dt _ _ => dt
  | .timeSelect dt _ _ => dt
  | .cueSet dt _ _ => dt
  | .reelJoin dt _ _ => dt
  | .cfgBegin dt _ _ => dt
  | .cfgEnd dt _ _ => dt
  | .cfgStreamTimeout dt => dt
  | .cfgAbort dt _ _ => dt
  | .cfgWing dt _ _ => dt
  | .cfgWingVerified dt _ => dt
  | .sigStatus dt _ _ => dt
  | .mirrorCopyComplete dt => dt
  | .clkSetup dt _ _ => dt
  | .clkSwitch dt _ _ => dt
  | .muxSwitchComplete dt _ => dt
  | .muxPendingTimeout dt _ => dt
  | .clkMeasure dt _ _ => dt
  | .clkMeasureGateEnd dt _ _ => dt
  | .pwrState dt _ _ => dt
  | .powerStateReached dt => dt
  | .budgetQuery dt _ _ => dt
  | .budgetRequest dt _ _ => dt
  | .thermalLimits dt _ _ => dt
  | .patrolSetup dt _ _ => dt
  | .fwInfo dt _ _ => dt
  | .fwStageBegin dt _ _ => dt
  | .fwStageData dt _ _ => dt
  | .fwStageEnd dt _ _ => dt
  | .fwActivateAt dt _ _ => dt
  | .fwCancel dt _ _ => dt
  | .probeRoute dt _ _ => dt
  | .traceSetup dt _ _ => dt
  | .traceRead dt _ _ => dt
  | .perturb dt _ _ => dt
  | .testUnlock dt _ _ => dt
  | .challengeExpiry dt => dt
  | .stepLaunch dt _ => dt
  | .pacerTick dt => dt
  | .wingRoundEnd dt _ => dt
  | .tokenArrival dt _ => dt
  | .tokenAckArrival dt _ _ => dt
  | .doneAtStepMaster dt _ _ => dt
  | .commitComplete dt => dt
  | .switchComplete dt => dt
  | .refillBurstDone dt _ _ _ _ _ => dt
  | .hangLimitExpiry dt => dt
  | .suMonitorInterval dt _ => dt
  | .bankFifoWrite dt _ _ _ => dt
  | .bankFifoRead dt _ _ => dt
  | .stewardRequest dt _ => dt
  | .stewardWriteAccept dt _ => dt
  | .maintenanceLine dt _ => dt
  | .outerCheckComplete dt _ => dt
  | .corridorTransfer dt _ _ _ _ => dt
  | .handshakeTimeout dt _ _ => dt
  | .idlePatternBeat dt _ _ _ _ _ => dt
  | .remapComplete dt _ => dt
  | .packetAtRouter dt _ _ => dt
  | .responseArrival dt _ => dt
  | .tagTimeout dt _ => dt
  | .quarantineEnd dt _ => dt
  | .packetExpiry dt _ => dt
  | .drainEnd dt _ => dt
  | .g6Request dt _ _ _ => dt
  | .refreshDue dt _ _ => dt
  | .selfRefreshEntry dt _ => dt
  | .retrainDue dt _ _ => dt
  | .groupUp dt _ _ _ _ _ => dt
  | .groupGoesDown dt _ _ => dt
  | .miswireRetry dt _ => dt
  | .valueFrameReceive dt _ _ _ _ _ _ _ _ => dt
  | .ackNackReceive dt _ _ _ _ => dt
  | .holdFrameReceive dt _ _ _ _ _ _ _ => dt
  | .stopFrameReceive dt _ _ _ _ _ _ _ => dt
  | .syncFrameReceive dt _ _ _ _ _ _ _ => dt
  | .ackTimerExpiry dt _ => dt
  | .replayTimeout dt _ => dt
  | .nackHoldoffEnd dt _ => dt
  | .syncInterval dt _ => dt
  | .wakePatternDetect dt _ => dt
  | .wakePatternEnd dt _ => dt
  | .ethFrameReceive dt _ _ _ _ _ _ => dt
  | .ethLinkChange dt _ _ => dt
  | .domainOffsetMeasurement dt _ _ => dt
  | .sourceSilenceTimeout dt _ => dt
  | .slewComplete dt => dt
  | .cueMatch dt _ => dt
  | .captureEdge dt _ _ => dt
  | .promiseWindowClose dt => dt
  | .reelGuardExpiry dt => dt
  | .scanFrame dt => dt
  | .mirrorRepair dt _ _ _ _ => dt
  | .referenceLoss dt _ => dt
  | .loopRelock dt _ => dt
  | .frequencyCountInterval dt _ => dt
  | .wakeNAssert dt => dt
  | .holdDomainIdle dt _ => dt
  | .patrolSample dt _ _ => dt
  | .currentMeasurement dt _ => dt
  | .thermalSensorRead dt _ _ _ _ => dt
  | .holdupNAssert dt _ => dt
  | .vccioMeasure dt _ _ => dt
  | .tapInstruction dt _ => dt
  | .devRstNAssert dt => dt
  | .devRstNRelease dt _ => dt
  | .keeperBoot dt => dt
  | .towerStartupComplete dt _ _ => dt
  | .towerStartupTimeout dt _ => dt
  | .resetComplete dt _ _ => dt
  | .fwRestart dt => dt
  | .fwFirstStart dt _ => dt
  | .fwSelfCheckPass dt => dt
  | .fwConfirmDeadline dt => dt
  | .watchdogExpiry dt => dt
  | .svcWrite dt _ _ => dt
  | .svcRead dt => dt
  | .svcStat dt => dt
  | .streamDataFetch dt _ _ => dt
  | .d3hotExit dt _ => dt
  | .refclkAuxPresent dt => dt
  | .ptpSyncInterval dt _ => dt
  | .pcieWakeRequest dt _ => dt

/-- The commands that act while DEV_RST_N is low too: those of DEV_RST_N itself, and boundary scan (R670). -/
def Instr.actsInReset : Instr → Bool
  | .devRstNAssert _ => true
  | .devRstNRelease _ _ => true
  | .tapInstruction _ _ => true
  | .registerWrite _ _ _ _ => false
  | .badAccess _ _ _ _ => false
  | .rcRead _ _ _ => false
  | .stepCtrlRun _ => false
  | .stepCtrlHalt _ _ => false
  | .stepSingleNstep _ _ => false
  | .timeNownsRead _ => false
  | .capturePop _ _ => false
  | .qctrlEnable _ _ => false
  | .qreset _ => false
  | .cmdtailWrite _ _ => false
  | .rplheadWrite _ _ => false
  | .evtheadWrite _ _ => false
  | .mboxGo _ _ => false
  | .commandFetch _ _ _ => false
  | .packetTailTimeout _ => false
  | .commandStart _ => false
  | .replyWrite _ _ => false
  | .irqModerationExpiry _ _ => false
  | .limitedEventWindowEnd _ _ _ => false
  | .bar2Access _ _ _ _ _ _ _ => false
  | .multicastWrite _ _ _ _ => false
  | .cfgDataWrite _ _ _ => false
  | .perstNAssert _ => false
  | .perstNRelease _ => false
  | .d3hotEntry _ _ => false
  | .identify _ _ _ => false
  | .status _ _ _ => false
  | .reset _ _ _ => false
  | .echo _ _ _ => false
  | .ownerLock _ _ _ => false
  | .ownerUnlock _ _ _ => false
  | .limits _ _ _ => false
  | .stepConfigure _ _ _ => false
  | .cardLoad _ _ _ => false
  | .stepRun _ _ _ => false
  | .stepHalt _ _ _ => false
  | .stepSingle _ _ _ => false
  | .stepStatus _ _ _ => false
  | .stateSave _ _ _ => false
  | .stateSaveComplete _ => false
  | .stateRestore _ _ _ => false
  | .ctxStage _ _ _ => false
  | .ctxStageComplete _ => false
  | .ctxMode _ _ _ => false
  | .ctxSelect _ _ _ => false
  | .scrub _ _ _ => false
  | .scrubComplete _ _ => false
  | .atcErrlog _ _ _ => false
  | .atcFill _ _ _ => false
  | .atcFillComplete _ _ => false
  | .blockRemap _ _ _ => false
  | .nocStats _ _ _ => false
  | .nocQuota _ _ _ => false
  | .nocQuotaApply _ => false
  | .nocQuotaTimeout _ => false
  | .corrStatus _ _ _ => false
  | .g6Init _ _ _ => false
  | .g6InitComplete _ _ => false
  | .g6Map _ _ _ => false
  | .g6Errlog _ _ _ => false
  | .g6Qos _ _ _ => false
  | .cryptEnable _ _ _ => false
  | .cryptInitComplete _ => false
  | .cryptStatus _ _ _ => false
  | .laneSetup _ _ _ => false
  | .laneLoop _ _ _ => false
  | .loopDurationEnd _ _ _ _ => false
  | .laneStatus _ _ _ => false
  | .laneSleep _ _ _ => false
  | .timeDomainSetup _ _ _ => false
  | .timeSelect _ _ _ => false
  | .cueSet _ _ _ => false
  | .reelJoin _ _ _ => false
  | .cfgBegin _ _ _ => false
  | .cfgEnd _ _ _ => false
  | .cfgStreamTimeout _ => false
  | .cfgAbort _ _ _ => false
  | .cfgWing _ _ _ => false
  | .cfgWingVerified _ _ => false
  | .sigStatus _ _ _ => false
  | .mirrorCopyComplete _ => false
  | .clkSetup _ _ _ => false
  | .clkSwitch _ _ _ => false
  | .muxSwitchComplete _ _ => false
  | .muxPendingTimeout _ _ => false
  | .clkMeasure _ _ _ => false
  | .clkMeasureGateEnd _ _ _ => false
  | .pwrState _ _ _ => false
  | .powerStateReached _ => false
  | .budgetQuery _ _ _ => false
  | .budgetRequest _ _ _ => false
  | .thermalLimits _ _ _ => false
  | .patrolSetup _ _ _ => false
  | .fwInfo _ _ _ => false
  | .fwStageBegin _ _ _ => false
  | .fwStageData _ _ _ => false
  | .fwStageEnd _ _ _ => false
  | .fwActivateAt _ _ _ => false
  | .fwCancel _ _ _ => false
  | .probeRoute _ _ _ => false
  | .traceSetup _ _ _ => false
  | .traceRead _ _ _ => false
  | .perturb _ _ _ => false
  | .testUnlock _ _ _ => false
  | .challengeExpiry _ => false
  | .stepLaunch _ _ => false
  | .pacerTick _ => false
  | .wingRoundEnd _ _ => false
  | .tokenArrival _ _ => false
  | .tokenAckArrival _ _ _ => false
  | .doneAtStepMaster _ _ _ => false
  | .commitComplete _ => false
  | .switchComplete _ => false
  | .refillBurstDone _ _ _ _ _ _ => false
  | .hangLimitExpiry _ => false
  | .suMonitorInterval _ _ => false
  | .bankFifoWrite _ _ _ _ => false
  | .bankFifoRead _ _ _ => false
  | .stewardRequest _ _ => false
  | .stewardWriteAccept _ _ => false
  | .maintenanceLine _ _ => false
  | .outerCheckComplete _ _ => false
  | .corridorTransfer _ _ _ _ _ => false
  | .handshakeTimeout _ _ _ => false
  | .idlePatternBeat _ _ _ _ _ _ => false
  | .remapComplete _ _ => false
  | .packetAtRouter _ _ _ => false
  | .responseArrival _ _ => false
  | .tagTimeout _ _ => false
  | .quarantineEnd _ _ => false
  | .packetExpiry _ _ => false
  | .drainEnd _ _ => false
  | .g6Request _ _ _ _ => false
  | .refreshDue _ _ _ => false
  | .selfRefreshEntry _ _ => false
  | .retrainDue _ _ _ => false
  | .groupUp _ _ _ _ _ _ => false
  | .groupGoesDown _ _ _ => false
  | .miswireRetry _ _ => false
  | .valueFrameReceive _ _ _ _ _ _ _ _ _ => false
  | .ackNackReceive _ _ _ _ _ => false
  | .holdFrameReceive _ _ _ _ _ _ _ _ => false
  | .stopFrameReceive _ _ _ _ _ _ _ _ => false
  | .syncFrameReceive _ _ _ _ _ _ _ _ => false
  | .ackTimerExpiry _ _ => false
  | .replayTimeout _ _ => false
  | .nackHoldoffEnd _ _ => false
  | .syncInterval _ _ => false
  | .wakePatternDetect _ _ => false
  | .wakePatternEnd _ _ => false
  | .ethFrameReceive _ _ _ _ _ _ _ => false
  | .ethLinkChange _ _ _ => false
  | .domainOffsetMeasurement _ _ _ => false
  | .sourceSilenceTimeout _ _ => false
  | .slewComplete _ => false
  | .cueMatch _ _ => false
  | .captureEdge _ _ _ => false
  | .promiseWindowClose _ => false
  | .reelGuardExpiry _ => false
  | .scanFrame _ => false
  | .mirrorRepair _ _ _ _ _ => false
  | .referenceLoss _ _ => false
  | .loopRelock _ _ => false
  | .frequencyCountInterval _ _ => false
  | .wakeNAssert _ => false
  | .holdDomainIdle _ _ => false
  | .patrolSample _ _ _ => false
  | .currentMeasurement _ _ => false
  | .thermalSensorRead _ _ _ _ _ => false
  | .holdupNAssert _ _ => false
  | .vccioMeasure _ _ _ => false
  | .keeperBoot _ => false
  | .towerStartupComplete _ _ _ => false
  | .towerStartupTimeout _ _ => false
  | .resetComplete _ _ _ => false
  | .fwRestart _ => false
  | .fwFirstStart _ _ => false
  | .fwSelfCheckPass _ => false
  | .fwConfirmDeadline _ => false
  | .watchdogExpiry _ => false
  | .svcWrite _ _ _ => false
  | .svcRead _ => false
  | .svcStat _ => false
  | .streamDataFetch _ _ _ => false
  | .d3hotExit _ _ => false
  | .refclkAuxPresent _ => false
  | .ptpSyncInterval _ _ => false
  | .pcieWakeRequest _ _ => false

/-- The command rows of the table: the time before the command, its opcode (R492), header and payload. -/
def Instr.asCommand : Instr → Option (Nat × Nat × CmdHdr × List Word)
  | .registerWrite _ _ _ _ => none
  | .badAccess _ _ _ _ => none
  | .rcRead _ _ _ => none
  | .stepCtrlRun _ => none
  | .stepCtrlHalt _ _ => none
  | .stepSingleNstep _ _ => none
  | .timeNownsRead _ => none
  | .capturePop _ _ => none
  | .qctrlEnable _ _ => none
  | .qreset _ => none
  | .cmdtailWrite _ _ => none
  | .rplheadWrite _ _ => none
  | .evtheadWrite _ _ => none
  | .mboxGo _ _ => none
  | .commandFetch _ _ _ => none
  | .packetTailTimeout _ => none
  | .commandStart _ => none
  | .replyWrite _ _ => none
  | .irqModerationExpiry _ _ => none
  | .limitedEventWindowEnd _ _ _ => none
  | .bar2Access _ _ _ _ _ _ _ => none
  | .multicastWrite _ _ _ _ => none
  | .cfgDataWrite _ _ _ => none
  | .perstNAssert _ => none
  | .perstNRelease _ => none
  | .d3hotEntry _ _ => none
  | .identify dt h ws => some (dt, 0x0001, h, ws)
  | .status dt h ws => some (dt, 0x0002, h, ws)
  | .reset dt h ws => some (dt, 0x0003, h, ws)
  | .echo dt h ws => some (dt, 0x0004, h, ws)
  | .ownerLock dt h ws => some (dt, 0x0005, h, ws)
  | .ownerUnlock dt h ws => some (dt, 0x0006, h, ws)
  | .limits dt h ws => some (dt, 0x0007, h, ws)
  | .stepConfigure dt h ws => some (dt, 0x0101, h, ws)
  | .cardLoad dt h ws => some (dt, 0x0102, h, ws)
  | .stepRun dt h ws => some (dt, 0x0103, h, ws)
  | .stepHalt dt h ws => some (dt, 0x0104, h, ws)
  | .stepSingle dt h ws => some (dt, 0x0105, h, ws)
  | .stepStatus dt h ws => some (dt, 0x0106, h, ws)
  | .stateSave dt h ws => some (dt, 0x0107, h, ws)
  | .stateSaveComplete _ => none
  | .stateRestore dt h ws => some (dt, 0x0108, h, ws)
  | .ctxStage dt h ws => some (dt, 0x0201, h, ws)
  | .ctxStageComplete _ => none
  | .ctxMode dt h ws => some (dt, 0x0202, h, ws)
  | .ctxSelect dt h ws => some (dt, 0x0203, h, ws)
  | .scrub dt h ws => some (dt, 0x0301, h, ws)
  | .scrubComplete _ _ => none
  | .atcErrlog dt h ws => some (dt, 0x0302, h, ws)
  | .atcFill dt h ws => some (dt, 0x0303, h, ws)
  | .atcFillComplete _ _ => none
  | .blockRemap dt h ws => some (dt, 0x0304, h, ws)
  | .nocStats dt h ws => some (dt, 0x0401, h, ws)
  | .nocQuota dt h ws => some (dt, 0x0402, h, ws)
  | .nocQuotaApply _ => none
  | .nocQuotaTimeout _ => none
  | .corrStatus dt h ws => some (dt, 0x0403, h, ws)
  | .g6Init dt h ws => some (dt, 0x0501, h, ws)
  | .g6InitComplete _ _ => none
  | .g6Map dt h ws => some (dt, 0x0502, h, ws)
  | .g6Errlog dt h ws => some (dt, 0x0503, h, ws)
  | .g6Qos dt h ws => some (dt, 0x0504, h, ws)
  | .cryptEnable dt h ws => some (dt, 0x0601, h, ws)
  | .cryptInitComplete _ => none
  | .cryptStatus dt h ws => some (dt, 0x0602, h, ws)
  | .laneSetup dt h ws => some (dt, 0x0701, h, ws)
  | .laneLoop dt h ws => some (dt, 0x0702, h, ws)
  | .loopDurationEnd _ _ _ _ => none
  | .laneStatus dt h ws => some (dt, 0x0703, h, ws)
  | .laneSleep dt h ws => some (dt, 0x0704, h, ws)
  | .timeDomainSetup dt h ws => some (dt, 0x0801, h, ws)
  | .timeSelect dt h ws => some (dt, 0x0802, h, ws)
  | .cueSet dt h ws => some (dt, 0x0803, h, ws)
  | .reelJoin dt h ws => some (dt, 0x0804, h, ws)
  | .cfgBegin dt h ws => some (dt, 0x0901, h, ws)
  | .cfgEnd dt h ws => some (dt, 0x0902, h, ws)
  | .cfgStreamTimeout _ => none
  | .cfgAbort dt h ws => some (dt, 0x0903, h, ws)
  | .cfgWing dt h ws => some (dt, 0x0904, h, ws)
  | .cfgWingVerified _ _ => none
  | .sigStatus dt h ws => some (dt, 0x0905, h, ws)
  | .mirrorCopyComplete _ => none
  | .clkSetup dt h ws => some (dt, 0x0A01, h, ws)
  | .clkSwitch dt h ws => some (dt, 0x0A02, h, ws)
  | .muxSwitchComplete _ _ => none
  | .muxPendingTimeout _ _ => none
  | .clkMeasure dt h ws => some (dt, 0x0A03, h, ws)
  | .clkMeasureGateEnd _ _ _ => none
  | .pwrState dt h ws => some (dt, 0x0B01, h, ws)
  | .powerStateReached _ => none
  | .budgetQuery dt h ws => some (dt, 0x0B02, h, ws)
  | .budgetRequest dt h ws => some (dt, 0x0B03, h, ws)
  | .thermalLimits dt h ws => some (dt, 0x0B04, h, ws)
  | .patrolSetup dt h ws => some (dt, 0x0B05, h, ws)
  | .fwInfo dt h ws => some (dt, 0x0C01, h, ws)
  | .fwStageBegin dt h ws => some (dt, 0x0C02, h, ws)
  | .fwStageData dt h ws => some (dt, 0x0C03, h, ws)
  | .fwStageEnd dt h ws => some (dt, 0x0C04, h, ws)
  | .fwActivateAt dt h ws => some (dt, 0x0C05, h, ws)
  | .fwCancel dt h ws => some (dt, 0x0C06, h, ws)
  | .probeRoute dt h ws => some (dt, 0x0D01, h, ws)
  | .traceSetup dt h ws => some (dt, 0x0D02, h, ws)
  | .traceRead dt h ws => some (dt, 0x0D03, h, ws)
  | .perturb dt h ws => some (dt, 0x0D10, h, ws)
  | .testUnlock dt h ws => some (dt, 0x0D11, h, ws)
  | .challengeExpiry _ => none
  | .stepLaunch _ _ => none
  | .pacerTick _ => none
  | .wingRoundEnd _ _ => none
  | .tokenArrival _ _ => none
  | .tokenAckArrival _ _ _ => none
  | .doneAtStepMaster _ _ _ => none
  | .commitComplete _ => none
  | .switchComplete _ => none
  | .refillBurstDone _ _ _ _ _ _ => none
  | .hangLimitExpiry _ => none
  | .suMonitorInterval _ _ => none
  | .bankFifoWrite _ _ _ _ => none
  | .bankFifoRead _ _ _ => none
  | .stewardRequest _ _ => none
  | .stewardWriteAccept _ _ => none
  | .maintenanceLine _ _ => none
  | .outerCheckComplete _ _ => none
  | .corridorTransfer _ _ _ _ _ => none
  | .handshakeTimeout _ _ _ => none
  | .idlePatternBeat _ _ _ _ _ _ => none
  | .remapComplete _ _ => none
  | .packetAtRouter _ _ _ => none
  | .responseArrival _ _ => none
  | .tagTimeout _ _ => none
  | .quarantineEnd _ _ => none
  | .packetExpiry _ _ => none
  | .drainEnd _ _ => none
  | .g6Request _ _ _ _ => none
  | .refreshDue _ _ _ => none
  | .selfRefreshEntry _ _ => none
  | .retrainDue _ _ _ => none
  | .groupUp _ _ _ _ _ _ => none
  | .groupGoesDown _ _ _ => none
  | .miswireRetry _ _ => none
  | .valueFrameReceive _ _ _ _ _ _ _ _ _ => none
  | .ackNackReceive _ _ _ _ _ => none
  | .holdFrameReceive _ _ _ _ _ _ _ _ => none
  | .stopFrameReceive _ _ _ _ _ _ _ _ => none
  | .syncFrameReceive _ _ _ _ _ _ _ _ => none
  | .ackTimerExpiry _ _ => none
  | .replayTimeout _ _ => none
  | .nackHoldoffEnd _ _ => none
  | .syncInterval _ _ => none
  | .wakePatternDetect _ _ => none
  | .wakePatternEnd _ _ => none
  | .ethFrameReceive _ _ _ _ _ _ _ => none
  | .ethLinkChange _ _ _ => none
  | .domainOffsetMeasurement _ _ _ => none
  | .sourceSilenceTimeout _ _ => none
  | .slewComplete _ => none
  | .cueMatch _ _ => none
  | .captureEdge _ _ _ => none
  | .promiseWindowClose _ => none
  | .reelGuardExpiry _ => none
  | .scanFrame _ => none
  | .mirrorRepair _ _ _ _ _ => none
  | .referenceLoss _ _ => none
  | .loopRelock _ _ => none
  | .frequencyCountInterval _ _ => none
  | .wakeNAssert _ => none
  | .holdDomainIdle _ _ => none
  | .patrolSample _ _ _ => none
  | .currentMeasurement _ _ => none
  | .thermalSensorRead _ _ _ _ _ => none
  | .holdupNAssert _ _ => none
  | .vccioMeasure _ _ _ => none
  | .tapInstruction _ _ => none
  | .devRstNAssert _ => none
  | .devRstNRelease _ _ => none
  | .keeperBoot _ => none
  | .towerStartupComplete _ _ _ => none
  | .towerStartupTimeout _ _ => none
  | .resetComplete _ _ _ => none
  | .fwRestart _ => none
  | .fwFirstStart _ _ => none
  | .fwSelfCheckPass _ => none
  | .fwConfirmDeadline _ => none
  | .watchdogExpiry _ => none
  | .svcWrite _ _ _ => none
  | .svcRead _ => none
  | .svcStat _ => none
  | .streamDataFetch _ _ _ => none
  | .d3hotExit _ _ => none
  | .refclkAuxPresent _ => none
  | .ptpSyncInterval _ _ => none
  | .pcieWakeRequest _ _ => none

namespace Machine

/-! ### The shape of a step -/

/-- The state that a command leaves outside reset: `dt` passes, `effect` follows, the queue and the instant are the
block's. -/
def State.after (s : State) (dt : Nat) (effect : State → State) : State :=
  { effect (s.elapse dt) with now := s.now + dt, pending := s.pending, inReset := false }

/-! ### Commands of Keeper -/

/-- Keeper takes a command of opcode `op` that comes by its path now: the ring serves it and nothing of the ring is before it
(R485, R487), or the mailbox is free (R491), or fewer than four replies wait at the service port (R628); its length is the one
the command defines (R483), its reply buffer is one that R484 allows, its path may carry it and the image that runs serves it
(R493). -/
def State.takes (s : State) (h : CmdHdr) (lengthOk servicePortOnly romServes : Bool) : Bool :=
  (match h.path with
    | .ring => s.mayFetch && !s.waitsInRing h.fence && h.epoch == s.rd Reg.HIF.QSTAT.EPOCH
    | .mailbox => !s.hif.perst && !s.rdb Reg.HIF.MBOXCTL.BUSY && !s.keeperDown
    | .service => decide (s.hif.svcReplies.length < 4) && !s.keeperDown) &&
  lengthOk && !badRbuf h.rbuf && (!servicePortOnly || h.path == .service) && (romServes || s.rdb Reg.DEV.BOOT.IMAGE)

/-- The command as Keeper holds it once it has started. -/
def State.cmdOf (s : State) (op : Nat) (h : CmdHdr) (ws : List Word) : Cmd :=
  { id := s.hif.nextId, gen := s.hif.gen, path := h.path, opcode := op, seq := h.seq, epoch := h.epoch, fence := h.fence,
    rbuf := h.rbuf, payload := ws, fail := none }

/-- The state in which a command that is taken starts: it is in progress, and one of the mailbox makes it BUSY (R491). -/
def State.begun (s : State) (op : Nat) (h : CmdHdr) (ws : List Word) : State :=
  let s' := if h.path = .mailbox then s.wr Reg.HIF.MBOXCTL.BUSY 1 else s
  { s' with hif := { s'.hif with nextId := s.hif.nextId + 1, running := s.hif.running ++ [s.cmdOf op h ws] } }

/-- Outside reset, Keeper takes a command that comes `dt` later. -/
def State.accepts (s : State) (dt : Nat) (h : CmdHdr) (lengthOk servicePortOnly romServes : Bool) : Bool :=
  !s.inReset && (s.elapse dt).takes h lengthOk servicePortOnly romServes

/-- The state that a command which is taken leaves: it starts after `dt`, and its effect follows. -/
def State.afterCmd (s : State) (dt op : Nat) (h : CmdHdr) (ws : List Word) (effect : Cmd → State → State) : State :=
  s.after dt fun u => effect (u.cmdOf op h ws) (u.begun op h ws)

/-- The identity that the next command takes is free: no command in progress and no halt that waits carries it. -/
abbrev State.freshId (s : State) : Prop :=
  (∀ d ∈ s.hif.running, d.id ≠ s.hif.nextId) ∧ s.hif.nextId ∉ s.step.haltCmds

/-- Payload word `i` of a command sets only the bits of the fields given. -/
def onlyBits (ws : List Word) (i : Nat) (fields : List (Nat × Nat)) : Bool := !badBits (ws.getD i 0).toNat fields

/-- The words of a command packet (R482, R484): OPCODE, SEQ, EPOCH and flags, LENGTH, the reply buffer, the payload. -/
def packetWords (op : Nat) (h : CmdHdr) (ws : List Word) : List Word :=
  let buf := match h.rbuf with
    | some b => [toWord b.1, toWord b.2]
    | none => []
  [toWord (op + h.seq * 2 ^ 16 + h.epoch * 2 ^ 32 + b2n h.rbuf.isSome * 2 ^ 41 + b2n h.fence * 2 ^ 42),
    toWord (buf.length + ws.length)] ++ buf ++ ws

/-! ### What DEV_RST_N holds -/

/-- While DEV_RST_N is low every register reads its Reset column (R16), nothing is loaded, granted, in progress or waiting
(R591, R594); what stays is what flash, OTP and the board hold: PERST_N, the lock and repair ledgers, the records of
manufacturing test, the firmware slots, boot records, settings stores and rollback floor, and the pins that the board drives.  The counts of lost GDDR6 contents
and of keys drawn, and the TAP instruction, are the model's own. -/
def State.heldInReset (s : State) : Prop :=
  s.inReset = true →
    s.regs = [] ∧ s.hif = { Hif.reset with perst := s.hif.perst } ∧ s.step = .reset ∧ s.fab = .reset ∧
    s.cfg = { Cfg.reset with lock := s.cfg.lock } ∧ s.attic = .reset ∧ s.corr = .reset ∧ s.noc = .reset ∧
    s.g6 = { G6.reset with epochs := s.g6.epochs } ∧ s.crypt = { Crypt.reset with keys := s.crypt.keys } ∧
    s.groups = [] ∧ s.time = .reset ∧ s.ledger = .reset ∧ s.clk = .reset ∧ s.pwr = .reset ∧
    s.fw = { Fw.blank with slots := s.fw.slots, boot := s.fw.boot, stores := s.fw.stores, floor := s.fw.floor } ∧
    s.dev = { Dev.reset with made := s.dev.made, ledger := s.dev.ledger } ∧ s.dbg = .reset ∧
    s.pins = { Pins.reset with input := s.pins.input, driven := s.pins.driven, tap := s.pins.tap }

end Machine

end Sys2Proof
end

