-- ==== Sys2Proof/Certificates/Slice0/Obligations.lean ====
section
/-! DEFINITION. The statements about the block, each for the provers. -/

open Sys2Proof Sys2Proof.Machine

/-! ### The machine -/

/-- Tier 1.  A step takes the command at the front of the queue and leaves the rest waiting.  On an empty queue the block idles
(the model's choice: assumption 1). -/
def Obligations.StepRunsTheFrontCommand : Prop :=
  ∀ s : State,
    (∀ c rest, s.pending = c :: rest → Machine.step s = Machine.exec c { s with pending := rest }) ∧
    (s.pending = [] → Machine.step s = .next s)

/-- Tier 1.  After reset no command waits, DEV_RST_N is low (the model's choice: assumption 2) and what it holds is at its
reset value: every register reads its Reset column (R16). -/
def Obligations.ResetIsHeldInReset : Prop :=
  State.reset.heldInReset ∧ State.reset.inReset = true ∧ State.reset.pending = [] ∧ State.reset.out = [] ∧
    ∀ a, State.reset.stored a = regReset a

/-- Tier 3.  From every state in which DEV_RST_N, while low, holds the device at its reset values, a step gives such a state:
no command of the table moves anything that DEV_RST_N holds (R16, R591, R594). -/
def Obligations.StepKeepsHeldInReset : Prop :=
  ∀ s t : State, s.heldInReset → Machine.step s = .next t → t.heldInReset

/-- Tier 2.  While DEV_RST_N is low every command but those of DEV_RST_N and of boundary scan completes with no effect beside
the passing of its time. -/
def Obligations.NothingActsDuringDevRstN : Prop :=
  ∀ (c : Instr) (s : State), s.inReset = true → c.actsInReset = false →
    Machine.exec c s = .next { s with now := s.now + c.dt }

/-- Tier 2.  Every command answers a next state: its time has passed, the queue is as it was, and only the commands of DEV_RST_N
itself change that pin. -/
def Obligations.EveryCommandKeepsQueueAndTime : Prop :=
  ∀ (c : Instr) (s : State), ∃ t, Machine.exec c s = .next t ∧ t.now = s.now + c.dt ∧ t.pending = s.pending ∧
    (c.actsInReset = false → t.inReset = s.inReset)

/-- Tier 3.  A command packet written through the service port does exactly what its row of the table does with the service
port as its path: the packet's words of R482 and R484 are read back whole, and its opcode selects its own command (R492,
R628). -/
def Obligations.ServicePacketActsAsItsRow : Prop :=
  ∀ (i : Instr) (dt op : Nat) (h : CmdHdr) (ws : List Word) (desc : HostRead) (s : State),
    i.asCommand = some (dt, op, h, ws) → h.path = .service → h.fits = true →
    ws.length + 2 ≤ 8192 →
    Machine.exec (.svcWrite dt (packetWords op h ws) desc) s = Machine.exec i s

/-- Tier 1.  DEV_RST_N and boundary scan act in every state.  Asserting DEV_RST_N leaves every register at its Reset column
(R16); flash, the OTP ledgers and the board's levels stay.  Releasing it latches the seat and starts Keeper's ROM, and the
instant of the release is kept.  A boundary-scan instruction that drives pins acts as BYPASS outside reset unless the step
engine is UNCONFIGURED (R670). -/
def Obligations.DevRstNAndTapAct : Prop :=
  (∀ (s : State) (dt : Nat), ∃ t, Machine.exec (.devRstNAssert dt) s = .next t ∧ t.inReset = true ∧ t.heldInReset ∧
    (∀ a, t.stored a = regReset a) ∧ t.now = s.now + dt ∧ t.pending = s.pending ∧ t.out = s.out ∧
    t.cfg.lock = s.cfg.lock ∧ t.dev.made = s.dev.made ∧ t.dev.ledger = s.dev.ledger ∧ t.fw.slots = s.fw.slots ∧ t.fw.boot = s.fw.boot ∧
    t.fw.stores = s.fw.stores ∧ t.fw.floor = s.fw.floor ∧ t.hif.perst = s.hif.perst ∧ t.pins.input = s.pins.input ∧
    t.pins.driven = s.pins.driven ∧ t.pins.tap = s.pins.tap) ∧
  (∀ (s : State) (dt seat : Nat), s.inReset = true →
    ∃ t, Machine.exec (.devRstNRelease dt seat) s = .next t ∧ t.inReset = false ∧ t.dev.seat = seat % 1024 ∧
      t.dev.releasedAt = s.now + dt ∧ t.fw.romAt = some (s.now + dt) ∧ t.dev.towersOwed = true ∧ t.pending = s.pending ∧
      t.out = s.out ∧ t.hif = s.hif ∧ t.step = s.step ∧ t.cfg = s.cfg ∧ t.ledger = s.ledger) ∧
  (∀ (s : State) (dt : Nat) (ins : TapInstr), s.inReset = true →
    Machine.exec (.tapInstruction dt ins) s = .next { s with now := s.now + dt, pins := { s.pins with tap := ins } }) ∧
  (∀ (s : State) (dt : Nat) (ins : TapInstr), s.inReset = false →
    Machine.exec (.tapInstruction dt ins) s = .next (s.after dt fun u => { u with pins := { u.pins with
      tap := if tapDrives ins = true ∧ u.engine ≠ seUnconfigured then .bypass else ins } }))

/-! ### Registers -/

/-- Tier 2.  For every state, a bit that no field of a register's table row covers reads as zero, and so does every bit at an
offset where no table defines a register; a write at such an offset, where the access is served, is discarded: no register
changes and nothing is sent. -/
def Obligations.ReservedBitsReadZero : Prop :=
  ∀ (s : State) (a : Nat),
    (findReg a = none → s.readReg a = 0) ∧
    (∀ r, findReg a = some r → ∀ i, (∀ f ∈ r.fields, ¬ (f.lo ≤ i ∧ i ≤ f.hi)) → bit (s.readReg a).toNat i = false) ∧
    (∀ (dt size : Nat) (data : Word), s.inReset = false → s.hif.perst = false → s.power < 2 → s.pwr.target = none →
      ((size = 8 ∧ a % 8 = 0) ∨ (size = 4 ∧ a % 4 = 0)) → s.bar0Status a = hsOk → findReg (a / 8 * 8) = none →
      ∃ t, Machine.exec (.registerWrite dt a size data) s = .next t ∧ t.out = s.out ∧ ∀ b, t.stored b = s.stored b)

/-- Tier 2.  A field of a register reads as the value last written to it, at its width, and a write of it leaves every other
field of that register and every other register as it was. -/
def Obligations.FieldWriteIsLocal : Prop :=
  ∀ (s : State) (f : Field) (v : Nat), f.lo ≤ f.hi → f.hi < 64 →
    (s.wr f v).rd f = v % 2 ^ (f.hi + 1 - f.lo) ∧
    (∀ g : Field, g.addr = f.addr → (g.hi < f.lo ∨ f.hi < g.lo) → (s.wr f v).rd g = s.rd g) ∧
    (∀ a, a ≠ f.addr → (s.wr f v).stored a = s.stored a) ∧
    (s.wr f v).hif = s.hif ∧ (s.wr f v).out = s.out ∧ (s.wr f v).step = s.step ∧ (s.wr f v).ledger = s.ledger

/-- Tier 1.  An access whose size or alignment the device does not perform (REGISTER_WRITE, RC_READ and BAD_ACCESS alike): a
write is discarded, a read returns all ones in the requested bytes, and `HIF.ERR.BADACC` is set; nothing else changes but that
a PCIe access is a wake source. -/
def Obligations.BadAccessSetsBadacc : Prop :=
  ∀ (s : State) (dt a size : Nat) (data : Word), s.inReset = false → s.hif.perst = false →
    ¬ (size = 8 ∧ a % 8 = 0) → ¬ (size = 4 ∧ a % 4 = 0) →
    Machine.exec (.registerWrite dt a size data) s =
      .next (s.after dt fun u => (u.wr Reg.HIF.ERR.BADACC 1).wakeLogic 1) ∧
    Machine.exec (.badAccess dt a size true) s =
      .next (s.after dt fun u => (u.wr Reg.HIF.ERR.BADACC 1).wakeLogic 1) ∧
    Machine.exec (.badAccess dt a size false) s =
      .next (s.after dt fun u => ((u.wr Reg.HIF.ERR.BADACC 1).send (.readBytes a (List.replicate size 0xFF))).wakeLogic 1) ∧
    Machine.exec (.rcRead dt a size) s =
      .next (s.after dt fun u => ((u.wr Reg.HIF.ERR.BADACC 1).send (.readBytes a (List.replicate size 0xFF))).wakeLogic 1)

/-- Tier 2.  A write to a register without a row of its own (`a` is its offset, `data` the bits that the access covers, all 64 or
one half) acts by the access codes of R13, bit by bit: a covered bit of an RW field takes the bit written, one of a W1C field
is cleared by a 1, every other bit is as it was, and so is every other register. -/
def Obligations.RegisterWriteFollowsAccessCodes : Prop :=
  ∀ (s : State) (dt a size : Nat) (data : Word) (r : RegSpec), s.inReset = false → s.hif.perst = false → s.power < 2 →
    s.pwr.target = none → ((size = 8 ∧ a % 8 = 0) ∨ (size = 4 ∧ a % 4 = 0)) → s.bar0Status a = hsOk →
    findReg (a / 8 * 8) = some r →
    a / 8 * 8 ∉ [Reg.HIF.CMDBASE.BASE.addr, Reg.HIF.RPLBASE.BASE.addr, Reg.HIF.EVTBASE.BASE.addr,
      Reg.HIF.RINGSIZE.CMDLOG.addr, Reg.HIF.WBADDR.ADDR.addr, Reg.HIF.CMDTAIL.COUNT.addr, Reg.HIF.RPLHEAD.COUNT.addr,
      Reg.HIF.EVTHEAD.COUNT.addr, Reg.HIF.QCTRL.ENABLE.addr, Reg.HIF.MBOXCTL.GO.addr, Reg.STEP.SINGLE.NSTEP.addr,
      Reg.STEP.CTRL.RUN.addr] →
    (∀ i < 8, a / 8 * 8 ≠ (Reg.TIME.CAP.HI.POP i).addr) →
    ∃ t, Machine.exec (.registerWrite dt a size data) s = .next t ∧ t.out = s.out ∧
      (∀ b, b ≠ a / 8 * 8 → t.stored b = s.stored b) ∧
      ∀ f ∈ r.fields, ∀ i, f.lo ≤ i → i ≤ f.hi →
        bit (t.stored (a / 8 * 8)).toNat i =
          if a % 8 * 8 ≤ i ∧ i < a % 8 * 8 + 8 * size then
            match f.acc with
            | .rw => bit data.toNat (i - a % 8 * 8)
            | .w1c => bit (s.stored (a / 8 * 8)).toNat i && !bit data.toNat (i - a % 8 * 8)
            | _ => bit (s.stored (a / 8 * 8)).toNat i
          else bit (s.stored (a / 8 * 8)).toNat i

/-- Tier 2.  A read clears an RC field only if it returns the whole field: a 64-bit read clears every RC field of the register, a
32-bit read those that lie in its half; every other field of the register keeps its value, and so does every other register.
The read returns the register's bits, zero for those of WO fields.  (The read of `TIME.NOWNS`, which latches the seconds, has
its own statement.) -/
def Obligations.RcReadClearsWholeFields : Prop :=
  ∀ (s : State) (dt a size : Nat) (r : RegSpec), s.inReset = false → s.hif.perst = false → s.power < 2 →
    s.pwr.target = none → ((size = 8 ∧ a % 8 = 0) ∨ (size = 4 ∧ a % 4 = 0)) → s.bar0Status a = hsOk →
    findReg (a / 8 * 8) = some r → ¬ (a = Reg.TIME.NOWNS.NS.addr ∧ size = 8) →
    ∃ t w, Machine.exec (.rcRead dt a size) s = .next t ∧ t.out = s.out ++ [.readData a size w] ∧
      (∀ i, i < 8 * size → bit w.toNat i =
        (bit ((s.elapse dt).readReg (a / 8 * 8)).toNat (i + a % 8 * 8) &&
          !r.fields.any fun f => decide (f.acc = .wo) && decide (f.lo ≤ i + a % 8 * 8) && decide (i + a % 8 * 8 ≤ f.hi))) ∧
      (∀ b, b ≠ a / 8 * 8 → t.stored b = s.stored b) ∧
      ∀ f ∈ r.fields, t.rd ⟨a / 8 * 8, f.hi, f.lo⟩ =
        if f.acc = .rc ∧ a % 8 * 8 ≤ f.lo ∧ f.hi < a % 8 * 8 + 8 * size then 0 else s.rd ⟨a / 8 * 8, f.hi, f.lo⟩
/-! ### The rings, the mailbox and the service port -/

/-- Tier 2.  A driver write of `HIF.CMDTAIL` is taken when the command ring then holds no less than it does and no more than its
size; one of `HIF.RPLHEAD` or `HIF.EVTHEAD` when it moves the head forward by no more than the ring holds (counts are modulo
2^32, R479).  A write that is not taken changes no counter and sets `HIF.ERR.DOORBELL`. -/
def Obligations.DoorbellsMoveForwardOnly : Prop :=
  ∀ (s : State) (dt v : Nat), s.inReset = false → s.hif.perst = false →
    (let head := s.rd Reg.HIF.CMDHEAD.COUNT
     let holds := (s.rd Reg.HIF.CMDTAIL.COUNT + 2 ^ 32 - head) % 2 ^ 32
     let then_ := (v % 2 ^ 32 + 2 ^ 32 - head) % 2 ^ 32
     Machine.exec (.cmdtailWrite dt v) s = .next (s.after dt fun u =>
       (if holds ≤ then_ ∧ then_ ≤ 2 ^ s.rd Reg.HIF.RINGSIZE.CMDLOG then u.wr Reg.HIF.CMDTAIL.COUNT (v % 2 ^ 32)
        else u.wr Reg.HIF.ERR.DOORBELL 1).wakeLogic 1)) ∧
    (let head := s.rd Reg.HIF.RPLHEAD.COUNT
     Machine.exec (.rplheadWrite dt v) s = .next (s.after dt fun u =>
       (if (v % 2 ^ 32 + 2 ^ 32 - head) % 2 ^ 32 ≤ (s.rd Reg.HIF.RPLTAIL.COUNT + 2 ^ 32 - head) % 2 ^ 32
        then u.wr Reg.HIF.RPLHEAD.COUNT (v % 2 ^ 32) else u.wr Reg.HIF.ERR.DOORBELL 1).wakeLogic 1)) ∧
    (let head := s.rd Reg.HIF.EVTHEAD.COUNT
     Machine.exec (.evtheadWrite dt v) s = .next (s.after dt fun u =>
       (if (v % 2 ^ 32 + 2 ^ 32 - head) % 2 ^ 32 ≤ (s.rd Reg.HIF.EVTTAIL.COUNT + 2 ^ 32 - head) % 2 ^ 32
        then u.wr Reg.HIF.EVTHEAD.COUNT (v % 2 ^ 32) else u.wr Reg.HIF.ERR.DOORBELL 1).wakeLogic 1))

/-- Tier 2.  The rings are set up only while disabled: ENABLE is set only with every ring size in its range, and a write of a
base or size register while ENABLE is 1 is discarded; either refusal sets `HIF.ERR.SETUP` and changes nothing else.  A queue
reset by QRESET increments EPOCH modulo 256, sets the command and reply counters to 0 and clears STALLED; it touches neither
the event ring, nor ENABLE, nor the commands in progress, nor the next ESEQ. -/
def Obligations.RingSetupAndQueueReset : Prop :=
  ∀ (s : State) (dt : Nat), s.inReset = false → s.hif.perst = false →
    (s.rd Reg.HIF.QCTRL.ENABLE = 0 →
      (14 ≤ s.rd Reg.HIF.RINGSIZE.CMDLOG ∧ s.rd Reg.HIF.RINGSIZE.CMDLOG ≤ 20 ∧ 14 ≤ s.rd Reg.HIF.RINGSIZE.RPLLOG ∧
        s.rd Reg.HIF.RINGSIZE.RPLLOG ≤ 20 ∧ 6 ≤ s.rd Reg.HIF.RINGSIZE.EVTLOG ∧ s.rd Reg.HIF.RINGSIZE.EVTLOG ≤ 16 →
        Machine.exec (.qctrlEnable dt true) s = .next (s.after dt fun u => (u.wr Reg.HIF.QCTRL.ENABLE 1).wakeLogic 1)) ∧
      (¬ (14 ≤ s.rd Reg.HIF.RINGSIZE.CMDLOG ∧ s.rd Reg.HIF.RINGSIZE.CMDLOG ≤ 20 ∧ 14 ≤ s.rd Reg.HIF.RINGSIZE.RPLLOG ∧
        s.rd Reg.HIF.RINGSIZE.RPLLOG ≤ 20 ∧ 6 ≤ s.rd Reg.HIF.RINGSIZE.EVTLOG ∧ s.rd Reg.HIF.RINGSIZE.EVTLOG ≤ 16) →
        Machine.exec (.qctrlEnable dt true) s = .next (s.after dt fun u => (u.wr Reg.HIF.ERR.SETUP 1).wakeLogic 1))) ∧
    (s.rd Reg.HIF.QCTRL.ENABLE = 1 →
      Machine.exec (.qctrlEnable dt false) s = .next (s.after dt fun u => (u.wr Reg.HIF.QCTRL.ENABLE 0).wakeLogic 1) ∧
      ∀ (a : Nat) (d : Word), a ∈ [Reg.HIF.CMDBASE.BASE.addr, Reg.HIF.RPLBASE.BASE.addr, Reg.HIF.EVTBASE.BASE.addr,
        Reg.HIF.RINGSIZE.CMDLOG.addr] →
        Machine.exec (.registerWrite dt a 8 d) s = .next (s.after dt fun u => (u.wr Reg.HIF.ERR.SETUP 1).wakeLogic 1)) ∧
    (s.power < 2 → s.pwr.target = none →
      ∃ t, Machine.exec (.qreset dt) s = .next t ∧
        t.rd Reg.HIF.QSTAT.EPOCH = (s.rd Reg.HIF.QSTAT.EPOCH + 1) % 256 ∧
        t.rd Reg.HIF.CMDTAIL.COUNT = 0 ∧ t.rd Reg.HIF.CMDHEAD.COUNT = 0 ∧ t.rd Reg.HIF.RPLTAIL.COUNT = 0 ∧
        t.rd Reg.HIF.RPLHEAD.COUNT = 0 ∧ t.rd Reg.HIF.QSTAT.STALLED = 0 ∧
        (∀ a, a ∉ [Reg.HIF.QSTAT.EPOCH.addr, Reg.HIF.CMDTAIL.COUNT.addr, Reg.HIF.CMDHEAD.COUNT.addr,
          Reg.HIF.RPLTAIL.COUNT.addr, Reg.HIF.RPLHEAD.COUNT.addr] → t.stored a = s.stored a) ∧
        t.hif.running = s.hif.running ∧ t.hif.replies = s.hif.replies ∧ t.hif.eseq = s.hif.eseq ∧ t.out = s.out ∧
        t.hif.fetched = s.hif.fetched.filter fun c => c.path ≠ .ring)

/-- Tier 1.  A 64-bit read of `TIME.NOWNS` returns the nanoseconds and the visible fraction of the output time and latches the
seconds of the same instant into `TIME.NOWSEC`; POP removes the oldest stamp of a capture input. -/
def Obligations.TimeReadLatchesAndPopRemoves : Prop :=
  (∀ (s : State) (dt : Nat), s.inReset = false → s.hif.perst = false → s.power < 2 → s.pwr.target = none →
    s.bar0Status Reg.TIME.NOWNS.NS.addr = hsOk →
    ∃ t w, Machine.exec (.timeNownsRead dt) s = .next t ∧
      t.out = s.out ++ [.readData Reg.TIME.NOWNS.NS.addr 8 w] ∧
      fieldOf w Reg.TIME.NOWNS.NS.hi Reg.TIME.NOWNS.NS.lo = (s.elapse dt).time.nanos ∧
      fieldOf w Reg.TIME.NOWNS.FRAC.hi Reg.TIME.NOWNS.FRAC.lo = (s.elapse dt).time.frac ∧
      t.rd Reg.TIME.NOWSEC.SEC = (s.elapse dt).time.secs ∧
      ∀ a, a ≠ Reg.TIME.NOWSEC.SEC.addr → t.stored a = s.stored a) ∧
  (∀ (s : State) (dt input : Nat), s.inReset = false → s.hif.perst = false → input < 8 →
    s.bar0Status (Reg.TIME.CAP.HI.POP input).addr = hsOk →
    Machine.exec (.capturePop dt input) s = .next (s.after dt fun u =>
      ({ u with time := { u.time with caps := u.time.caps.set input ((u.time.caps.getD input []).drop 1) } }).wakeLogic 1))

/-- Tier 1.  The register controls of the step engine.  A write of RUN in a state that STEP_RUN would refuse, or in mode SINGLE,
and a non-zero NSTEP that STEP_SINGLE would refuse, sets `STEP.STAT.CTLERR` and does nothing else; a write of NSTEP 0 does
nothing; where nothing refuses them the engine enters RUNNING, with the step count of NSTEP.  A HALT while the engine runs and no
step is in progress stops it with cause 1; with a step in progress, or while the wings still return to the first context, it waits
for the end; in mode REEL it stops the whole reel; in HUNG the step is abandoned at once; where the engine does not run, nothing
changes. -/
def Obligations.RegisterControlsOfTheStepEngine : Prop :=
  (∀ (s : State) (dt n : Nat), s.inReset = false → s.hif.perst = false → s.rdb Reg.DEV.BOOT.IMAGE = true →
    ((s.rd Reg.STEP.CTRL.MODE = 2 ∨ ∃ r ∈ (s.elapse dt).runRefusals, r.1 = true) →
      Machine.exec (.stepCtrlRun dt) s = .next (s.after dt fun u => (u.wr Reg.STEP.STAT.CTLERR 1).wakeLogic 1)) ∧
    ((∃ r ∈ (s.elapse dt).runRefusals, r.1 = true) → n % 2 ^ 32 ≠ 0 →
      Machine.exec (.stepSingleNstep dt n) s = .next (s.after dt fun u => (u.wr Reg.STEP.STAT.CTLERR 1).wakeLogic 1)) ∧
    (n % 2 ^ 32 = 0 → Machine.exec (.stepSingleNstep dt n) s = .next (s.after dt fun u => u.wakeLogic 1)) ∧
    (s.power = 0 → s.pwr.target = none → s.step.closingOwed = false → (∀ r ∈ (s.elapse dt).runRefusals, r.1 = false) →
      (s.rd Reg.STEP.CTRL.MODE ≠ 2 →
        ∃ t, Machine.exec (.stepCtrlRun dt) s = .next t ∧ t.engine = seRunning ∧ t.rd Reg.STEP.SINGLE.LEFT = 0 ∧
          (∃ r, t.step.run = some r ∧ r.left = none ∧ r.tick = 0) ∧ t.out = s.out ∧ t.fab = s.fab ∧
          ∀ a, a ≠ Reg.STEP.STAT.STATE.addr → a ≠ Reg.STEP.SINGLE.LEFT.addr → t.stored a = s.stored a) ∧
      (n % 2 ^ 32 ≠ 0 →
        ∃ t, Machine.exec (.stepSingleNstep dt n) s = .next t ∧ t.engine = seRunning ∧
          t.rd Reg.STEP.SINGLE.LEFT = n % 2 ^ 32 ∧ (∃ r, t.step.run = some r ∧ r.left = some (n % 2 ^ 32) ∧ r.tick = 0) ∧
          t.out = s.out ∧ t.fab = s.fab ∧
          ∀ a, a ≠ Reg.STEP.STAT.STATE.addr → a ≠ Reg.STEP.SINGLE.LEFT.addr → t.stored a = s.stored a))) ∧
  (∀ (s : State) (dt : Nat) (also : Bool), s.inReset = false → s.hif.perst = false → s.rdb Reg.DEV.BOOT.IMAGE = true →
    s.step.startWait = none →
    let asked := fun (u : State) =>
      let v := u.wr Reg.STEP.CTRL.HALT 1
      { v with step := { v.step with haltReq := true } }
    (s.stepping = false → Machine.exec (.stepCtrlHalt dt also) s = .next (s.after dt fun u => u.wakeLogic 1)) ∧
    (s.engine = seRunning → s.step.ret.isSome = true →
      Machine.exec (.stepCtrlHalt dt also) s = .next (s.after dt fun u => (u.wr Reg.STEP.CTRL.HALT 1).wakeLogic 1)) ∧
    (s.engine = seRunning → s.step.ret = none → s.rd Reg.STEP.CTRL.MODE ≠ 3 →
      Machine.exec (.stepCtrlHalt dt also) s = .next (s.after dt fun u =>
        (if s.step.cur = none then (asked u).stopEngine 1 seHalted else asked u).wakeLogic 1)) ∧
    (s.engine = seRunning → s.step.ret = none → s.rd Reg.STEP.CTRL.MODE = 3 →
      Machine.exec (.stepCtrlHalt dt also) s = .next (s.after dt fun u => (asked u).reelStop.wakeLogic 1)) ∧
    (s.engine = seHung → s.step.ret = none →
      Machine.exec (.stepCtrlHalt dt also) s = .next (s.after dt fun u => u.hangHalts.wakeLogic 1)))

/-- Tier 1.  1 written to GO starts the command in the mailbox: while BUSY is 1 it is discarded and sets `HIF.ERR.SETUP`; a
LENGTH above 6 runs nothing; otherwise BUSY is set and the packet of the eight registers starts, or waits while Keeper runs no
image. -/
def Obligations.MailboxTakesOneCommand : Prop :=
  ∀ (s : State) (dt : Nat) (desc : HostRead), s.inReset = false → s.hif.perst = false →
    let word := fun (i : Nat) => (s.elapse dt).readReg (Reg.HIF.MBOXW.WORD i).addr
    let n := fieldOf (word 1) 19 0
    (s.rdb Reg.HIF.MBOXCTL.BUSY = true →
      Machine.exec (.mboxGo dt desc) s = .next (s.after dt fun u => (u.wr Reg.HIF.ERR.SETUP 1).wakeLogic 1)) ∧
    (s.rdb Reg.HIF.MBOXCTL.BUSY = false → 6 < n →
      Machine.exec (.mboxGo dt desc) s = .next (s.after dt fun u =>
        ((u.wr Reg.HIF.MBOXCTL.BUSY 1).arrive (u.headerOnly .mailbox (word 0))).wakeLogic 1)) ∧
    (s.rdb Reg.HIF.MBOXCTL.BUSY = false → n ≤ 6 →
      Machine.exec (.mboxGo dt desc) s = .next (s.after dt fun u =>
        ((u.wr Reg.HIF.MBOXCTL.BUSY 1).arrive (u.parse .mailbox (word 0) (word 1)
          ((List.range n).map fun i => word (2 + i)) desc)).wakeLogic 1))

/-- Tier 1.  Keeper reads the packet at CMDHEAD while the rings are served, not stalled and fewer than 64 commands are in progress:
a packet that the ring holds whole moves CMDHEAD past it and waits to start; one with a LENGTH above 8,192 is taken as two words,
replies LENGTH_ERROR and stalls the ring with cause 1; one that the tail does not cover waits, and after 10 ms replies LENGTH_ERROR
and stalls it with cause 2; a failed read replies ABORTED with CMDHEAD in DETAIL, sets FETCHERR and stalls it with cause 4. -/
def Obligations.CommandRingIsFetchedInOrder : Prop :=
  ∀ (s : State) (dt : Nat) (ws : List Word) (desc : HostRead), s.inReset = false →
    let head := s.rd Reg.HIF.CMDHEAD.COUNT
    let held := (s.rd Reg.HIF.CMDTAIL.COUNT + 2 ^ 32 - head) % 2 ^ 32
    let n := fieldOf (ws.getD 1 0) 19 0
    ((s.elapse dt).mayFetch = true → s.rd Reg.HIF.CMDTAIL.COUNT ≠ head →
      (n ≤ 8192 → 2 + n ≤ held →
        Machine.exec (.commandFetch dt (.words ws) desc) s = .next (s.after dt fun u =>
          let v := u.wr Reg.HIF.CMDHEAD.COUNT (head + 2 + n)
          { v with hif := { v.hif with tailWait := none, fetched := v.hif.fetched ++
            [u.parse .ring (ws.getD 0 0) (ws.getD 1 0) ((List.range n).map fun i => ws.getD (2 + i) 0) desc] } })) ∧
      (8192 < n → 2 ≤ held →
        ∃ t, Machine.exec (.commandFetch dt (.words ws) desc) s = .next t ∧ t.rd Reg.HIF.CMDHEAD.COUNT = (head + 2) % 2 ^ 32 ∧
          t.rd Reg.HIF.QSTAT.STALLED = 1 ∧ t.rd Reg.HIF.QSTAT.STALLCAUSE = 1 ∧ t.hif.fetched = s.hif.fetched ∧
          t.hif.replies = s.hif.replies ++ [(s.headerOnly .ring (ws.getD 0 0)).reply stLength 0 []]) ∧
      (n ≤ 8192 ∨ held < 2 → held < 2 + n →
        Machine.exec (.commandFetch dt (.words ws) desc) s = .next (s.after dt fun u =>
          let wait := ((s.hif.tailWait.map Prod.fst).getD u.now, ws.getD 0 0, if held < 2 then 2 else 2 + n)
          { u with hif := { u.hif with tailWait := some wait } })) ∧
      ∃ t, Machine.exec (.commandFetch dt .failed desc) s = .next t ∧ t.rd Reg.HIF.CMDHEAD.COUNT = head ∧
        t.rd Reg.HIF.ERR.FETCHERR = 1 ∧ t.rd Reg.HIF.QSTAT.STALLED = 1 ∧ t.rd Reg.HIF.QSTAT.STALLCAUSE = 4 ∧
        ∃ r, t.hif.replies = s.hif.replies ++ [r] ∧ r.status = stAborted ∧ r.detail = head ∧ r.opcode = 0 ∧ r.seq = 0 ∧
          r.epoch = s.rd Reg.HIF.QSTAT.EPOCH ∧ r.payload = []) ∧
    (∀ since w0 need, s.hif.tailWait = some (since, w0, need) → s.rdb Reg.HIF.QCTRL.ENABLE = true →
      s.rdb Reg.HIF.QSTAT.STALLED = false → held < need → since + 10 * fsMs ≤ s.now + dt →
      ∃ t, Machine.exec (.packetTailTimeout dt) s = .next t ∧ t.rd Reg.HIF.CMDHEAD.COUNT = (head + 2) % 2 ^ 32 ∧
        t.rd Reg.HIF.QSTAT.STALLED = 1 ∧ t.rd Reg.HIF.QSTAT.STALLCAUSE = 2 ∧ t.hif.tailWait = none ∧
        t.hif.replies = s.hif.replies ++ [(s.headerOnly .ring w0).reply stLength 0 []])

/-- Tier 1.  COMMAND_START.  Of the commands that wait on the ring the oldest starts, unless it has FENCE set and an earlier one has
not replied, which it waits for; a command that waits by another path starts past those of the ring.  The command takes the next
identity, is in progress, and is checked as the command of its opcode. -/
def Obligations.RingCommandsStartInOrder : Prop :=
  ∀ (s : State) (dt : Nat) (c : Cmd) (rest : List Cmd), s.inReset = false →
    let unanswered := (∃ d ∈ s.hif.running, d.path = .ring) ∨ ∃ r ∈ s.hif.replies, r.path = .ring
    let starts := fun (left : List Cmd) => Machine.exec (.commandStart dt) s = .next (s.after dt fun u =>
      let c := { c with id := u.hif.nextId }
      ({ u with hif := { u.hif with
          fetched := left, nextId := u.hif.nextId + 1, running := u.hif.running ++ [c] } }).judged (commandOf c.opcode) c)
    ((s.elapse dt).keeperDown = false → s.inProgress < 64 →
      (s.hif.fetched = c :: rest → c.path = .ring → (c.fence = false ∨ ¬ unanswered) → starts rest) ∧
      (s.hif.fetched = c :: rest → c.path ≠ .ring → starts rest) ∧
      (∀ b before, s.hif.fetched = b :: before ++ c :: rest → (∀ d ∈ b :: before, d.path = .ring) → b.fence = true →
        unanswered → c.path ≠ .ring → starts (b :: before ++ rest))) ∧
    (∀ b before, s.hif.fetched = b :: before → (∀ d ∈ b :: before, d.path = .ring) → b.fence = true → unanswered →
      Machine.exec (.commandStart dt) s = .next (s.after dt fun u => u))

/-- Tier 2.  The oldest reply of the ring is written when the reply ring has room for all of it: what it puts in its reply buffer
goes there, its words follow RPLTAIL, which moves past them, the write-back block follows with the new counters, and vector 0 is
signalled.  Without room it waits.  A write-back that the host does not complete sets WBERR and stalls the rings with cause 3.  A
reply of an earlier queue whose EPOCH has come round again is dropped and counted.  The accepted RESET of a reply begins after it. -/
def Obligations.ReplyIsWrittenWhenItFits : Prop :=
  ∀ (s : State) (dt : Nat) (r : Reply) (before rest : List Reply), s.inReset = false →
    s.hif.replies = before ++ r :: rest → (∀ q ∈ before, q.path ≠ .ring) → r.path = .ring →
    s.rdb Reg.HIF.QCTRL.ENABLE = true → s.hif.bme = true → s.hif.d3hot = false → s.hif.perst = false →
    ¬ (s.rdb Reg.HIF.QSTAT.STALLED = true ∧ s.rd Reg.HIF.QSTAT.STALLCAUSE = 3) → s.fw.romAt = none →
    let tail := s.rd Reg.HIF.RPLTAIL.COUNT
    let size := 2 ^ s.rd Reg.HIF.RINGSIZE.RPLLOG
    let held := (tail + 2 ^ 32 - s.rd Reg.HIF.RPLHEAD.COUNT) % 2 ^ 32
    let ws := r.packet 8192
    let left := fun (u : State) => { u with hif := { u.hif with replies := before ++ rest } }
    let begins := fun (u : State) => if r.opcode = 0x0003 ∧ r.status = stOk then u.beginOwed else u
    (r.gen ≠ s.hif.gen → r.epoch % 256 = s.rd Reg.HIF.QSTAT.EPOCH → ∀ takes,
      Machine.exec (.replyWrite dt takes) s = .next (s.after dt fun u =>
        begins ((left u).count Reg.HIF.QSTAT.SUPPRESSED 1))) ∧
    (r.gen = s.hif.gen ∨ r.epoch % 256 ≠ s.rd Reg.HIF.QSTAT.EPOCH →
      (size < held + ws.length → ∀ takes, Machine.exec (.replyWrite dt takes) s = .next (s.after dt fun u => u)) ∧
      (held + ws.length ≤ size →
        (∀ takes, Machine.exec (.replyWrite dt takes) s = .next (s.after dt fun u =>
          let v := (((left u).writeRbuf r).writeReplyRing ws).writeBack
          begins (if takes then v.msix 0
            else ((v.wr Reg.HIF.ERR.WBERR 1).wr Reg.HIF.QSTAT.STALLED 1).wr Reg.HIF.QSTAT.STALLCAUSE 3))) ∧
        (r.rbuf = none → ¬ (r.opcode = 0x0003 ∧ r.status = stOk) →
          ∃ t, Machine.exec (.replyWrite dt true) s = .next t ∧ t.hif.replies = before ++ rest ∧
            t.rd Reg.HIF.RPLTAIL.COUNT = (tail + ws.length) % 2 ^ 32 ∧
            ∃ sent, t.out = s.out ++
              (ws.zipIdx.map fun x => PcieMsg.memWrite (s.rd Reg.HIF.RPLBASE.BASE * 4096 + 8 * ((tail + x.2) % size)) x.1) ++
              [.memWrite (s.rd Reg.HIF.WBADDR.ADDR * 32) (toWord (s.rd Reg.HIF.CMDHEAD.COUNT)),
               .memWrite (s.rd Reg.HIF.WBADDR.ADDR * 32 + 8) (toWord ((tail + ws.length) % 2 ^ 32)),
               .memWrite (s.rd Reg.HIF.WBADDR.ADDR * 32 + 16) (toWord (s.rd Reg.HIF.EVTTAIL.COUNT)),
               .memWrite (s.rd Reg.HIF.WBADDR.ADDR * 32 + 24) (toWord s.hif.eseq)] ++ sent ∧
              (sent = [] ∨ sent = [.msix 0]))))

/-- Tier 1.  The service port.  A packet written while four replies wait is discarded and sets SVCOVF; otherwise the packet's
command starts (the packet that its row spells has its own statement), and one whose words are not those of its LENGTH starts as a
LENGTH_ERROR.  READ returns the oldest reply and removes it, its payload going to a reply buffer that it names, or one word of zero;
STAT returns `FWU.STAT`. -/
def Obligations.ServicePortTransactions : Prop :=
  (∀ (s : State) (dt : Nat) (packet : List Word) (desc : HostRead), s.inReset = false → 2 ≤ packet.length →
    (4 ≤ s.hif.svcReplies.length →
      Machine.exec (.svcWrite dt packet desc) s = .next (s.after dt fun u => u.wr Reg.FWU.STAT.SVCOVF 1)) ∧
    (s.hif.svcReplies.length < 4 → packet.length = 2 + fieldOf (packet.getD 1 0) 19 0 → packet.length ≤ 8194 →
      Machine.exec (.svcWrite dt packet desc) s = .next (s.after dt fun u =>
        u.arrive (u.parse .service (packet.getD 0 0) (packet.getD 1 0) (packet.drop 2) desc))) ∧
    (s.hif.svcReplies.length < 4 → (packet.length ≠ 2 + fieldOf (packet.getD 1 0) 19 0 ∨ 8194 < packet.length) →
      Machine.exec (.svcWrite dt packet desc) s = .next (s.after dt fun u =>
        u.arrive (u.headerOnly .service (packet.getD 0 0))))) ∧
  (∀ (s : State) (dt : Nat), s.inReset = false →
    (s.hif.svcReplies = [] → Machine.exec (.svcRead dt) s = .next (s.after dt fun u => u.send (.svcWords [0]))) ∧
    (∀ r rest, s.hif.svcReplies = r :: rest →
      Machine.exec (.svcRead dt) s = .next (s.after dt fun u =>
        (({ u with hif := { u.hif with svcReplies := rest } }).writeRbuf r).send (.svcWords (r.packet 8192)))) ∧
    Machine.exec (.svcStat dt) s = .next (s.after dt fun u => u.send (.svcWords [u.readReg Reg.FWU.STAT.SLOT.addr])))

/-- Tier 1.  Limited events and moderated vectors.  When the window of a code and key has lasted 1 ms, what it held is posted as one
event that opens a new window; with nothing held the window closes and nothing is posted.  When a moderation interval ends, the
vector is signalled once more if an entry arrived during it. -/
def Obligations.WindowsAndModerationEnd : Prop :=
  (∀ (s : State) (dt : Nat) (w : Window), s.inReset = false →
    s.hif.windows.find? (fun x => x.code = w.code ∧ x.key = w.key) = some w → w.opened + fsMs ≤ s.now + dt →
    (w.held = 0 → Machine.exec (.limitedEventWindowEnd dt w.code w.key) s = .next (s.after dt fun u =>
      { u with hif := { u.hif with windows := u.hif.windows.erase w } })) ∧
    (w.held ≠ 0 → Machine.exec (.limitedEventWindowEnd dt w.code w.key) s = .next (s.after dt fun u =>
      ({ u with hif := { u.hif with windows := u.hif.windows.erase w ++ [{ w with held := 0, opened := u.now }] } }).post
        w.code w.sev w.src (limitedDetail w.code w.detail w.held)))) ∧
  (∀ (s : State) (dt vector t : Nat), s.inReset = false → (vector = 0 ∨ vector = 2) →
    s.hif.irqLast.getD (if vector = 0 then 0 else 1) none = some t →
    t + s.rd Reg.HIF.IRQMOD.INTERVAL * fsUs ≤ s.now + dt →
    let i := if vector = 0 then 0 else 1
    (s.hif.irqWant.getD i false = true →
      Machine.exec (.irqModerationExpiry dt vector) s = .next (s.after dt fun u =>
        let v := u.sendMsix vector
        { v with hif := { u.hif with irqLast := u.hif.irqLast.set i (some u.now), irqWant := u.hif.irqWant.set i false } })) ∧
    (s.hif.irqWant.getD i false = false →
      Machine.exec (.irqModerationExpiry dt vector) s = .next (s.after dt fun u =>
        { u with hif := { u.hif with irqLast := u.hif.irqLast.set i none } })))

/-- Tier 1.  PERST_N resets the HIF block: its registers take their reset values but for EPOCH, which increments, and IMAGE; packets
of the ring that have not started are dropped, a stream fails with reason 11, the jobs and the staging that read host memory end as
aborted, and the link is down.  Where none of those is under way every register outside the block is as it was, and commands in
progress and replies go on.  Its release trains the link and writes the mailbox replies that wait.  D3hot and Bus Master Enable
change nothing else. -/
def Obligations.PerstResetsTheHostLink : Prop :=
  (∀ (s : State) (dt : Nat), s.inReset = false → s.hif.perst = false →
    (Machine.exec (.perstNAssert dt) s = .next (s.after dt fun u =>
      let v := ((u.resetRegs 0x10000 0x20000).wr Reg.HIF.QSTAT.EPOCH (u.rd Reg.HIF.QSTAT.EPOCH + 1)).wr Reg.HIF.QSTAT.IMAGE
        (u.rd Reg.DEV.BOOT.IMAGE)
      let h : Hif := { v.hif with perst := true, gen := v.hif.gen + 1, tailWait := none, irqLast := [none, none] }
      let h : Hif := { h with irqWant := [false, false], bme := false, d3hot := false, autoBw := false }
      let v := { v with hif := { h with fetched := h.fetched.filter fun c => c.path ≠ Path.ring } }
      (v.streamFails 11 0).endHostReads.linkTrain)) ∧
    (s.cfg.stream = none → (∀ j ∈ s.cfg.jobs, j.gddr = true) → (∀ st, s.cfg.staging = some st → st.gddr = true) →
      ∃ t, Machine.exec (.perstNAssert dt) s = .next t ∧ t.hif.perst = true ∧
        t.rd Reg.HIF.QSTAT.EPOCH = (s.rd Reg.HIF.QSTAT.EPOCH + 1) % 256 ∧
        t.rd Reg.HIF.QSTAT.IMAGE = s.rd Reg.DEV.BOOT.IMAGE ∧
        (∀ a, 0x10000 ≤ a → a < 0x20000 → a ≠ Reg.HIF.QSTAT.EPOCH.addr → a ≠ Reg.HIF.LINK.SPEED.addr →
          t.stored a = regReset a) ∧
        (∀ a, a < 0x10000 ∨ 0x20000 ≤ a → t.stored a = s.stored a) ∧ t.hif.running = s.hif.running ∧
        t.hif.replies = s.hif.replies ∧ t.hif.eseq = s.hif.eseq ∧ t.cfg = s.cfg ∧ t.step = s.step ∧ t.fab = s.fab ∧
        t.out = s.out)) ∧
  (∀ (s : State) (dt : Nat), s.inReset = false → s.hif.perst = true →
    (Machine.exec (.perstNRelease dt) s = .next (s.after dt fun u =>
      let mine := u.hif.replies.filter fun r => r.path = .mailbox
      let rest := u.hif.replies.filter fun r => r.path ≠ .mailbox
      let v := ({ u with hif := { u.hif with perst := false, replies := rest } }).linkTrain
      let v := v.wrb Reg.HIF.MBOXCTL.BUSY ((v.hif.running ++ v.hif.fetched).any fun c => c.path = .mailbox)
      mine.foldl (fun (w : State) r =>
        if r.opcode = 0x0003 ∧ r.status = stOk then (w.mailboxReply r).beginOwed else w.mailboxReply r) v)) ∧
    ((∀ r ∈ s.hif.replies, r.path ≠ .mailbox) →
      ∃ t, Machine.exec (.perstNRelease dt) s = .next t ∧ t.hif.perst = false ∧ t.hif.running = s.hif.running ∧
        t.hif.replies = s.hif.replies ∧ ∀ a, a < 0x10000 ∨ 0x20000 ≤ a → t.stored a = s.stored a)) ∧
  (∀ (s : State) (dt : Nat), s.inReset = false → s.hif.perst = false →
    Machine.exec (.d3hotEntry dt false) s = .next (s.after dt fun u => { u with hif := { u.hif with d3hot := true } }) ∧
    Machine.exec (.d3hotEntry dt true) s = .next (s.after dt fun u => { u with hif := { u.hif with bme := false } }) ∧
    Machine.exec (.d3hotExit dt false) s = .next (s.after dt fun u => { u with hif := { u.hif with d3hot := false } }) ∧
    Machine.exec (.d3hotExit dt true) s = .next (s.after dt fun u => { u with hif := { u.hif with bme := true } }))

/-- Tier 1.  BAR2: an access to a mapped offset enters the hallway as a request of initiator 1,024, one that leaves its block of 512
bytes too (its target is that of its first byte); one to an unmapped offset completes with DECODE, and any while the ROM minimal
image runs with NOROUTE; bytes written to the CFG_DATA window, by BAR2 or through a multicast group, go to the open window stream,
break its order where they are not its next words, and are counted in WINDROP where none is open.  Each is a wake source. -/
def Obligations.Bar2AccessesAndTheWindow : Prop :=
  (∀ (s : State) (dt offset words fb lb : Nat) (write : Bool) (data : List Word), s.inReset = false → s.hif.perst = false →
    1 ≤ words → words ≤ 64 → offset % 8 = 0 → offset + 8 * words ≤ 2 ^ 36 → (write = true → data.length = words) →
    fb < 256 → lb < 256 →
    let failed := fun (u : State) (status : Nat) =>
      let v := u.hallwayError true status offset
      if write then v else v.send (.bar2Data offset false (List.replicate words (toWord (2 ^ 64 - 1))))
    let does := fun (effect : State → State) =>
      Machine.exec (.bar2Access dt offset write words fb lb data) s = .next (s.after dt fun u => (effect u).wakeLogic 1)
    let requests := fun (u : State) (a : Nat) =>
      u.issue (requestPacket iniPcie write a words fb lb (if write then data else [])) (.bar2 offset)
    (s.rdb Reg.DEV.BOOT.IMAGE = false → does fun u => failed u hsNoroute) ∧
    (s.rdb Reg.DEV.BOOT.IMAGE = true →
      (offset < 0xF_0000_0000 → does fun u => requests u offset) ∧
      (0xF_0000_0000 ≤ offset → offset < 0xF_1800_0000 →
        does fun u => requests u (0x10_0000_0000 + (offset - 0xF_0000_0000))) ∧
      (0xF_C000_0000 ≤ offset →
        does fun u => requests u (s.rd Reg.HIF.APERTURE.UNIT * 0x4000_0000 + (offset - 0xF_C000_0000))) ∧
      (0xF_1800_0000 ≤ offset → offset < 0xF_C000_0000 →
        (write = false ∨ offset < 0xF_4000_0000 ∨ 0xF_4100_0000 ≤ offset) → does fun u => failed u hsDecode) ∧
      (0xF_4000_0000 ≤ offset → offset < 0xF_4100_0000 → write = true →
        (fb = 255 → lb = 255 → does fun u => u.windowWrite (offset - 0xF_4000_0000) (wordBytes data)) ∧
        (¬ (fb = 255 ∧ lb = 255) → does fun u =>
          u.windowWrite (offset - 0xF_4000_0000) ((wordBytes data).drop 1))))) ∧
  (∀ (s : State) (dt offset group : Nat) (data : List Byte), s.inReset = false → s.hif.perst = false →
    s.rdb Reg.DEV.BOOT.IMAGE = true → offset < 2 ^ 24 → group < 64 → data ≠ [] →
    let does := fun (effect : State → State) =>
      Machine.exec (.cfgDataWrite dt offset data) s = .next (s.after dt fun u => (effect u).wakeLogic 1) ∧
      Machine.exec (.multicastWrite dt group offset data) s = .next (s.after dt fun u => (effect u).wakeLogic 1)
    ((s.cfg.stream = none ∨ s.rdb Reg.CFG.STAT.SRC = false) → does fun u => u.count Reg.CFG.WINDROP.COUNT 1) ∧
    (∀ x, s.cfg.stream = some x → s.rdb Reg.CFG.STAT.SRC = true →
      (x.failed.isSome = true → does fun u => u) ∧
      (let inOrder := offset % 8 = 0 ∧ data.length % 8 = 0 ∧ offset = x.bytes.length % 2 ^ 24 ∧
          offset + data.length ≤ 2 ^ 24
       x.failed = none → (inOrder → does fun u => u.streamData data) ∧
        (¬ inOrder → does fun u => u.streamFails 12 x.next))))
/-! ### Commands that answer from the state -/

/-- Tier 1.  IDENTIFY, STATUS, ECHO, LIMITS and BUDGET_QUERY reply with what the device holds; nothing else changes, but that
STATUS with bit 0 clears the counts of dropped events. -/
def Obligations.DeviceQueriesReply : Prop :=
  ∀ (s : State) (dt : Nat) (h : CmdHdr) (ws : List Word),
    (s.accepts dt h (decide (ws.length = 0)) false true = true →
      Machine.exec (.identify dt h ws) s = .next (s.afterCmd dt 0x0001 h ws fun c u => u.ok c
        [toWord (0x4624 + Config.stepping.toNat * 2 ^ 16 + u.dev.seat % 1024 * 2 ^ 24 + u.rd Reg.DEV.BOOT.IMAGE * 2 ^ 34 +
          u.rd Reg.DEV.BOOT.SLOT * 2 ^ 35), Config.serial, u.readReg Reg.FWU.VERSION.SLOTA.addr,
          toWord Config.romVersion.toNat])) ∧
    (s.accepts dt h (decide (ws.length = 1)) false true = true → onlyBits ws 0 [(0, 0)] = true →
      Machine.exec (.status dt h ws) s = .next (s.afterCmd dt 0x0002 h ws fun c u =>
        (if flagOf (ws.getD 0 0) 0 then { u with hif := { u.hif with dropTotal := 0, drops := [] } } else u).ok c
          ([u.statusWord, toWord u.hif.dropTotal, toWord u.hif.drops.length] ++
            u.hif.drops.map (fun d => toWord (d.1 % 2 ^ 16 + d.2 % 2 ^ 32 * 2 ^ 16)) ++ [toWord u.hif.retained.length] ++
            u.hif.retained.flatMap fun r => [r.w0, r.w1, r.w2, r.w3]))) ∧
    (s.accepts dt h (decide (ws.length ≤ 8192)) false false = true →
      Machine.exec (.echo dt h ws) s = .next (s.afterCmd dt 0x0004 h ws fun c u => u.ok c ws)) ∧
    (s.accepts dt h (decide (ws.length = 1)) false false = true → onlyBits ws 0 [(0, 0)] = true →
      Machine.exec (.limits dt h ws) s = .next (s.afterCmd dt 0x0007 h ws fun c u => u.ok c
        (if flagOf (ws.getD 0 0) 0 then
          toWord (u.avoidMap.length % 65536) :: u.avoidMap.map fun e =>
            toWord (e.1 + e.2.1 * 2 ^ 4 + e.2.2.1 * 2 ^ 8 + e.2.2.2.1 % 1024 * 2 ^ 14 + e.2.2.2.2.1 * 2 ^ 24 +
              e.2.2.2.2.2 * 2 ^ 32)
        else u.limitRows.map fun r => toWord (r.1 + min r.2.1 (2 ^ 23 - 1) * 2 ^ 40 + b2n r.2.2 * 2 ^ 63)))) ∧
    (s.accepts dt h (decide (ws.length = 0)) false false = true →
      Machine.exec (.budgetQuery dt h ws) s = .next (s.afterCmd dt 0x0B02 h ws fun c u => u.ok c
        (u.readReg Reg.PWR.LEDGER.CAP.addr :: (List.range 22).map fun k =>
          let g := if 1 + k = 0x15 ∨ 1 + k = 0x16 then b2n (u.heldOf (1 + k) != 0) else u.grantsOf (1 + k)
          toWord (u.heldOf (1 + k) % 2 ^ 11 + (1 + k) * 2 ^ 16 + g % 65536 * 2 ^ 32))))

/-- Tier 1.  ATC_ERRLOG, G6_ERRLOG, CRYPT_STATUS and NOC_STATS reply with the status register and the records of what they name;
with their CLEAR bit they then clear those records, and thaw a frozen log; nothing else changes. -/
def Obligations.LogsReplyAndClear : Prop :=
  ∀ (s : State) (dt : Nat) (h : CmdHdr) (ws : List Word), s.accepts dt h (decide (ws.length = 1)) false false = true →
    let clear := flagOf (ws.getD 0 0) 8
    (onlyBits ws 0 [(2, 0), (8, 8)] = true →
      Machine.exec (.atcErrlog dt h ws) s = .next (s.afterCmd dt 0x0302 h ws fun c u =>
        let t := fieldOf (ws.getD 0 0) 2 0
        (if clear then { u with attic := { u.attic with
            table := u.attic.table.filter fun r => r.1 ≠ t, frozen := u.attic.frozen.filter (· ≠ t) } } else u).ok c
          (u.readReg (Reg.ATC.STAT.ENTRIES t).addr :: (u.attic.table.filter fun r => r.1 = t).flatMap fun r =>
            [toWord (r.2.w0 + r.2.rep * 2 ^ 44), toWord r.2.w1]))) ∧
    (onlyBits ws 0 [(0, 0), (8, 8)] = true →
      Machine.exec (.g6Errlog dt h ws) s = .next (s.afterCmd dt 0x0503 h ws fun c u =>
        let p := fieldOf (ws.getD 0 0) 0 0
        (if clear then { u with g6 := { u.g6 with
            log := u.g6.log.filter fun r => r.1 ≠ p, frozen := u.g6.frozen.filter fun q => q ≠ p } } else u).ok c
          (u.readReg (Reg.MEM.LOGSTAT.ENTRIES p).addr :: (u.g6.log.filter fun r => r.1 = p).flatMap fun r =>
            [r.2.g6Word0, toWord r.2.w1]))) ∧
    (onlyBits ws 0 [(0, 0), (8, 8)] = true →
      Machine.exec (.cryptStatus dt h ws) s = .next (s.afterCmd dt 0x0602 h ws fun c u =>
        let p := fieldOf (ws.getD 0 0) 0 0
        let blocked := u.crypt.blocked.filter fun b => b.channel / 8 = p
        (if clear then { u with crypt := { u.crypt with
            log := u.crypt.log.filter fun r => r.1 ≠ p, frozen := u.crypt.frozen.filter fun q => q ≠ p } } else u).ok c
          ([u.readReg Reg.CRYPT.STAT.KEY.addr, u.readReg (Reg.CRYPT.UNITS.MODES 0).addr,
            u.readReg (Reg.CRYPT.UNITS.MODES 1).addr, u.readReg (Reg.CRYPT.LOGSTAT.ENTRIES p).addr] ++
            [toWord blocked.length] ++ (blocked.map fun b =>
              toWord (b.channel + b.level * 2 ^ 4 + b.node * 2 ^ 8 + b.firstUnit * 2 ^ 32 + b.lastUnit * 2 ^ 40)) ++
            (u.crypt.log.filter fun r => r.1 = p).flatMap fun r => [r.2.cryptWord0, toWord r.2.w1]))) ∧
    (onlyBits ws 0 [(10, 0), (26, 16), (32, 32)] = true →
      let first := fieldOf (ws.getD 0 0) 10 0
      let n := fieldOf (ws.getD 0 0) 26 16
      1 ≤ n → n ≤ 1024 → first + n ≤ 1028 →
      Machine.exec (.nocStats dt h ws) s = .next (s.afterCmd dt 0x0401 h ws fun c u =>
        let is := (List.range n).map (first + ·)
        (if flagOf (ws.getD 0 0) 32 then is.foldl State.clearIni u else u).ok c
          (is.flatMap fun i => [u.readReg (Reg.NOC.INI.TXN.COUNT i).addr, u.readReg (Reg.NOC.INI.BYTES.COUNT i).addr,
            u.readReg (Reg.NOC.INI.TAGS.INUSE i).addr, u.readReg (Reg.NOC.INI.LAT.MAXLAT i).addr] ++ u.histWords i)))

/-- Tier 1.  STEP_STATUS, CORR_STATUS, LANE_STATUS, SIG_STATUS and FW_INFO reply with the registers of what they name, and
TRACE_READ with the trace's state and the records asked for; nothing else changes, but that FW_INFO draws the boot record's word
where flash holds no valid copy of it. -/
def Obligations.StatusCommandsReply : Prop :=
  ∀ (s : State) (dt : Nat) (h : CmdHdr) (ws : List Word),
    (s.accepts dt h (decide (ws.length = 0)) false false = true →
      Machine.exec (.stepStatus dt h ws) s = .next (s.afterCmd dt 0x0106 h ws fun c u => u.ok c
        ([Reg.STEP.CTRL.MODE.addr, Reg.STEP.STAT.STATE.addr, Reg.STEP.COUNT.COUNT.addr, Reg.STEP.CARDPOS.POS0.addr,
          Reg.STEP.LASTSTEP.DUR.addr, Reg.STEP.OVRCNT.COUNT.addr, Reg.STEP.OVRSTEP.STEPNO.addr,
          Reg.STEP.PACING.MININT.addr, Reg.STEP.BUDGET.DEMAND.addr, Reg.STEP.LATECNT.COUNT.addr].map u.readReg ++
          (List.range 8).map fun t => u.readReg (Reg.STEP.NOTDONE.WINGS t).addr))) ∧
    (s.accepts dt h (decide (ws.length = 1)) false false = true → onlyBits ws 0 [(3, 0)] = true →
      fieldOf (ws.getD 0 0) 3 0 ≤ 13 →
      Machine.exec (.corrStatus dt h ws) s = .next (s.afterCmd dt 0x0403 h ws fun c u =>
        u.ok c (u.dirWords (2 * fieldOf (ws.getD 0 0) 3 0) ++ u.dirWords (2 * fieldOf (ws.getD 0 0) 3 0 + 1)))) ∧
    (s.accepts dt h (decide (ws.length = 1)) false false = true → onlyBits ws 0 [(6, 0), (14, 8)] = true →
      let first := fieldOf (ws.getD 0 0) 6 0
      let n := fieldOf (ws.getD 0 0) 14 8
      1 ≤ n → first + n ≤ 68 →
      Machine.exec (.laneStatus dt h ws) s = .next (s.afterCmd dt 0x0703 h ws fun c u =>
        let lanes := (List.range n).map (first + ·)
        u.ok c ((lanes.flatMap fun l =>
            if l < 64 then [u.readReg (Reg.LANE.CFG.RATE l).addr, u.readReg (Reg.LANE.STAT.STATE l).addr]
            else [u.readReg (Reg.ETH.CFG.MODE (l - 64)).addr, u.readReg (Reg.ETH.STAT.LINK (l - 64)).addr]) ++
          (lanes.filter fun l => (u.group l).isSome).map fun l => u.readReg (Reg.LANE.LINK2.HELD l).addr))) ∧
    (s.accepts dt h (decide (ws.length = 1 ∨ ws.length = 2)) false false = true → onlyBits ws 0 [(1, 0), (8, 8)] = true →
      fieldOf (ws.getD 0 0) 1 0 = 0 → ws.getD 1 0 = 0 →
      Machine.exec (.sigStatus dt h ws) s = .next (s.afterCmd dt 0x0905 h ws fun c u => u.ok c
        [u.stored Reg.CFG.SCAN.ENABLED.addr, u.stored Reg.CFG.SIGCNT.MISMATCH.addr, u.stored Reg.CFG.LASTSIG.FRAME.addr,
          u.stored Reg.CFG.MIRROR.ENABLED.addr])) ∧
    (s.accepts dt h (decide (ws.length = 0)) false true = true →
      Machine.exec (.fwInfo dt h ws) s = .next (s.afterCmd dt 0x0C01 h ws fun c u =>
        let w := u.bootWord
        w.2.ok c ([w.2.readReg Reg.FWU.STAT.SLOT.addr, w.2.readReg Reg.FWU.VERSION.SLOTA.addr, w.1, toWord u.fw.floor] ++
          if u.rdb Reg.DEV.BOOT.IMAGE then
            (u.fw.stores.getD (u.rd Reg.DEV.BOOT.SLOT) .empty).history.flatMap fun x => [x.1, x.2]
          else []))) ∧
    (s.accepts dt h (decide (ws.length = 2)) false false = true → onlyBits ws 0 [(31, 0), (62, 32)] = true →
      onlyBits ws 1 (if (s.elapse dt).traceG6 then [] else [(2, 0), (13, 8)]) = true → fieldOf (ws.getD 0 0) 62 32 = 0 →
      Machine.exec (.traceRead dt h ws) s = .next (s.afterCmd dt 0x0D03 h ws fun c u =>
        u.ok c [u.stored Reg.DBG.TRSTAT.STATE.addr, u.stored Reg.DBG.TRPOS.HELD.addr])) ∧
    (s.accepts dt h (decide (ws.length = 2)) false false = true → onlyBits ws 0 [(31, 0), (62, 32)] = true →
      onlyBits ws 1 (if (s.elapse dt).traceG6 then [] else [(2, 0), (13, 8)]) = true →
      let wing := fieldOf (ws.getD 1 0) 2 0 * 64 + fieldOf (ws.getD 1 0) 13 8
      ∀ tr, s.dbg.trace = some tr → s.rd Reg.DBG.TRSTAT.STATE = trDone →
        ((s.elapse dt).traceG6 = true ∨ tr.wings.contains wing = true) →
        Machine.exec (.traceRead dt h ws) s = .next (s.afterCmd dt 0x0D03 h ws fun c u =>
          u.ok c ([u.stored Reg.DBG.TRSTAT.STATE.addr, u.stored Reg.DBG.TRPOS.HELD.addr] ++
            ((tr.recs.zipIdx.drop (fieldOf (ws.getD 0 0) 31 0)).take (fieldOf (ws.getD 0 0) 62 32)).flatMap fun r =>
              u.traceWords tr wing (tr.count - tr.recs.length + r.2) r.1)))
/-! ### The step engine -/

/-- Tier 1.  STEP_CONFIGURE in HALTED, with a mode other than REEL, a period that its mode allows, a start cue that is free or the
step engine's own, and a demand that the ledger grants, in full or, where STRICT allows it, in part, sets the mode, the pacing and the
strictness, and takes the grant.  Where nothing refuses them, CARD_LOAD replaces a card segment; STEP_RUN and STEP_SINGLE return the
device from HOLD and start the engine, after the closing SWITCH where one is owed, and STEP_HALT stops it: at once with cause 1 where
no step is in progress, else when the step or the return to the first context ends; in mode REEL the whole reel, in HUNG at once;
where the engine does not run, it replies at once. -/
def Obligations.StepCommandsAct : Prop :=
  (∀ (s : State) (dt : Nat) (h : CmdHdr) (ws : List Word), s.accepts dt h (decide (ws.length = 2)) false false = true →
    onlyBits ws 0 [(1, 0), (4, 4), (5, 5), (6, 6), (11, 8)] = true → onlyBits ws 1 [(19, 0)] = true →
    let mode := fieldOf (ws.getD 0 0) 1 0
    let period := fieldOf (ws.getD 1 0) 19 0
    let cue := fieldOf (ws.getD 0 0) 11 8
    let u := (s.elapse dt).begun 0x0101 h ws
    let demand := u.demandOf mode u.ctxMode period u.ctxsInUse
    mode ≠ 3 → (mode = 1 → 20 ≤ period ∧ maxList (u.promises u.ctxMode u.ctxsInUse) ≤ period) → s.engine = seHalted →
    u.engineBusy = false → (flagOf (ws.getD 0 0) 6 = true → u.cueFree cue fnStep = true) →
    (demand ≤ u.holds 0x0A + u.freeBu ∨ (flagOf (ws.getD 0 0) 4 = false ∧ u.holds 0x0A + u.freeBu ≠ 0)) →
    let room := u.holds 0x0A + u.freeBu
    ∃ t, Machine.exec (.stepConfigure dt h ws) s = .next t ∧ t.holds 0x0A = min demand room ∧
      t.rd Reg.STEP.BUDGET.GRANT = (if demand ≤ room then min demand 2047 else room % 2048) ∧
      t.rd Reg.STEP.CTRL.MODE = mode ∧ t.rd Reg.STEP.PACE.PERIOD = period ∧
      t.rdb Reg.STEP.PACE.SLIP = flagOf (ws.getD 0 0) 5 ∧ t.rdb Reg.STEP.PACE.CUESTART = flagOf (ws.getD 0 0) 6 ∧
      t.rd Reg.STEP.PACE.CUE = cue ∧ t.step.strict = flagOf (ws.getD 0 0) 4 ∧ t.engine = seHalted ∧
      t.rd Reg.STEP.BUDGET.DEMAND = min demand 2047 ∧ t.fab = s.fab ∧ t.cfg = s.cfg ∧ t.g6 = s.g6 ∧ t.noc = s.noc) ∧
  (∀ (s : State) (dt : Nat) (h : CmdHdr) (ws : List Word),
    (let seg := fieldOf (ws.getD 0 0) 1 0
     let base := fieldOf (ws.getD 0 0) 27 16
     let len := fieldOf (ws.getD 0 0) 44 32
     let entry := fun (i : Nat) => fieldOf (ws.getD (1 + i / 2) 0) (32 * (i % 2) + 31) (32 * (i % 2))
     s.accepts dt h (decide (ws.length = 1 + (len + 1) / 2)) false false = true →
      onlyBits ws 0 [(1, 0), (27, 16), (44, 32)] = true → (∀ i < len, entry i < 2 ^ 17) →
      (len % 2 = 1 → fieldOf (ws.getD ((len + 1) / 2) 0) 63 32 = 0) → base + len ≤ 4096 →
      (∀ k < 4, k ≠ seg → rangesMeet base len (s.rd (Reg.STEP.CARDSEG.BASE k)) (s.rd (Reg.STEP.CARDSEG.LEN k)) = false ∨
        (s.rd (Reg.STEP.CARDSEG.BASE k) = base ∧ s.rd (Reg.STEP.CARDSEG.LEN k) = len)) →
      (s.engine = seHalted ∨ s.engine = seUnconfigured) → s.step.startWait = none →
      Machine.exec (.cardLoad dt h ws) s = .next (s.afterCmd dt 0x0102 h ws fun c u =>
        (u.loadCard seg base ((List.range len).map entry)).ok c [])) ∧
    (let starts := fun (u : State) (c : Cmd) (left : Option Nat) =>
       let t := u.leaveHold
       if t.step.closingOwed = true then
         (({ t with step := { t.step with startWait := some (some c.id, left) } }).startRefills t.nextCtx 3).resumeStart
       else (t.beginRun left).complete c.id stOk 0 []
     ((∀ r ∈ ((s.elapse dt).begun 0x0103 h ws).runRefusals, r.1 = false) → s.rd Reg.STEP.CTRL.MODE ≠ 2 →
      s.accepts dt h (decide (ws.length = 0)) false false = true →
      Machine.exec (.stepRun dt h ws) s = .next (s.afterCmd dt 0x0103 h ws fun c u => starts u c none)) ∧
     ((∀ r ∈ ((s.elapse dt).begun 0x0105 h ws).runRefusals, r.1 = false) → onlyBits ws 0 [(31, 0)] = true →
      fieldOf (ws.getD 0 0) 31 0 ≠ 0 → s.accepts dt h (decide (ws.length = 1)) false false = true →
      Machine.exec (.stepSingle dt h ws) s = .next (s.afterCmd dt 0x0105 h ws fun c u =>
        starts u c (some (fieldOf (ws.getD 0 0) 31 0))))) ∧
    (s.step.startWait = none → s.accepts dt h (decide (ws.length = 0)) false false = true →
      let asked := fun (u : State) (c : Cmd) => { u with step := { u.step with haltCmds := u.step.haltCmds ++ [c.id] } }
      let wanted := fun (u : State) (c : Cmd) =>
        { asked u c with step := { (asked u c).step with haltReq := true } }
      (s.freshId → s.stepping = false →
        Machine.exec (.stepHalt dt h ws) s = .next (s.afterCmd dt 0x0104 h ws fun c u => u.ok c [])) ∧
      (s.engine = seRunning → s.step.ret.isSome = true →
        Machine.exec (.stepHalt dt h ws) s = .next (s.afterCmd dt 0x0104 h ws fun c u => asked u c)) ∧
      (s.engine = seRunning → s.step.ret = none → s.rd Reg.STEP.CTRL.MODE ≠ 3 →
        Machine.exec (.stepHalt dt h ws) s = .next (s.afterCmd dt 0x0104 h ws fun c u =>
          if u.step.cur = none then (wanted u c).stopEngine 1 seHalted else wanted u c)) ∧
      (s.engine = seRunning → s.step.ret = none → s.rd Reg.STEP.CTRL.MODE = 3 →
        Machine.exec (.stepHalt dt h ws) s = .next (s.afterCmd dt 0x0104 h ws fun c u => (wanted u c).reelStop)) ∧
      (s.engine = seHung → s.step.ret = none →
        Machine.exec (.stepHalt dt h ws) s = .next (s.afterCmd dt 0x0104 h ws fun c u => (asked u c).hangHalts))))

/-- Tier 1.  STATE_SAVE takes the image of the fabric, the step number and the card positions; its completion writes it to its region,
keeps it and answers, with HW_FAULT where some of it cannot be written.  STATE_RESTORE reads such an image and puts the fabric, the
step number and the card positions back, with no step pending; one that cannot be read gives HW_FAULT (the model's choice: assumption
113). -/
def Obligations.StateImagesSaveAndRestore : Prop :=
  (∀ (s : State) (dt : Nat) (h : CmdHdr) (ws : List Word), s.accepts dt h (decide (ws.length = 1)) false false = true →
    s.engine = seHalted →
    let a := (ws.getD 0 0).toNat
    (a % 4096 = 0 → s.g6.save = none → (s.stateRegion a = true ∨ s.allocRefusal a imageSize = none) →
      Machine.exec (.stateSave dt h ws) s = .next (s.afterCmd dt 0x0107 h ws fun c u =>
        let v := if s.stateRegion a then u else u.allocRegion a imageSize .state
        let img := Image.mk u.fab.ff u.fab.landing u.fab.mac u.fab.bsel (u.rd Reg.STEP.COUNT.COUNT)
          ([0, 1, 2, 3].map u.cardIndex) u.cfg.sha
        { v with g6 := { v.g6 with
          save := some (c.id, a, img)
          images := v.g6.images.filter fun g => !rangesMeet g.1 imageSize a imageSize } })) ∧
    (∀ img, s.g6.images.find? (fun g => g.1 = a ∧ g.2.digest = s.cfg.sha) = some (a, img) → s.step.startWait = none →
      let r := ((s.elapse dt).begun 0x0108 h ws).readImage a
      (r.2 = true → Machine.exec (.stateRestore dt h ws) s = .next (s.afterCmd dt 0x0108 h ws fun c u =>
        ((u.readImage a).1.loadImage img).ok c [])) ∧
      (r.2 = false → Machine.exec (.stateRestore dt h ws) s = .next (s.afterCmd dt 0x0108 h ws fun c u =>
        (u.readImage a).1.complete c.id stHwFault 0 [])))) ∧
  (∀ (u : State) (img : Image),
    let t := u.loadImage img
    t.fab = { u.fab with ff := img.ff, landing := img.landing, mac := img.mac, bsel := img.bsel } ∧
    t.step = { u.step with saved := none } ∧ t.rd Reg.STEP.COUNT.COUNT = img.count % 2 ^ 64 ∧
    t.rd Reg.STEP.STAT.PENDING = 0 ∧ t.engine = u.engine ∧ t.attic = u.attic ∧ t.cfg = u.cfg ∧ t.g6 = u.g6 ∧ t.out = u.out ∧
    t.hif = u.hif) ∧
  (∀ (s : State) (dt id a : Nat) (img : Image), s.inReset = false → s.g6.save = some (id, a, img) →
    Machine.exec (.stateSaveComplete dt) s = .next (s.after dt fun u =>
      let r := ({ u with free := u.free + 1, g6 := { u.g6 with save := none } }).writeImage a u.free
      if r.2 = true then ({ r.1 with g6 := { r.1.g6 with images := r.1.g6.images ++ [(a, img)] } }).complete id stOk 0 []
      else r.1.complete id stHwFault 0 []))

/-- Tier 1.  LAUNCH acts where the launch rule allows it, unless a full trace buffer under policy STALL holds it, and that stall is
counted once.  A pacer tick falls at its instant, and the next one falls a period of the pacer's loop later. -/
def Obligations.LaunchesAndTicks : Prop :=
  ∀ (s : State) (dt : Nat) (r : Run), s.inReset = false → s.step.run = some r →
    (∀ pins, (s.elapse dt).launchDue r = true →
      (s.dbg.trace = none →
        Machine.exec (.stepLaunch dt pins) s = .next (s.after dt fun u => u.launch r pins)) ∧
      (∀ tr, s.dbg.trace = some tr → (s.elapse dt).traceStalls = false →
        Machine.exec (.stepLaunch dt pins) s = .next (s.after dt fun u =>
          ({ u with dbg := { u.dbg with trace := some { tr with held := false } } }).launch r pins)) ∧
      (∀ tr, s.dbg.trace = some tr → (s.elapse dt).traceStalls = true → tr.held = false →
        Machine.exec (.stepLaunch dt pins) s = .next (s.after dt fun u =>
          ({ u with dbg := { u.dbg with trace := some { tr with held := true } } }).count Reg.DBG.TRCNT.STALLS 1)) ∧
      (∀ tr, s.dbg.trace = some tr → (s.elapse dt).traceStalls = true → tr.held = true →
        Machine.exec (.stepLaunch dt pins) s = .next (s.after dt fun u => u))) ∧
    (s.rd Reg.STEP.CTRL.MODE = 1 → (r.waitCue = false ∨ r.cueHit = true) → r.nextFall ≤ s.now + dt →
      Machine.exec (.pacerTick dt) s = .next (s.after dt fun u => { u with step := { u.step with run := some { r with
        fallen := r.fallen + 1, lastFall := r.nextFall, nextFall := r.nextFall + u.tickPeriod } } }))

/-- Tier 1.  Within a step: a wing's round ends once it has lasted its time; a token that has crossed its route is presented once
and acknowledged; an acknowledge that has crossed its way back reaches the port the token left from; a done reaches the step master
once. -/
def Obligations.RoundsTokensAndDones : Prop :=
  ∀ (s : State) (dt : Nat) (r : StepRun), s.inReset = false → s.step.cur = some r →
    (∀ wing x wc, r.wings.find? (fun y => y.wing = wing) = some x → s.wing (s.phaseCtx r) wing = some wc →
      r.stage = .evaluate → x.active = true → x.began + s.roundTime wc wing ≤ s.now + dt →
      Machine.exec (.wingRoundEnd dt wing) s = .next (s.after dt fun u => u.roundEnd wing)) ∧
    (∀ dest t, r.tokens.find? (fun t => !t.isAck && t.dest == endPeer dest && (t.hops.isEmpty || s.routeCut t.hops) &&
        decide (t.ready ≤ s.now + dt)) = some t →
      Machine.exec (.tokenArrival dt dest) s = .next (s.after dt fun u => u.tokenArrives r t)) ∧
    (∀ wing port t, r.tokens.find? (fun t => t.isAck && t.dest == Peer.wing wing port &&
        (t.hops.isEmpty || s.routeCut t.hops)) = some t →
      Machine.exec (.tokenAckArrival dt wing port) s = .next (s.after dt fun u =>
        (u.setCur { r with tokens := r.tokens.erase t, wings := r.wings.map fun x =>
          if x.wing = wing then { x with acked := port :: x.acked } else x }).markDone wing)) ∧
    (∀ unit, s.deviceScope r.ctx = true → r.stage = .evaluate → unit ∈ r.towers → r.towerDone unit = true →
      unit ∉ r.doneTowers →
      Machine.exec (.doneAtStepMaster dt false unit) s = .next (s.after dt fun u =>
        u.setCur { r with doneTowers := unit :: r.doneTowers, lastDone := u.now })) ∧
    (∀ unit, s.deviceScope r.ctx = true → r.stage = .evaluate → unit ∈ s.phasePorches r → s.porchDone r unit = true →
      unit ∉ r.donePorches →
      Machine.exec (.doneAtStepMaster dt true unit) s = .next (s.after dt fun u =>
        u.setCur { r with donePorches := unit :: r.donePorches, lastDone := u.now }))

/-- Tier 1.  COMMIT acts once every done has arrived, SWITCH once its refills have acknowledged and its floor has passed.  A refill
ends when its first bursts and every repeated one have acknowledged, and one with a frame that fails its signature does not
acknowledge; a first bad burst is repeated, a second one of the same room tests the room's bonds and fails the refill; a frame whose
stored signature fails ends its refill in failure. -/
def Obligations.CommitSwitchAndRefill : Prop :=
  (∀ (s : State) (dt : Nat) (r : StepRun), s.inReset = false → s.step.cur = some r →
    (r.stage = .evaluate → s.allDone r = true → s.commitFrom r ≤ s.now + dt →
      Machine.exec (.commitComplete dt) s = .next (s.after dt fun u => u.commitPhase r)) ∧
    (r.stage = .switch → s.refilled 0 = true → r.evalAt + 2 * fsNs ≤ s.now + dt →
      Machine.exec (.switchComplete dt) s = .next (s.after dt fun u => u.switchPhase r))) ∧
  (∀ (s : State) (dt wing room : Nat) (bonds spares : List Nat) (x : Refill), s.inReset = false →
    s.fab.refills.find? (fun y => y.wing = wing) = some x →
    let goesOn := fun (u : State) (y : Refill) =>
      if y.retry = [] then (u.endRefill y true).refillsSettle else u.setRefill y
    (x.main = true → s.framesBad x.ctx wing = false →
      Machine.exec (.refillBurstDone dt wing room .ack bonds spares) s = .next (s.after dt fun u =>
        goesOn u { x with main := false })) ∧
    (x.main = true → s.framesBad x.ctx wing = true →
      Machine.exec (.refillBurstDone dt wing room .ack bonds spares) s = .next (s.after dt fun u => u)) ∧
    (x.main = false →
      Machine.exec (.refillBurstDone dt wing room .ack bonds spares) s = .next (s.after dt fun u =>
        goesOn (u.burstHeld x) { x with retry := x.retry.filter fun r => r ≠ room })) ∧
    (room ∉ x.retry →
      Machine.exec (.refillBurstDone dt wing room .crcFail bonds spares) s = .next (s.after dt fun u =>
        (u.setRefill { x with retry := room :: x.retry }).count Reg.CTX.REFILL.RETRY 1)) ∧
    (room ∈ x.retry →
      Machine.exec (.refillBurstDone dt wing room .crcFail bonds spares) s = .next (s.after dt fun u =>
        ((u.noteRefillFail x room 0).bondTest wing room (bonds ++ spares.map (1040 + ·))).refillFails x)) ∧
    Machine.exec (.refillBurstDone dt wing room .sigFail bonds spares) s = .next (s.after dt fun u =>
      ((((u.upsetFrame x.ctx wing room).noteRefillFail x room 1).count Reg.CTX.REFILL.SIGFAIL 1).sigMismatch wing room x.ctx
        false).refillFails x))

/-- Tier 1.  At the hang limit a running step is HUNG: NOTDONE names the wings that have not reported done, STEP_HUNG is posted, and a
halt that waits acts at once.  Once a millisecond the SU monitor keeps the highest SU of each tower, and its alarm is posted when a
wing first passes the limit.  A bank FIFO takes an entry, or drops it where it holds 64; its other side takes the oldest entry that
it may read, and drives with it the pins that the FIFO feeds. -/
def Obligations.HangsSuAndBankFifos : Prop :=
  (∀ (s : State) (dt : Nat) (r : StepRun), s.inReset = false → s.step.cur = some r → s.engine = seRunning →
    r.launchAt + max 10 (s.rd Reg.STEP.HANGLIM.LIMIT) * fsUs ≤ s.now + dt →
    Machine.exec (.hangLimitExpiry dt) s = .next (s.after dt fun u =>
      let late := (r.wings.filter fun x => !x.done).map fun x => x.wing
      let v := (List.range 8).foldl (fun v t => v.wr (Reg.STEP.NOTDONE.WINGS t)
        ((late.filter fun w => w / 64 = t).map fun w => 2 ^ (w % 64)).sum) u
      let v := (v.wr Reg.STEP.STAT.STATE seHung).post 0x0103 sevError srcDevice
        (((List.range 8).filter fun t => late.any fun w => w / 64 == t).map fun t => 2 ^ t).sum
      if s.step.haltReq = true then v.hangHalts else v)) ∧
  (∀ (s : State) (dt : Nat) (su : List (Nat × Nat)), s.inReset = false → s.power = 0 →
    s.clk.sampledAt.at 0 0 + fsMs ≤ s.now + dt →
    ∃ t, Machine.exec (.suMonitorInterval dt su) s = .next t ∧
      (∀ tower < 8, t.rd (suMeasF tower) =
        min 65535 (maxList ((su.filter fun (x : Nat × Nat) => x.1 / 64 = tower).map Prod.snd))) ∧
      t.step.atRisk = (su.any fun x => decide (s.rd Reg.STEP.SULIM.LIMIT < x.2) || decide (65535 < x.2)) ∧
      (t.step.atRisk = true → s.step.atRisk = false → t.rd Reg.STEP.STAT.AT_RISK = 1) ∧
      (t.step.atRisk = false ∨ s.step.atRisk = true → t.out = s.out ∧ t.hif = s.hif) ∧
      t.cfg = s.cfg ∧ t.engine = s.engine) ∧
  (∀ (s : State) (dt bank fifo : Nat), s.inReset = false → (s.elapse dt).bankInReset bank = false →
    (∀ entry, bank < 16 → fifo < 4 → s.rdb (Reg.IOB.CFG.ACTIVE bank) = true →
      ((s.fifo bank fifo false).entries.length < 64 →
        Machine.exec (.bankFifoWrite dt bank fifo entry) s = .next (s.after dt fun u =>
          u.setFifo { s.fifo bank fifo false with
            entries := (s.fifo bank fifo false).entries ++ [(entry, u.bankSeen u.now bank)] })) ∧
      (64 ≤ (s.fifo bank fifo false).entries.length →
        Machine.exec (.bankFifoWrite dt bank fifo entry) s = .next (s.after dt fun u =>
          (u.setFifo { s.fifo bank fifo false with ovf := true }).count (Reg.IOB.DROP.INDROP bank) 1))) ∧
    (∀ e rest, (s.fifo bank fifo true).entries = e :: rest → e.2 ≤ s.now + dt →
      Machine.exec (.bankFifoRead dt bank fifo) s = .next (s.after dt fun u =>
        (u.setFifo { s.fifo bank fifo true with entries := rest }).fifoPins bank fifo e.1)))
/-! ### Configuration -/

/-- Tier 1.  CFG_BEGIN opens the configuration stream: a new start key, 6 BU to the loader, the stream's registers.  CFG_END ends
one that has failed with its status, or waits for a list that is still read; CFG_ABORT ends it, or a job, as aborted; a stream that
no CFG_END follows within its TIMEOUT fails with reason 10. -/
def Obligations.ConfigurationStreamsOpenAndEnd : Prop :=
  (∀ (s : State) (dt : Nat) (h : CmdHdr) (ws : List Word), s.accepts dt h (decide (ws.length = 3)) false false = true →
    onlyBits ws 0 [(0, 0)] = true → onlyBits ws 2 [(19, 0)] = true → 100 ≤ fieldOf (ws.getD 2 0) 19 0 →
    fieldOf (ws.getD 2 0) 19 0 ≤ 600000 → s.stepping = false → s.tripped = false → s.streamOpen = false →
    s.cfg.staging = none → s.cfg.jobs = [] → s.allReady = true → 6 ≤ s.freeBu →
    Machine.exec (.cfgBegin dt h ws) s = .next (s.afterCmd dt 0x0901 h ws fun c u =>
      (u.openStream (flagOf (ws.getD 0 0) 0) (ws.getD 1 0).toNat (fieldOf (ws.getD 2 0) 19 0)).ok c [])) ∧
  (∀ (s : State) (dt : Nat) (h : CmdHdr) (ws : List Word) (x : Stream),
    s.accepts dt h (decide (ws.length = 0)) false false = true → s.cfg.stream = some x → s.cfg.endCmd = none →
    (∀ reason index, x.failed = some (reason, index) →
      Machine.exec (.cfgEnd dt h ws) s = .next (s.afterCmd dt 0x0902 h ws fun c u =>
        (u.streamEnds (reasonStatus reason)).answer c (reasonStatus reason) (index % 2 ^ 16 + reason % 256 * 2 ^ 16) [])) ∧
    (x.failed = none → x.whole = false → s.rdb Reg.CFG.STAT.SRC = false →
      Machine.exec (.cfgEnd dt h ws) s = .next (s.afterCmd dt 0x0902 h ws fun c u =>
        { u with cfg := { u.cfg with endCmd := some c.id } })) ∧
    (x.failed = none → x.whole = false → s.rdb Reg.CFG.STAT.SRC = true →
      Machine.exec (.cfgEnd dt h ws) s = .next (s.afterCmd dt 0x0902 h ws fun c u =>
        ({ u with cfg := { u.cfg with endCmd := some c.id } }).streamFails 9 x.next)) ∧
    (x.failed = none → x.whole = true →
      Machine.exec (.cfgEnd dt h ws) s = .next (s.afterCmd dt 0x0902 h ws fun c u =>
        ({ u with cfg := { u.cfg with endCmd := some c.id } }).cfgFinish))) ∧
  (∀ (s : State) (dt : Nat) (h : CmdHdr) (ws : List Word), s.accepts dt h (decide (ws.length = 1)) false false = true →
    onlyBits ws 0 [(0, 0), (31, 16)] = true →
    (flagOf (ws.getD 0 0) 0 = false → s.cfg.stream.isSome = true →
      Machine.exec (.cfgAbort dt h ws) s = .next (s.afterCmd dt 0x0903 h ws fun c u => (u.streamFails 17 0).ok c [])) ∧
    (∀ j, flagOf (ws.getD 0 0) 0 = true → s.cfg.jobs.find? (fun j => j.id = fieldOf (ws.getD 0 0) 31 16) = some j →
      Machine.exec (.cfgAbort dt h ws) s = .next (s.afterCmd dt 0x0903 h ws fun c u =>
        (u.jobEnds j stAborted 17 false).ok c []))) ∧
  (∀ (s : State) (dt : Nat) (x : Stream), s.inReset = false → s.cfg.stream = some x → x.failed = none → s.cfg.endCmd = none →
    s.rd Reg.CFG.STAT.STREAM ≠ 4 → x.lastByte + x.timeoutMs * fsMs ≤ s.now + dt →
    Machine.exec (.cfgStreamTimeout dt) s = .next (s.after dt fun u => u.streamFails 10 0))

/-- Tier 1.  A CFG_END whose container has arrived whole checks in order: the trailer, whether the container selects this device,
its consistency, the cues and lanes it takes, the BU it needs.  Where all hold, the wings, directions and groups are granted and the
configuration is activated; the command replies at once unless the refill ahead has still to acknowledge. -/
def Obligations.CfgEndChecksBeforeItActivates : Prop :=
  ∀ (s : State) (x : Stream) (id : Nat), s.cfg.stream = some x → s.cfg.endCmd = some id →
    (s.trailerOk x = false → s.cfgFinish = s.streamFails 14 x.sections) ∧
    (s.trailerOk x = true → x.selected = false →
      s.cfgFinish = (({ s with cfg := { s.cfg with endCmd := none } }).streamEnds stOk).complete id stOk (2 ^ 24) []) ∧
    (s.trailerOk x = true → x.selected = true →
      (∀ reason index, s.inconsistent x = some (reason, index) → s.cfgFinish = s.streamFails reason index) ∧
      (s.inconsistent x = none →
        let taken := x.outCues.any (fun k => !s.cueFree k fnOutput) || s.lanesConflict x.laneGroups
        let wings := (x.carried.flatMap x.planeWings).eraseDups.length
        let routes := x.ctxs.map fun c => (c.wings.flatMap fun w => w.2.outs.flatMap fun o => o.route) ++
          c.porchIns.flatMap fun p => p.route
        let dirs := 2 * ((((modeSet x.modeWords).flatMap fun c => routes.getD c []).map Hop.dir).eraseDups).length
        (taken = true → s.cfgFinish = s.endRefused stTaken) ∧
        (taken = false → s.freeBu < wings + dirs + s.lanesBu x.laneGroups → s.cfgFinish = s.endRefused stBudget) ∧
        (taken = false → wings + dirs + s.lanesBu x.laneGroups ≤ s.freeBu →
          let t := x.outCues.foldl (fun s k => s.claimCue k fnOutput) s
          let t := (t.grantAlways 0x09 wings).grantAlways 0x0B dirs
          let t := ((t.activate x).streamEnds stOk).owedFault
          let t := t.pacingSync.corrSync.showNext.refillAhead 2
          s.cfgFinish = if t.refilled 2 then ({ t with cfg := { t.cfg with endCmd := none } }).complete id stOk 0 []
            else t.wr Reg.CFG.STAT.STREAM 5)))

/-- Tier 1.  CFG_WING starts a job for a wing of a loaded context, which takes 2 BU and the rise in demand it brings.  When its
container has arrived, a trailer that fails ends the job with AUTH_FAIL, one for another device ends it as not selected, one without
the wing's plane or with settle counts that do not hold with BAD_PARAM; else its frames are stored and the job is verified, to take
effect at a step boundary. -/
def Obligations.PartialReconfiguration : Prop :=
  (∀ (s : State) (dt : Nat) (h : CmdHdr) (ws : List Word), s.accepts dt h (decide (ws.length = 4)) false false = true →
    let v := (s.elapse dt).begun 0x0904 h ws
    let wing := fieldOf (ws.getD 0 0) 2 0 * 64 + fieldOf (ws.getD 0 0) 13 8
    let ctx := fieldOf (ws.getD 0 0) 17 16
    let psp := fieldOf (ws.getD 3 0) 19 0
    let rise := v.jobRise wing ctx (fieldOf (ws.getD 2 0) 31 0)
    onlyBits ws 0 [(2, 0), (13, 8), (17, 16), (24, 24)] = true → onlyBits ws 2 [(31, 0)] = true →
    onlyBits ws 3 [(19, 0)] = true → (psp = 0 ∨ v.jobPspBad psp = false) →
    (flagOf (ws.getD 0 0) 24 = true → (ws.getD 1 0).toNat % 8 = 0) → s.rdb Reg.CFG.STAT.ACTIVE = true →
    (v.plane ctx = 2 ∨ v.plane ctx = 3) → v.wingBad wing = false → (v.wing ctx wing).isSome = true →
    v.streamOpen = false → s.cfg.jobs.length < 8 → (∀ j ∈ s.cfg.jobs, ¬ (j.wing = wing ∧ j.ctx = ctx)) →
    2 + rise ≤ v.freeBu →
    ∃ j, Machine.exec (.cfgWing dt h ws) s = .next (s.afterCmd dt 0x0904 h ws fun c u =>
        let u := u.grantAlways 0x0E (2 + rise)
        ({ u with cfg := { u.cfg with
            jobs := u.cfg.jobs ++ [j]
            nextJob := if s.cfg.nextJob = 65535 then 1 else s.cfg.nextJob + 1 } }).answer c stOk s.cfg.nextJob []) ∧
      j.id = s.cfg.nextJob ∧ j.wing = wing ∧ j.ctx = ctx ∧ j.act = fieldOf (ws.getD 2 0) 31 0 ∧ j.psp = psp ∧ j.bu = rise ∧ j.isolated = false ∧
      j.verified = false ∧ j.slot < 8 ∧ ∀ k ∈ s.cfg.jobs, k.slot ≠ j.slot) ∧
  (∀ (s : State) (dt job : Nat) (j : Job), s.inReset = false → s.cfg.jobs.find? (fun j => j.id = job) = some j →
    j.stream.whole = true → j.stream.failed = none → j.verified = false →
    (s.trailerOk j.stream = false →
      Machine.exec (.cfgWingVerified dt job) s = .next (s.after dt fun u => u.jobEnds j stAuth 14 false)) ∧
    (s.trailerOk j.stream = true → j.stream.selected = false →
      Machine.exec (.cfgWingVerified dt job) s = .next (s.after dt fun u => u.jobEnds j stOk 0 true)) ∧
    (s.trailerOk j.stream = true → j.stream.selected = true →
      ((j.stream.covering 1 j.ctx j.wing).isNone = true ∨ (j.stream.covering 2 j.ctx j.wing).isNone = true) →
      Machine.exec (.cfgWingVerified dt job) s = .next (s.after dt fun u => u.jobEnds j stBadParam 15 false)) ∧
    (s.trailerOk j.stream = true → j.stream.selected = true → (j.stream.covering 1 j.ctx j.wing).isSome = true →
      (j.stream.covering 2 j.ctx j.wing).isSome = true → j.stream.settleOk j.ctx = false →
      Machine.exec (.cfgWingVerified dt job) s = .next (s.after dt fun u => u.jobEnds j stBadParam 6 false)) ∧
    (s.trailerOk j.stream = true → j.stream.selected = true → (j.stream.covering 1 j.ctx j.wing).isSome = true →
      (j.stream.covering 2 j.ctx j.wing).isSome = true → j.stream.settleOk j.ctx = true →
      Machine.exec (.cfgWingVerified dt job) s = .next (s.after dt fun u =>
        let u := u.storeFrames (j.stream.frames j.ctx)
        ({ u with cfg := { u.cfg with jobs := u.cfg.jobs.map fun (k : Job) =>
          if k.slot = j.slot then { k with verified := true } else k } }).jobNow)))

/-- Tier 1.  CTX_STAGE starts the staging of a context that is neither in use nor staging, with 6 BU; it ends as failed, as a
container for another device that leaves the context as it was, or as verified, and the context is then STAGED. -/
def Obligations.ContextStaging : Prop :=
  (∀ (s : State) (dt : Nat) (h : CmdHdr) (ws : List Word), s.accepts dt h (decide (ws.length = 3)) false false = true →
    let v := (s.elapse dt).begun 0x0201 h ws
    let ctx := fieldOf (ws.getD 0 0) 1 0
    onlyBits ws 0 [(1, 0), (8, 8)] = true → onlyBits ws 2 [(39, 0)] = true → 64 ≤ (ws.getD 2 0).toNat →
    (flagOf (ws.getD 0 0) 8 = true → (ws.getD 1 0).toNat % 8 = 0) → v.tripped = false → v.plane ctx ≠ 3 →
    v.plane ctx ≠ 1 → s.cfg.staging = none → v.streamOpen = false → 6 ≤ v.freeBu →
    ∃ t st, Machine.exec (.ctxStage dt h ws) s = .next t ∧ t.cfg = { s.cfg with staging := some st } ∧ st.ctx = ctx ∧
      st.length = (ws.getD 2 0).toNat ∧ st.gddr = flagOf (ws.getD 0 0) 8 ∧ st.prev = s.plane ctx ∧ st.status = none ∧
      st.stream.bytes = [] ∧ st.stream.descAddr = (ws.getD 1 0).toNat ∧ t.plane ctx = 1 ∧ t.rd Reg.CTX.STAGE.CTX = ctx ∧
      t.rd Reg.CTX.STAGE.BUSY = 1 ∧ t.rd Reg.CTX.STAGE.DONEKIB = 0 ∧ t.holds 0x0D = s.holds 0x0D + 6 ∧
      t.fab = s.fab ∧ t.out = s.out ∧ ∃ c ∈ t.hif.running, c.id = st.cmd ∧ c.payload = ws) ∧
  (∀ (s : State) (dt : Nat) (st : Staging), s.inReset = false → s.cfg.staging = some st →
    (∀ status, st.status = some status →
      Machine.exec (.ctxStageComplete dt) s = .next (s.after dt fun u => u.stageFails st status)) ∧
    (∀ reason index, st.status = none → st.stream.failed = some (reason, index) →
      Machine.exec (.ctxStageComplete dt) s = .next (s.after dt fun u => u.stageFails st (reasonStatus reason))) ∧
    (st.status = none → st.stream.failed = none → st.stream.whole = true →
      (∀ status, s.stageStatus st = some status →
        Machine.exec (.ctxStageComplete dt) s = .next (s.after dt fun u => u.stageFails st status)) ∧
      (s.stageStatus st = none → st.stream.selected = true →
        Machine.exec (.ctxStageComplete dt) s = .next (s.after dt fun u => u.stageDone st)) ∧
      (s.stageStatus st = none → st.stream.selected = false →
        Machine.exec (.ctxStageComplete dt) s = .next (s.after dt fun u =>
          ((u.wr (planeStateF st.ctx) st.prev).wrb (planeFreshF st.ctx) st.prevFresh).stageEnds st stOk (2 ^ 24)))))

/-- Tier 1.  CTX_MODE and CTX_SELECT, where nothing refuses them, ask for the BU of the new set of contexts together: in mode SOLO the
context named, in QUADRILLE contexts 0 to Q - 1, in ROTATION those of the slots.  With the BU the set's wings are powered and its fresh
contexts are refilled and switched in, one after another as each refill acknowledges; without them the command replies
REFUSED_BUDGET. -/
def Obligations.ContextsComeIntoUse : Prop :=
  (∀ (s : State) (dt : Nat) (h : CmdHdr) (ws : List Word),
    (let v := (s.elapse dt).begun 0x0202 h ws
     let mode := fieldOf (ws.getD 0 0) 1 0
     let sel := fieldOf (ws.getD 0 0) 5 4
     let q := fieldOf (ws.getD 0 0) 10 8
     let len := fieldOf (ws.getD 0 0) 20 16
     let slots := fieldOf (ws.getD 1 0) 31 0
     let cs := newSet mode sel q len slots
     s.accepts dt h (decide (ws.length = 2)) false false = true →
      onlyBits ws 0 [(1, 0), (5, 4), (10, 8), (20, 16)] = true → onlyBits ws 1 [(31, 0)] = true → mode ≠ 3 →
      (mode = 1 → 2 ≤ q ∧ q ≤ 4 ∧ foldOk s.cfg.ctxs q = true) → (mode = 2 → 1 ≤ len ∧ len ≤ 16) →
      (mode ≠ 0 → ∀ d ∈ cs, (v.ctx d).ownsSlice = false) → (∀ r ∈ v.setRefusals false mode cs, r.1 = false) →
      (∀ t, v.askSet mode cs = some t → Machine.exec (.ctxMode dt h ws) s = .next (s.afterCmd dt 0x0202 h ws fun c u =>
        ((u.askSet mode cs).getD u).beginSet (u.setOp c.id mode sel q len slots))) ∧
      (v.askSet mode cs = none → Machine.exec (.ctxMode dt h ws) s = .next (s.afterCmd dt 0x0202 h ws fun c u =>
        u.answer c stBudget 0 []))) ∧
    (let v := (s.elapse dt).begun 0x0203 h ws
     let sel := fieldOf (ws.getD 0 0) 1 0
     s.accepts dt h (decide (ws.length = 1)) false false = true → onlyBits ws 0 [(1, 0)] = true → v.ctxMode = 0 →
      (∀ r ∈ v.setRefusals false 0 [sel], r.1 = false) →
      (∀ t, v.askSet 0 [sel] = some t → Machine.exec (.ctxSelect dt h ws) s = .next (s.afterCmd dt 0x0203 h ws fun c u =>
        ((u.askSet 0 [sel]).getD u).beginSet (u.setOp c.id 0 sel 0 0 0))) ∧
      (v.askSet 0 [sel] = none → Machine.exec (.ctxSelect dt h ws) s = .next (s.afterCmd dt 0x0203 h ws fun c u =>
        u.answer c stBudget 0 [])))) ∧
  (∀ sel q len slots, newSet 0 sel q len slots = [sel] ∧ newSet 1 sel q len slots = List.range q ∧
    ∀ c, c ∈ newSet 2 sel q len slots ↔ ∃ i < len, c = slots / 4 ^ i % 4) ∧
  (∀ (s : State) (cmd mode sel q len slots : Nat),
    let o := s.setOp cmd mode sel q len slots
    o.cmd = cmd ∧ o.ctxs = newSet mode sel q len slots ∧ o.wings = s.wingsOff o.ctxs ∧
      (∀ d, d ∈ o.fresh ↔ d ∈ o.ctxs ∧ s.rdb (planeFreshF d) = true) ∧
      ∀ c sw rest, o.todo = (c, sw) :: rest →
        let t := { s with step := { s.step with op := some o }, fab := { s.fab with powered := s.fab.powered ++ o.wings } }
        s.beginSet o = State.opNext (o.todo.length + 1) (t.startRefills c 2)) ∧
  (∀ (s : State) (o : CtxOp) (c : Nat) (sw : Bool) (n : Nat), s.step.op = some o → s.refilled 2 = true →
    let shown := fun (rest : List (Nat × Bool)) =>
      let t := if sw = true then s.doSwitch c else s
      { t with step := { t.step with op := some { o with todo := rest } } }
    (o.todo = [(c, sw)] → State.opNext (n + 1) s = (shown []).opDone { o with todo := [] }) ∧
    (∀ d sw' rest, o.todo = (c, sw) :: (d, sw') :: rest →
      State.opNext (n + 1) s = State.opNext n ((shown ((d, sw') :: rest)).startRefills d 2)))

/-- Tier 1.  OWNER_LOCK adds an entry with its policy and key hash to the lock ledger, OWNER_UNLOCK, signed with that key, one that
ends it; the ledger holds 16 entries and nothing removes one. -/
def Obligations.OwnerLockAndUnlock : Prop :=
  ∀ (s : State) (dt : Nat) (h : CmdHdr) (ws : List Word), s.loading = false → s.cfg.lock.length < 16 →
    (s.accepts dt h (decide (ws.length = 7)) false false = true → s.locked = false → onlyBits ws 0 [(3, 0)] = true →
      ∃ t, Machine.exec (.ownerLock dt h ws) s = .next t ∧
        t.cfg = { s.cfg with lock := s.cfg.lock ++ [{ locked := true, policy := fieldOf (ws.getD 0 0) 7 0, keyHash := ws.drop 1 }] } ∧
        t.locked = true ∧ t.fab = s.fab ∧ t.step = s.step ∧ t.ledger = s.ledger ∧
        ∀ a, a < 0x10000 ∨ 0x20000 ≤ a → t.stored a = s.stored a) ∧
    (s.accepts dt h (decide (ws.length = 24)) false false = true → s.locked = true →
      (s.lockEntry.any fun e => e.keyHash == digestWords (Config.sha384 (wordBytes (ws.take 12)))) = true →
      Config.ecdsaVerify (wordBytes (ws.take 12)) (Config.sha384 ([0x43, 0x46, 0x55, 0x4C] ++ leBytes 8 Config.serial.toNat ++
        leBytes 4 s.cfg.lock.length)) (wordBytes (ws.drop 12)) = true →
      ∃ t, Machine.exec (.ownerUnlock dt h ws) s = .next t ∧
        t.cfg = { s.cfg with lock := s.cfg.lock ++ [{ locked := false, policy := 0, keyHash := [] }] } ∧
        t.locked = false ∧ t.fab = s.fab ∧ t.step = s.step ∧ t.ledger = s.ledger ∧
        ∀ a, a < 0x10000 ∨ 0x20000 ≤ a → t.stored a = s.stored a)

/-- Tier 1.  Each read of a container goes to its consumer: the full stream, the staging, or the job of its slot. -/
def Obligations.ContainerReadsGoToTheirConsumer : Prop :=
  ∀ (s : State) (dt : Nat) (data : HostRead), s.inReset = false →
    (∀ x, s.cfg.stream = some x → s.rdb Reg.CFG.STAT.SRC = false → s.nextRead x false data = true →
      Machine.exec (.streamDataFetch dt 0 data) s = .next (s.after dt fun u => u.fullFetch data)) ∧
    (∀ st, s.cfg.staging = some st → st.status = none → s.nextRead st.stream st.gddr data = true →
      Machine.exec (.streamDataFetch dt 1 data) s = .next (s.after dt fun u => u.stageFetch st data)) ∧
    ∀ slot j, s.cfg.jobs.find? (fun j => j.slot = slot) = some j → s.nextRead j.stream j.gddr data = true →
      Machine.exec (.streamDataFetch dt (slot + 2) data) s = .next (s.after dt fun u => u.jobFetch j data)

/-- Tier 1.  The scanner reads one stored frame after another and reports one that fails its signature; the last of a pass counts
it, and with nothing to read a pass begins anew.  The mirror is a region of GDDR6: MIRROR_ON takes it and begins the copy, whose end
writes every sound frame of the loaded contexts there and turns the mirror on, MIRROR_OFF repairs what waits and releases it.  A frame
in error is repaired from its copy, where the read succeeds and the copy is sound, and is else reported unrepaired.  SCAN starts the
scanner with 4 BU or stops it. -/
def Obligations.ScannerAndMirror : Prop :=
  (∀ (s : State) (dt : Nat), s.inReset = false → s.rdb Reg.CFG.SCAN.ENABLED = true →
    let left := s.cfg.planes.filter fun kv => decide (s.cfg.scanAt ≤ kv.1) && s.scanned kv.1
    (left = [] → Machine.exec (.scanFrame dt) s = .next (s.after dt fun u =>
      { u with cfg := { u.cfg with scanAt := 0, scanBegan := u.now } })) ∧
    (∀ key f rest, left = (key, f) :: rest → s.power = 0 → s.fab.refills = [] →
      let seen := fun (u : State) =>
        if f.bad = true then u.sigMismatch (key / 1024 % 512) (key % 1024) (key / 1024 / 512) true else u
      (rest ≠ [] → Machine.exec (.scanFrame dt) s = .next (s.after dt fun u =>
        let v := seen u
        { v with cfg := { v.cfg with scanAt := key + 1 } })) ∧
      (rest = [] → Machine.exec (.scanFrame dt) s = .next (s.after dt fun u =>
        let v := seen u
        let v := (v.count Reg.CFG.SCAN.PASSES 1).wr Reg.CFG.SCAN.LASTPASS
          (min ((v.now - v.cfg.scanBegan) / fsUs) (2 ^ 24 - 1))
        { v with cfg := { v.cfg with scanAt := 0, scanBegan := v.now } })))) ∧
  (∀ (s : State) (dt wing room ctx : Nat) (ok : Bool) (r : Nat × Bool), s.inReset = false →
    s.cfg.toRepair.find? (fun r => r.1 = frameKey ctx wing room) = some r →
    Machine.exec (.mirrorRepair dt wing room ctx ok) s = .next (s.after dt fun u =>
      let got := ({ u with cfg := { u.cfg with toRepair := u.cfg.toRepair.erase r } }).mirrorGet r.1
        (if ok then .clean 0 else .linkError true)
      let v := got.1
      match got.2 with
      | some f =>
        if f.bad = true then v.sigOutcome r.1 r.2 2
        else ({ v with cfg := { v.cfg with
          planes := v.cfg.planes.upd Frame.none r.1 f, repairs := v.cfg.repairs ++ [(r.1, v.now)] } }).sigOutcome r.1 r.2 1
      | none => v.sigOutcome r.1 r.2 2)) ∧
  (∀ (s : State) (dt id : Nat), s.inReset = false → s.cfg.mirrorCmd = some id →
    Machine.exec (.mirrorCopyComplete dt) s = .next (s.after dt fun u =>
      let v := { u with cfg := { u.cfg with mirrorCmd := none } }
      let v := (u.cfg.planes.filter fun kv => u.loadedCtx (kv.1 / 1024 / 512) && !kv.2.bad).foldl
        (fun (w : State) (kv : Nat × Frame) => w.mirrorPut kv.1 kv.2) v
      ((v.wr Reg.CFG.MIRROR.COPYING 0).wr Reg.CFG.MIRROR.ENABLED 1).complete id stOk 0 [])) ∧
  (∀ (s : State) (dt : Nat) (h : CmdHdr) (ws : List Word),
    let v := (s.elapse dt).begun 0x0905 h ws
    let op := fieldOf (ws.getD 0 0) 1 0
    let base := (ws.getD 1 0).toNat
    let on := flagOf (ws.getD 0 0) 8
    s.accepts dt h (sigStatusLen ws) false false = true → onlyBits ws 0 [(1, 0), (8, 8)] = true →
    (op = 1 → base % 4096 = 0 → mirrorSize ≤ v.g6Cap → v.rdb Reg.CFG.MIRROR.ENABLED = false →
      v.rdb Reg.CFG.MIRROR.COPYING = false → v.allocRefusal base mirrorSize = none →
      Machine.exec (.sigStatus dt h ws) s = .next (s.afterCmd dt 0x0905 h ws fun c u =>
        let t := (u.allocRegion base mirrorSize .mirror).wr Reg.CFG.MIRROR.BASE (base / 4096)
        ({ t with cfg := { t.cfg with mirrorCmd := some c.id } }).wr Reg.CFG.MIRROR.COPYING 1)) ∧
    (op = 2 → base = 0 → Machine.exec (.sigStatus dt h ws) s = .next (s.afterCmd dt 0x0905 h ws fun c u =>
      let t := u.cfg.toRepair.foldl (fun (w : State) (r : Nat × Bool) => w.repairFrame r.1 r.2 true) u
      let cmd := t.cfg.mirrorCmd
      let t := ({ t with cfg := { t.cfg with mirrorCmd := none } }).releaseRegions .mirror
      let t := t.store Reg.CFG.MIRROR.ENABLED.addr 0
      (match cmd with
        | some id => t.complete id stAborted 0 []
        | none => t).ok c [])) ∧
    (op = 3 → base = 0 → (on = true → v.rdb Reg.CFG.SCAN.ENABLED = false → 4 ≤ v.freeBu) →
      Machine.exec (.sigStatus dt h ws) s = .next (s.afterCmd dt 0x0905 h ws fun c u =>
        let t := if on = true ∧ u.rdb Reg.CFG.SCAN.ENABLED = false then u.grantAlways 0x06 4
          else if on = false ∧ u.rdb Reg.CFG.SCAN.ENABLED = true then u.ungrant 0x06 4 else u
        (({ t with cfg := { t.cfg with scanAt := 0, scanBegan := t.now } }).wrb Reg.CFG.SCAN.ENABLED on).ok c [])))
/-! ### Time, cues and multi-device steps -/

/-- Tier 1.  TIME_DOMAIN_SETUP from no source (0), the host (1), PTP (2) or a lane group (3) gives the domain its source, path, lane
and asymmetry; it is then OFF, LOCKED at the host's time, or ACQUIRING.  The other domain, the value of the output time, the step
engine, the fabric and the clocks stay. -/
def Obligations.TimeDomainSetupSetsADomain : Prop :=
  ∀ (s : State) (dt : Nat) (h : CmdHdr) (ws : List Word),
    let d := fieldOf (ws.getD 0 0) 0 0
    let src := fieldOf (ws.getD 0 0) 3 2
    let path := fieldOf (ws.getD 0 0) 4 4
    let lane := fieldOf (ws.getD 0 0) 22 16
    let serve := fieldOf (ws.getD 0 0) 35 32
    s.accepts dt h (decide (ws.length = if src = 1 then 4 else 2)) false false = true →
    onlyBits ws 0 [(0, 0), (3, 2), (4, 4), (15, 8), (22, 16), (24, 24), (26, 25), (31, 28), (35, 32), (36, 36)] = true →
    onlyBits ws 1 [(31, 0)] = true → fieldOf (ws.getD 0 0) 26 25 ≠ 3 →
    fieldOf (ws.getD 0 0) 31 28 ≤ 8 → (∀ t < 4, bit serve t = true → s.rd (Reg.ETH.CFG.MODE t) ≠ 0) →
    (s.domSource (1 - d) = 2 → bit serve ((s.dom (1 - d)).lane - 64) = false) → (path = 1 → s.time.ml1 = true) →
    (src = 1 → onlyBits ws 2 [(47, 0)] = true ∧ onlyBits ws 3 [(47, 0)] = true ∧
      fieldOf (ws.getD 2 0) 47 16 ≤ 999999999) →
    (src = 2 → 64 ≤ lane ∧ lane ≤ 67 ∧ bit serve (lane - 64) = false ∧ s.rd (Reg.ETH.CFG.MODE (lane - 64)) ≠ 0) →
    (src = 3 → path = 0 ∧ lane ≤ 63 ∧ (s.group lane).isSome = true ∧ s.rdb (Reg.LANE.CFG.SYNCEN lane) = true) →
    (flagOf (ws.getD 0 0) 36 = true → (serveLanes serve).length ≤
      ((List.range 16).filter fun k => s.cueFunc k = 0).length + (s.dom d).frameCues.length) →
    ¬ (src = 0 ∧ s.selected = d ∧ s.rd Reg.STEP.CTRL.MODE = 3) →
    ∃ t, Machine.exec (.timeDomainSetup dt h ws) s = .next t ∧
      t.domSource d = src ∧ t.domPath d = path ∧ (t.dom d).lane = lane ∧ (t.dom d).serve = serve ∧
      (t.dom d).asym = signed 32 (fieldOf (ws.getD 1 0) 31 0) ∧
      t.domState d = (if src = 0 then dsOff else if src = 1 then dsLocked else dsAcquiring) ∧
      (src = 1 → (t.dom d).time = (fieldOf (ws.getD 3 0) 47 0 * (1000000000 * 65536) + fieldOf (ws.getD 2 0) 47 16 * 65536 +
          fieldOf (ws.getD 2 0) 15 0) * 65536 ∧ (t.dom d).rate = hostRate (s.rd Reg.CLK.SYSSPREAD.DEPTH)) ∧
      t.dom (1 - d) = (s.elapse dt).dom (1 - d) ∧ t.time.out = (s.elapse dt).time.out ∧ t.step = s.step ∧ t.fab = s.fab ∧
      t.clk = s.clk

/-- Tier 1.  TIME_SELECT selects a domain that is not OFF; CUE_SET arms a cue at a match time for an owner that may have it,
releases one, or sets the edges of a capture input and empties its FIFO. -/
def Obligations.TimeSelectAndCueSet : Prop :=
  ∀ (s : State) (dt : Nat) (h : CmdHdr) (ws : List Word),
    (let d := fieldOf (ws.getD 0 0) 0 0
     let jump := flagOf (ws.getD 0 0) 2
     s.accepts dt h (decide (ws.length = 1)) false false = true → onlyBits ws 0 [(0, 0), (1, 1), (2, 2)] = true →
      s.domState d ≠ dsOff → (jump = true → s.anyArmed = false ∧ s.rd Reg.STEP.CTRL.MODE ≠ 3) →
      Machine.exec (.timeSelect dt h ws) s = .next (s.afterCmd dt 0x0802 h ws fun c u =>
        ((u.wrb Reg.TIME.STAT.AUTO (flagOf (ws.getD 0 0) 1)).selectDomain d false jump).ok c [])) ∧
    (let op := fieldOf (ws.getD 0 0) 1 0
     let k := fieldOf (ws.getD 0 0) 7 4
     let fn := fieldOf (ws.getD 0 0) 11 8
     let periodic := flagOf (ws.getD 0 0) 12
     let match_ := fieldOf (ws.getD 2 0) 47 0 * (1000000000 * 65536) + fieldOf (ws.getD 1 0) 47 16 * 65536 +
       fieldOf (ws.getD 1 0) 15 0
     s.accepts dt h (decide (ws.length = 4)) false false = true →
      onlyBits ws 0 [(1, 0), (7, 4), (11, 8), (12, 12), (17, 16)] = true → onlyBits ws 1 [(47, 0)] = true →
      onlyBits ws 2 [(47, 0)] = true → onlyBits ws 3 [(39, 0)] = true →
      (op = 0 → (periodic = true → fieldOf (ws.getD 3 0) 39 0 ≠ 0) → fieldOf (ws.getD 1 0) 47 16 ≤ 999999999 →
        ((fn = fnTrace ∨ fn = fnNotify) → s.cueFree k fn = true →
          Machine.exec (.cueSet dt h ws) s = .next (s.afterCmd dt 0x0803 h ws fun c u =>
            ((u.claimCue k fn).armCue k match_ (if periodic then fieldOf (ws.getD 3 0) 39 0 else 0)).ok c [])) ∧
        ((fn = fnStep ∨ fn = fnOutput) → s.cueFunc k = fn →
          (fn = fnOutput ∨ ¬ (s.rdb Reg.TIME.REEL.JOINED = true ∧ s.rd Reg.TIME.REEL.CUE = k)) →
          Machine.exec (.cueSet dt h ws) s = .next (s.afterCmd dt 0x0803 h ws fun c u =>
            (u.armCue k match_ (if periodic then fieldOf (ws.getD 3 0) 39 0 else 0)).ok c []))) ∧
      (op = 1 → (s.cueFunc k = 0 ∨ 4 < s.cueFunc k) →
        Machine.exec (.cueSet dt h ws) s = .next (s.afterCmd dt 0x0803 h ws fun c u => (u.releaseCue k).ok c [])) ∧
      (op = 2 → k < 8 →
        Machine.exec (.cueSet dt h ws) s = .next (s.afterCmd dt 0x0803 h ws fun c u =>
          let v := u.wr (Reg.TIME.CAP.HI.EDGESEL k) (fieldOf (ws.getD 0 0) 17 16)
          ({ v with time := { v.time with
            caps := v.time.caps.set k [], capLast := v.time.capLast.set k none } }).ok c [])))

/-- Tier 1.  A domain is measured against its source with its asymmetry: PTP by the offset of its exchange, REEL by that of its SYNC
exchange, which also gives the path delay.  A source that is silent for three of its intervals leaves the domain FREE.  Where a slew
runs the output's rate is set again by R425: within 2^-16 ns of the selected domain the slew ends and TIME_SLEW_DONE is posted.  An armed
cue whose time has come counts a match, takes its next time or is disarmed, and its owner acts.  A selected edge of a capture input
that is not nearer than 4 ns to the one before it is stamped; with four stamps waiting it sets OVF and CAPTURE_OVF instead; any other edge
only shows at the pin.  HOLDUP_N shows in CTLPINS and FWU.STAT.  A bank whose VCCIO, measured 100 us after the time before, lies more than
10% below its code while the bank is active floats its outputs and sets VLOW. -/
def Obligations.TimeEventsAndPins : Prop :=
  (∀ (s : State) (dt domain : Nat) (off : Int), s.inReset = false → domain < 2 →
    (s.domSource domain = 2 →
      Machine.exec (.domainOffsetMeasurement dt domain off) s = .next (s.after dt fun u =>
        u.measure domain (off * 2 ^ 32 / 1000 + (s.dom domain).asym * 2 ^ 32 / 1000 / 2))) ∧
    (∀ g m, s.domSource domain = 3 → s.domGroup domain = some g → g.meas = some m →
      Machine.exec (.domainOffsetMeasurement dt domain off) s = .next (s.after dt fun u =>
        let v := u.setGroup { g with meas := none }
        (v.setDom domain { v.dom domain with pathDelay := m.2 * 65536 }).measure domain
          (m.1 * 65536 + (s.dom domain).asym * 2 ^ 32 / 1000 / 2)))) ∧
  (∀ (s : State) (dt domain : Nat), s.inReset = false → domain < 2 → 2 ≤ s.domSource domain →
    (s.domState domain = dsLocked ∨ s.domState domain = dsAcquiring) →
    (s.dom domain).heardAt + 3 * s.domInterval domain ≤ s.now + dt →
    Machine.exec (.sourceSilenceTimeout dt domain) s = .next (s.after dt fun u => u.domLeaves domain dsFree 2)) ∧
  (∀ (s : State) (dt : Nat), s.inReset = false → s.rdb Reg.TIME.STAT.SLEW = true →
    let u := s.elapse dt
    let near := (u.dom u.selected).time ≤ u.time.out + 2 ^ 16 ∧ u.time.out ≤ (u.dom u.selected).time + 2 ^ 16
    (u.domState u.selected ≠ dsOff → near →
      Machine.exec (.slewComplete dt) s = .next (s.after dt fun u =>
        ((u.wr Reg.TIME.STAT.SLEW 0).wr Reg.TIME.RATE.RATE (u.dom u.selected).rate).post 0x0804 sevInfo srcDevice u.selected)) ∧
    (u.domState u.selected ≠ dsOff → ¬ near →
      Machine.exec (.slewComplete dt) s = .next (s.after dt fun u =>
        (u.wr Reg.TIME.STAT.SLEW 1).wr Reg.TIME.RATE.RATE (if u.time.out < (u.dom u.selected).time then
          (u.dom u.selected).rate + slewRate else (u.dom u.selected).rate - slewRate))) ∧
    (u.domState u.selected = dsOff →
      Machine.exec (.slewComplete dt) s = .next (s.after dt fun u => u.wr Reg.TIME.STAT.SLEW 0))) ∧
  (∀ (s : State) (dt cue : Nat), s.inReset = false → cue < 16 → (s.elapse dt).cueDue cue = true →
    Machine.exec (.cueMatch dt cue) s = .next (s.after dt fun u => (u.cueNext cue).cueActs cue)) ∧
  (∀ (s : State) (dt input : Nat) (rising : Bool), s.inReset = false → input < 8 →
    let selected := bit (s.rd (Reg.TIME.CAP.HI.EDGESEL input)) (if rising then 0 else 1) = true ∧
      ∀ t, s.time.capLast.getD input none = some t → t + 4 * fsNs ≤ s.now + dt
    let q := s.time.caps.getD input []
    (¬ selected → Machine.exec (.captureEdge dt input rising) s = .next (s.after dt fun u =>
      u.wrBit Reg.IOB.CTLPINS.TS_IN input rising)) ∧
    (selected → q.length < 4 → Machine.exec (.captureEdge dt input rising) s = .next (s.after dt fun u =>
      let v := u.wrBit Reg.IOB.CTLPINS.TS_IN input rising
      { v with time := { v.time with
        capLast := v.time.capLast.set input (some u.now)
        caps := v.time.caps.set input (q ++ [u.time.stamp rising]) } })) ∧
    (selected → 4 ≤ q.length → Machine.exec (.captureEdge dt input rising) s = .next (s.after dt fun u =>
      let v := u.wrBit Reg.IOB.CTLPINS.TS_IN input rising
      (({ v with time := { v.time with capLast := v.time.capLast.set input (some u.now) } }).wr (Reg.TIME.CAP.HI.OVF input)
        1).postLimited 0x0807 input sevWarn srcDevice input))) ∧
  (∀ (s : State) (dt : Nat) (low : Bool), s.inReset = false →
    Machine.exec (.holdupNAssert dt low) s = .next (s.after dt fun u =>
      (u.wr Reg.IOB.CTLPINS.HOLDUP_N (if low then 0 else 1)).wr Reg.FWU.STAT.HOLDUP (if low then 1 else 0))) ∧
  (∀ (s : State) (dt bank mv : Nat), s.inReset = false → bank < 16 → s.clk.sampledAt.at 0 (16 + bank) + 100 * fsUs ≤ s.now + dt →
    let low := s.rdb (Reg.IOB.CFG.ACTIVE bank) = true ∧ mv * 100 < vccioMv (s.rd (Reg.IOB.CFG.VCCIO bank)) * 90
    (low → ∃ t, Machine.exec (.vccioMeasure dt bank mv) s = .next t ∧ t.rd (Reg.IOB.VMEAS.MV bank) = min mv 4095 ∧
      t.rd (Reg.IOB.CFG.VLOW bank) = 1 ∧ t.rd (Reg.IOB.CFG.VLOWSEEN bank) = 1 ∧
      t.pins = { s.pins with output := s.pins.output.filter fun o => o.1 / 48 ≠ bank } ∧ t.out = s.out ∧ t.fab = s.fab) ∧
    (¬ low → ∃ t, Machine.exec (.vccioMeasure dt bank mv) s = .next t ∧ t.rd (Reg.IOB.VMEAS.MV bank) = min mv 4095 ∧
      t.rd (Reg.IOB.CFG.VLOW bank) = 0 ∧ t.rd (Reg.IOB.CFG.VLOWSEEN bank) = s.rd (Reg.IOB.CFG.VLOWSEEN bank) ∧
      t.pins = s.pins ∧ t.out = s.out ∧ t.fab = s.fab))

/-- Tier 1.  REEL_JOIN, where nothing refuses it, starts a multi-device run: the step engine's grant, mode REEL, the schedule's record,
the STEP cue armed at T0 every period.  The promise window of the next step closes at its launch time: values that have not arrived
are late, each counts in LATE and posts 0x0808, and outside the shadow of the last hold a hold follows.  A late value still missing
at the guard's end stops the seat with cause 7, posts LATE_VALUE and sends a STOP. -/
def Obligations.ReelsJoinAndWait : Prop :=
  (∀ (s : State) (dt : Nat) (h : CmdHdr) (ws : List Word), s.accepts dt h (decide (ws.length = 6)) false false = true →
    let v := (s.elapse dt).begun 0x0804 h ws
    let cue := fieldOf (ws.getD 0 0) 15 12
    let diam := fieldOf (ws.getD 0 0) 25 16
    let period := fieldOf (ws.getD 1 0) 19 0
    let guard := fieldOf (ws.getD 2 0) 23 0
    let t0 := fieldOf (ws.getD 4 0) 47 0 * (1000000000 * 65536) + fieldOf (ws.getD 3 0) 47 16 * 65536 +
      fieldOf (ws.getD 3 0) 15 0
    let groups := (List.range 64).filter fun n => flagOf (ws.getD 5 0) n
    let hop := v.reelHop groups
    let demand := v.demandOf 3 v.ctxMode period v.ctxsInUse
    onlyBits ws 0 [(11, 0), (15, 12), (25, 16)] = true → onlyBits ws 1 [(19, 0)] = true → onlyBits ws 2 [(23, 0)] = true →
    onlyBits ws 3 [(47, 0)] = true → onlyBits ws 4 [(47, 0)] = true → diam ≠ 0 → 100 ≤ guard → guard ≤ 10000000 →
    fieldOf (ws.getD 3 0) 47 16 ≤ 999999999 → v.outUnits + 1000000 * 65536 ≤ t0 →
    t0 ≤ v.outUnits + 1000000 * (1000000 * 65536) → maxList (v.promises v.ctxMode v.ctxsInUse) + hop ≤ period →
    diam * (hop + 192) ≤ 8 * guard → s.engine = seHalted →
    (∀ g ∈ groups, (v.group g).isSome = true ∧ v.laneUp g = true) → v.domState v.selected = dsLocked →
    (∀ d ∈ v.runSegments, v.rd (Reg.STEP.CARDSEG.LEN d) ≠ 0) → v.power < 2 → v.pwr.target = none → v.engineBusy = false →
    v.cueFree cue fnStep = true → demand ≤ v.holds 0x0A + v.freeBu → v.badParts = false →
    Machine.exec (.reelJoin dt h ws) s = .next (s.afterCmd dt 0x0804 h ws fun c u =>
      let old := u.rd Reg.TIME.REEL.CUE
      let u := ((u.setHeld 0x0A demand).wr Reg.STEP.BUDGET.DEMAND (min demand 2047)).wr Reg.STEP.BUDGET.GRANT (min demand 2047)
      let u := if u.rdb Reg.TIME.REEL.JOINED && old != cue then u.releaseCue old else u
      let start := u.rd Reg.STEP.PACE.CUE
      let u := if u.rdb Reg.STEP.PACE.CUESTART && start != cue && u.cueFunc start == fnStep then u.releaseCue start else u
      let m0 := u.rd Reg.STEP.COUNT.COUNT
      let r := Reel.mk t0 period (8 * guard) m0 0 0 groups none none []
      let u := u.setReel { r with hold := (m0 : Int) - r.window - 1 }
      let u := u.store Reg.TIME.REEL.REELID.addr
        (toWord (fieldOf (ws.getD 0 0) 11 0 + 2 ^ 12 + cue * 2 ^ 16 + diam * 2 ^ 20 + guard * 2 ^ 32))
      let u := ((u.wr Reg.STEP.CTRL.MODE 3).wr Reg.STEP.PACE.PERIOD period).wr Reg.STEP.PACE.CUESTART 0
      (((u.claimCue cue fnStep).armCue cue t0 period).pacingSync).startRun (some c.id) none)) ∧
  (∀ (s : State) (dt : Nat) (r : Reel), s.inReset = false → s.time.reel = some r → s.rd Reg.STEP.CTRL.MODE = 3 →
    s.stepping = true →
    let m := s.rd Reg.STEP.COUNT.COUNT
    (r.closed.all fun c => c.1 != m) = true →
    (s.step.cur.isSome = true ∨ r.launchUnits m * 65536 ≤ (s.elapse dt).time.out) →
    (s.missing s.currentCtx m = [] →
      Machine.exec (.promiseWindowClose dt) s = .next (s.after dt fun u =>
        u.setReel { r with closed := some (m, r.launchUnits m), late := [] })) ∧
    (s.missing s.currentCtx m ≠ [] →
      Machine.exec (.promiseWindowClose dt) s = .next (s.after dt fun u =>
        let late := s.missing s.currentCtx m
        let ns := min ((u.time.out - r.launchUnits m * 65536) / 2 ^ 32) 65535
        let v := late.foldl (fun (w : State) (x : Nat × Nat) =>
          (w.count Reg.TIME.REELCNT.LATE 1).postLimited 0x0808 0 sevWarn srcDevice (x.1 + ns * 2 ^ 16))
          (u.setReel { r with closed := some (m, r.launchUnits m), late := late.map Prod.fst })
        if r.inShadow m then v else v.applyHold m s.dev.seat 0 none))) ∧
  (∀ (s : State) (dt chan : Nat) (rest : List Nat) (r : Reel), s.inReset = false → s.time.reel = some r →
    s.stillLate = chan :: rest → s.rd Reg.STEP.CTRL.MODE = 3 → s.stepping = true →
    ((r.closed.map Prod.snd).getD 0 + r.guard * 8192) * 65536 ≤ (s.elapse dt).time.out →
    Machine.exec (.reelGuardExpiry dt) s = .next (s.after dt fun u =>
      let m := s.rd Reg.STEP.COUNT.COUNT
      ((u.post 0x080B sevError srcDevice (chan + m % 2 ^ 48 * 2 ^ 16)).sendHold 2 m s.dev.seat true 0 none).halts true 7
        seHalted))

/-- Tier 1.  What lane frames bring, where the group hears.  A sequenced frame that passes its checks and has the expected FSEQ is
accepted, one that does not asks for a resend; the value of a VALUE frame then waits for its step, a HOLD and a STOP frame act on the
reel, and one of another reel counts in CRCERR.  A SYNC frame closes a SYNC exchange.  SYNC_INTERVAL sends a SYNC frame on the group's
stream.  Of the frames of a time lane whose link is up, the codewords of the RS-FEC are counted in mode 3; one whose FCS is bad counts
in RXFCS, a PAUSE frame in PAUSE; any other is stamped, and counts in RXOK where the filter passes it and a buffer is free, else in
RXDROP; a PTP message of a domain's source measures the domain.  PTP_SYNC_INTERVAL sends a delay request as a slave, and on each serving
lane whose link is up a Sync and its Follow_Up, or arms the lane's FRAME cue within the interval. -/
def Obligations.FramesArrive : Prop :=
  (∀ (s : State) (dt first fseq expseq ctl : Nat) (word : Word) (payload : List Word) (crc : Nat) (others : List LaneBlock),
    s.inReset = false → s.laneHears first = true →
    let frame := rxFrame fseq expseq ctl word payload crc others
    ((rxKind frame ≤ 1 ∨ 5 < rxKind frame) →
      Machine.exec (.valueFrameReceive dt first fseq expseq ctl word payload crc others) s = .next (s.after dt fun u =>
        u.receive first frame fun v =>
          let v := v.closeWindow
          let m := fieldOf frame.word 47 0
          let chan := fieldOf frame.word 63 48
          if m < v.rd Reg.STEP.COUNT.COUNT % 2 ^ 48 then (v.count Reg.TIME.REELCNT.LATE 1).freeSlotOf first 1
          else
            match v.group first with
            | none => v
            | some g =>
              let w := v.setGroup { g with landing := g.landing ++ [(m, chan, frame.payload)] }
              if m = w.rd Reg.STEP.COUNT.COUNT % 2 ^ 48 then w.valueArrives chan first else w)) ∧
    (rxKind frame = kindHold →
      Machine.exec (if fieldOf word 51 48 = 2 then .stopFrameReceive dt first fseq expseq ctl word payload ⟨crc, others⟩
        else .holdFrameReceive dt first fseq expseq ctl word payload ⟨crc, others⟩) s = .next (s.after dt fun u =>
        u.receive first frame fun v =>
          let p := frame.payload.headD 0
          if v.ownReel frame.word = false then v.count (Reg.LANE.LINK1.CRCERR first) 1
          else if fieldOf frame.word 51 48 = 1 then v.takeHold first frame.word p
          else if fieldOf frame.word 51 48 = 2 then v.takeStop first frame.word p
          else v)) ∧
    (rxKind frame = kindSync →
      Machine.exec (.syncFrameReceive dt first fseq expseq ctl word payload ⟨crc, others⟩) s = .next (s.after dt fun u =>
        let v := u.strayBlocks first frame.others
        if rxGood frame = false then v.count (Reg.LANE.LINK1.CRCERR first) 1
        else
          ((v.count (Reg.LANE.LINK0.RXFRAMES first) 1).takeStart first (rxExpseq frame) (rxCredit frame)).takeSync first
            frame.word (frame.payload.getD 0 0) (frame.payload.getD 1 0)))) ∧
  (∀ (s : State) (first : Nat) (f : LaneFrame) (effect : State → State),
    s.receive first f effect =
      (let v := s.strayBlocks first f.others
       if rxGood f = false then
         let v := v.count (Reg.LANE.LINK1.CRCERR first) 1
         if sequenced (rxKind f) then v.nack first else v
       else
         let v := v.takeStart first (rxExpseq f) (rxCredit f)
         if rxFseq f = v.rd (Reg.LANE.LINK2.EXPSEQ first) then
           let v := (v.wr (Reg.LANE.LINK2.EXPSEQ first) ((rxFseq f + 1) % 4096)).count (Reg.LANE.LINK0.RXFRAMES first) 1
           effect (match v.group first with
             | some g => v.setGroup { g with nackUntil := none, unacked := true }
             | none => v)
         else v.nack first)) ∧
  (∀ (s : State) (first : Nat) (g : Group) (word p0 p1 : Word), s.group first = some g →
    s.takeSync first word p0 p1 =
      (let rx := s.stampNow false (laneCorrection (s.rd (Reg.LANE.CFG.RATE first))).2
       let meas := match g.syncTxs.find? fun x => x.1 = fieldOf word 63 48 with
         | some x =>
           if (g.partnerSync + 1) % 65536 = fieldOf word 15 0 then
             some (syncOffset (stampUnits p0) g.syncRx x.2 (stampUnits p1),
               syncDelay (stampUnits p0) g.syncRx x.2 (stampUnits p1))
           else g.meas
         | none => g.meas
       [0, 1].foldl (fun (w : State) d => if w.domSource d = 3 ∧ (w.dom d).lane = first then w.heard d else w)
         (s.setGroup { g with meas := meas, partnerSync := fieldOf word 15 0, syncRx := rx }))) ∧
  (∀ (s : State) (dt first : Nat) (g : Group), s.inReset = false → s.group first = some g → s.laneSends first = true →
    s.rdb (Reg.LANE.CFG.SYNCEN first) = true → g.syncAt + s.rd (Reg.LANE.CFG.SYNCINT first) * fsUs ≤ s.now + dt →
    Machine.exec (.syncInterval dt first) s = .next (s.after dt fun u =>
      let prev := (g.syncTxs.head?.map Prod.snd).getD 0
      let v := u.sendNow first kindSync (toWord (g.syncNo % 65536 + g.partnerSync % 65536 * 2 ^ 48))
        [stampWord (prev * 65536), stampWord (g.syncRx * 65536)]
      match v.group first with
      | some h =>
        let tx := v.syncStamp h (((h.sent.filter fun f => f.kind = kindSync).getLast?.map LFrame.pos).getD 0)
        v.setGroup { h with
          syncNo := (g.syncNo + 1) % 65536, syncAt := v.now, syncTxs := ((g.syncNo, tx) :: g.syncTxs).take 8 }
      | none => v)) ∧
  (∀ (s : State) (dt lane : Nat) (bytes : List Byte) (corrected bad : Nat) (buffer : Bool) (ptp : Option Int),
    s.inReset = false → lane < 4 → s.rdb (Reg.ETH.STAT.LINK lane) = true →
    let fec := fun (u : State) =>
      if s.rd (Reg.ETH.CFG.MODE lane) = 3 then
        (u.count (Reg.ETH.FEC.CORRECTED lane) corrected).count (Reg.ETH.FEC.UNCORRECTED lane) bad
      else u
    let stamped := fun (u : State) =>
      { u with time := { u.time with
          ethRx := u.time.ethRx.set lane (u.stampNow false (ethCorrection (u.rd (Reg.ETH.CFG.MODE lane))).2) } }
    let accepted := (beNat (bytes.take 6) = s.rd (Reg.ETH.CFG.ADDR lane) ∨
      BitVec.ofNat 48 (beNat (bytes.take 6)) ∈ ptpAddresses) ∧ buffer = true
    let event := Instr.ethFrameReceive dt lane bytes corrected bad buffer ptp
    (ethFcsOk bytes = false →
      Machine.exec event s = .next (s.after dt fun u => (fec u).count (Reg.ETH.RXCNT.RXFCS lane) 1)) ∧
    (ethFcsOk bytes = true → ethShapeOk bytes = false → Machine.exec event s = .next (s.after dt fec)) ∧
    (ethFcsOk bytes = true → ethShapeOk bytes = true → ethPause bytes = true →
      Machine.exec event s = .next (s.after dt fun u => (fec u).count (Reg.ETH.TXCNT.PAUSE lane) 1)) ∧
    (ethFcsOk bytes = true → ethShapeOk bytes = true → ethPause bytes = false → ¬ accepted →
      Machine.exec event s = .next (s.after dt fun u => (stamped (fec u)).count (Reg.ETH.RXCNT.RXDROP lane) 1)) ∧
    (ethFcsOk bytes = true → ethShapeOk bytes = true → ethPause bytes = false → accepted →
      Machine.exec event s = .next (s.after dt fun u =>
        let v := (stamped (fec u)).count (Reg.ETH.RXCNT.RXOK lane) 1
        match ptp with
        | none => v
        | some off => [0, 1].foldl (fun (w : State) d =>
            if w.domSource d = 2 ∧ (w.dom d).lane = 64 + lane then w.measure d (w.asymmetric d (psInt off)) else w) v))) ∧
  (∀ (s : State) (dt domain : Nat), s.inReset = false → domain < 2 → s.domSource domain ≠ 0 →
    Machine.exec (.ptpSyncInterval dt domain) s = .next (s.after dt fun u =>
      let x := u.dom domain
      let v := if s.domSource domain = 2 ∧ s.rdb (Reg.ETH.STAT.LINK (x.lane - 64)) = true then
        u.ethSend (x.lane - 64) (ptpBytes x.transport) else u
      (serveLanes x.serve).foldl (fun (w : State) t =>
        if w.rdb (Reg.ETH.STAT.LINK t) then
          match x.frameCues.find? fun f => f.1 = t with
          | some f =>
            let ahead := (Config.freeWord w.free).toNat % (2 ^ x.synclog * (1000000000 / 128)) * 65536
            ({ w with free := w.free + 1 }).armCue f.2 (w.outUnits + ahead) 0
          | none => w.sendTwoStep t x.transport
        else w) v))
/-! ### Lanes -/

/-- Tier 1.  LANE_SETUP enables or disables a group of fabric lanes, or a time lane.  LANE_LOOP starts a loop of a group with no loop
and replies at once, or at the loop's end for PRBS; OP 0 ends the lane's loop.  LANE_SLEEP puts a group's directions to sleep or
wakes them.  A loop whose DURATION has passed ends, a PRBS loop with its counts. -/
def Obligations.LaneCommandsAct : Prop :=
  (∀ (s : State) (dt : Nat) (h : CmdHdr) (ws : List Word),
    let v := (s.elapse dt).begun 0x0701 h ws
    let w := fun i => (ws.getD i 0).toNat
    let first := fieldOf (ws.getD 0 0) 6 0
    let wlog := fieldOf (ws.getD 0 0) 10 8
    let rate := fieldOf (ws.getD 0 0) 13 12
    let on := flagOf (ws.getD 0 0) 16
    s.accepts dt h (laneSetupLen ws) false false = true →
    onlyBits ws 0 [(6, 0), (10, 8), (13, 12), (16, 16), (17, 17), (18, 18), (31, 24)] = true →
    onlyBits ws 1 [(15, 0), (31, 16), (35, 32)] = true → onlyBits ws 2 [(9, 0), (21, 16)] = true →
    onlyBits ws 3 [(47, 0)] = true → laneWordsBad (w 0) = false → (∀ g, v.group first = some g → g.loop = none) →
    (64 ≤ first → (on = true → v.rd (Reg.ETH.CFG.MODE (first - 64)) = 0 → 2 ≤ v.freeBu) →
      Machine.exec (.laneSetup dt h ws) s = .next (s.afterCmd dt 0x0701 h ws fun c u =>
        (u.setupTimeLane (first - 64) on rate (fieldOf (ws.getD 3 0) 47 0)).ok c [])) ∧
    (first < 64 → (v.group first = none ∨ v.rdb (Reg.LANE.CFG.INUSE first) = false) → v.lanesTaken first wlog = false →
      (on = true → v.spreadBad = false → laneBu wlog rate ≤ v.groupHolds first + v.freeBu →
        Machine.exec (.laneSetup dt h ws) s = .next (s.afterCmd dt 0x0701 h ws fun c u =>
          (u.enableGroup (w 0) (w 1) (w 2) false).ok c [])) ∧
      (on = false → ∀ g, v.group first = some g →
        Machine.exec (.laneSetup dt h ws) s = .next (s.afterCmd dt 0x0701 h ws fun c u =>
          ((u.discardLink first).laneOff first).ok c [])) ∧
      (on = false → v.group first = none →
        Machine.exec (.laneSetup dt h ws) s = .next (s.afterCmd dt 0x0701 h ws fun c u => u.ok c [])))) ∧
  (∀ (s : State) (dt : Nat) (h : CmdHdr) (ws : List Word) (g : Group),
    let v := (s.elapse dt).begun 0x0702 h ws
    let lane := fieldOf (ws.getD 0 0) 5 0
    let op := fieldOf (ws.getD 0 0) 9 8
    let prbs := flagOf (ws.getD 0 0) 12
    let dur := fieldOf (ws.getD 1 0) 31 0
    s.accepts dt h (decide (ws.length = 2)) false false = true →
    onlyBits ws 0 [(5, 0), (9, 8), (12, 12)] = true → onlyBits ws 1 [(31, 0)] = true → dur ≤ 10000000 →
    v.groupOf lane = some g → v.rdb (Reg.LANE.CFG.INUSE g.first) = false →
    (op ≠ 0 → g.loop = none → (prbs = true → op ≠ 3 ∧ dur ≠ 0) →
      Machine.exec (.laneLoop dt h ws) s = .next (s.afterCmd dt 0x0702 h ws fun c u =>
        let t := u.setGroup { g with
          loop := some (lane, op, if prbs then some c.id else none, if dur = 0 then 0 else u.now + dur * fsUs) }
        let t := (t.laneSet Reg.LANE.STAT.STATE g.first g.wlog 3).wr (Reg.LANE.STAT.STATE lane) 4
        if prbs then t else t.ok c [])) ∧
    (∀ l k cmd end_, op = 0 → g.loop = some (l, k, cmd, end_) →
      Machine.exec (.laneLoop dt h ws) s = .next (s.afterCmd dt 0x0702 h ws fun c u =>
        if l = lane then
          let t := u.endLoop g
          (match cmd with
            | some id => t.complete id stAborted 0 []
            | none => t).ok c []
        else u.ok c [])) ∧
    (op = 0 → g.loop = none →
      Machine.exec (.laneLoop dt h ws) s = .next (s.afterCmd dt 0x0702 h ws fun c u => u.ok c []))) ∧
  (∀ (s : State) (dt : Nat) (h : CmdHdr) (ws : List Word) (g : Group),
    let v := (s.elapse dt).begun 0x0704 h ws
    let first := fieldOf (ws.getD 0 0) 5 0
    let tx := flagOf (ws.getD 0 0) 8
    let rx := flagOf (ws.getD 0 0) 9
    let sleep := flagOf (ws.getD 0 0) 10
    s.accepts dt h (decide (ws.length = 1)) false false = true →
    onlyBits ws 0 [(5, 0), (8, 8), (9, 9), (10, 10), (12, 12)] = true → v.group first = some g → g.loop = none →
    v.rdb (Reg.LANE.CFG.INUSE first) = false →
    (tx = true → sleep = false → v.rdb (Reg.LANE.STAT.TXSLEEP first) = true → 2 ^ g.wlog ≤ v.freeBu) →
    Machine.exec (.laneSleep dt h ws) s = .next (s.afterCmd dt 0x0704 h ws fun c u =>
      let t := u.laneSet Reg.LANE.CFG.WAKESRC first g.wlog (b2n (flagOf (ws.getD 0 0) 12))
      (if sleep then t.sleepGroup g tx rx else t.wakeGroup g tx rx).ok c [])) ∧
  (∀ (s : State) (dt lane nbits errors op end_ : Nat) (cmd : Option Nat) (g : Group), s.inReset = false →
    s.groupOf lane = some g → g.loop = some (lane, op, cmd, end_) → end_ ≠ 0 → end_ ≤ s.now + dt →
    Machine.exec (.loopDurationEnd dt lane nbits errors) s = .next (s.after dt fun u =>
      match cmd with
      | some id => (u.endLoop g).complete id stOk 0 [toWord nbits, toWord errors]
      | none => u.endLoop g))

/-- Tier 1.  A group that tries to come up and whose lanes align is UP where it sees the partner it was set for, posts MISWIRE
otherwise, and goes down where a skew exceeds 32 blocks; a miswired group tries again after 10 ms.  A loss in an UP group takes all
of it down; loss of signal counts where neither direction of the lane sleeps, loss of lock where its receiver does not.  The time
lane's link follows ETH_LINK_CHANGE.  An ACK or NACK frame that passes its checks acknowledges held frames, and a NACK sends them again;
a group with frames accepted and unacknowledged sends an ACK 1 µs after its last START, replays after 4 µs without an acknowledgement,
and may send another NACK after 2 µs.  A sleeping receiver that sees the wake pattern wakes, and signals
the wake logic where WAKESRC is set; the pattern ends after 2 µs. -/
def Obligations.GroupsComeUpAndGoDown : Prop :=
  (∀ (s : State) (dt first seat seenFirst seenWlog : Nat) (skews : List Nat) (g : Group), s.inReset = false →
    s.group first = some g → (s.elapse dt).tries g = true →
    let used := (List.range (2 ^ g.wlog)).map fun i => skews.getD i 0
    let measured := fun (u : State) =>
      used.zipIdx.foldl (fun (u : State) x => u.wr (Reg.LANE.STAT.SKEW (first + x.2)) (min x.1 63)) u
    ((∃ k ∈ used, 32 < k) →
      Machine.exec (.groupUp dt first seat seenFirst seenWlog skews) s = .next (s.after dt fun u =>
        (measured u).groupDown first g.wlog 4)) ∧
    ((∀ k ∈ used, k ≤ 32) → (seat ≠ g.pseat ∨ seenFirst ≠ g.pfirst ∨ seenWlog ≠ g.wlog) →
      Machine.exec (.groupUp dt first seat seenFirst seenWlog skews) s = .next (s.after dt fun u =>
        ((measured u).groupDown first g.wlog 5).post 0x0703 sevError (laneSource first)
          (first + seat % 1024 * 2 ^ 16 + seenFirst % 64 * 2 ^ 26))) ∧
    ((∀ k ∈ used, k ≤ 32) →
      Machine.exec (.groupUp dt first g.pseat g.pfirst g.wlog skews) s = .next (s.after dt fun u =>
        let t := (measured u).laneSet Reg.LANE.STAT.STATE first g.wlog 2
        let t := t.laneSet Reg.LANE.STAT.BLOCKLOCK first g.wlog 1
        let t := (t.laneSet Reg.LANE.STAT.LOS first g.wlog 0).laneSet Reg.LANE.STAT.LOL first g.wlog 0
        (t.post 0x0701 sevInfo (laneSource first) (first + g.wlog * 2 ^ 8)).linkStart first))) ∧
  (∀ (s : State) (dt lane : Nat) (cause : DownCause) (others : List LaneBlock) (g : Group), s.inReset = false →
    s.groupOf lane = some g →
    let seen := fun (u : State) =>
      let tx := u.rdb (Reg.LANE.STAT.TXSLEEP lane)
      let rx := u.rdb (Reg.LANE.STAT.RXSLEEP lane)
      if cause = .los ∧ tx = false ∧ rx = false then
        (u.wr (Reg.LANE.STAT.LOS lane) 1).count (Reg.LANE.ERR.LOSCNT lane) 1
      else if cause = .lol ∧ rx = false then (u.wr (Reg.LANE.STAT.LOL lane) 1).count (Reg.LANE.ERR.LOLCNT lane) 1
      else u
    Machine.exec (.groupGoesDown dt lane ⟨cause, others⟩) s = .next (s.after dt fun u =>
      let v := seen (u.strayBlocks g.first others)
      if v.laneUp g.first then v.groupDown g.first g.wlog (downCode cause) else v)) ∧
  (∀ (s : State) (dt first : Nat) (g : Group), s.inReset = false → s.group first = some g →
    s.rd (Reg.LANE.STAT.STATE first) = 3 → s.rd (Reg.LANE.STAT.CAUSE first) = 5 → g.downAt + 10 * fsMs ≤ s.now + dt →
    Machine.exec (.miswireRetry dt first) s = .next (s.after dt fun u => u.trainIfAwake g)) ∧
  (∀ (s : State) (dt lane : Nat) (up : Bool), s.inReset = false → lane < 4 → s.rd (Reg.ETH.CFG.MODE lane) ≠ 0 →
    (up = true → (s.elapse dt).coasts (7 + lane / 2) = false ∧ s.power < 2) →
    Machine.exec (.ethLinkChange dt lane up) s = .next (s.after dt fun u => u.ethLink lane up)) ∧
  (∀ (s : State) (dt first : Nat) (frame : LaneFrame), s.inReset = false → s.laneHears first = true →
    (rxKind frame = kindAck ∨ rxKind frame = kindNack) →
    Machine.exec (.ackNackReceive dt first frame.start ⟨frame.word, frame.payload⟩ ⟨frame.crc, frame.others⟩) s = .next (s.after dt fun u =>
      let v := u.strayBlocks first frame.others
      if rxGood frame = false then v.count (Reg.LANE.LINK1.CRCERR first) 1
      else
        let v := (v.count (Reg.LANE.LINK0.RXFRAMES first) 1).takeStart first (rxExpseq frame) (rxCredit frame)
        if rxKind frame = kindNack then (v.count (Reg.LANE.LINK1.NACKS first) 1).goBack first else v)) ∧
  (∀ (s : State) (dt first : Nat) (g : Group), s.inReset = false → s.group first = some g →
    (s.laneSends first = true → g.unacked = true → g.startAt + fsUs ≤ s.now + dt →
      Machine.exec (.ackTimerExpiry dt first) s = .next (s.after dt fun u => u.sendNow first kindAck 0 [])) ∧
    (s.laneSends first = true → g.txHeld ≠ [] → g.ackedAt + 4 * fsUs ≤ s.now + dt →
      Machine.exec (.replayTimeout dt first) s = .next (s.after dt fun u => u.goBack first)) ∧
    (∀ t, g.nackUntil = some t → t ≤ s.now + dt →
      Machine.exec (.nackHoldoffEnd dt first) s = .next (s.after dt fun u => u.setGroup { g with nackUntil := none })) ∧
    (∀ t, g.wakeUntil = some t → t ≤ s.now + dt →
      Machine.exec (.wakePatternEnd dt first) s = .next (s.after dt fun u => u.setGroup { g with wakeUntil := none })) ∧
    (s.rdb (Reg.LANE.STAT.RXSLEEP first) = true →
      (s.rdb (Reg.LANE.CFG.WAKESRC first) = true →
        Machine.exec (.wakePatternDetect dt first) s = .next (s.after dt fun u =>
          let t := if u.power < 2 then (u.laneSet Reg.LANE.STAT.RXSLEEP first g.wlog 0).trainIfAwake g else u
          (t.post 0x0705 sevInfo (laneSource first) (first + 2 ^ 8)).wakeLogic 2)) ∧
      (s.rdb (Reg.LANE.CFG.WAKESRC first) = false → s.power < 2 →
        Machine.exec (.wakePatternDetect dt first) s = .next (s.after dt fun u =>
          ((u.laneSet Reg.LANE.STAT.RXSLEEP first g.wlog 0).trainIfAwake g).post 0x0705 sevInfo (laneSource first) first))))
/-! ### The attic's maintenance, corridors -/

/-- Tier 1.  SCRUB and ATC_FILL, where nothing refuses them, hold 4 BU for each tower of their range; each wing moves one line at a
time, and the next one ends a line's time later; the tower that moves the last line ends the command, a SCRUB with its summary.
BLOCK_REMAP records a move to the spare or a retirement, answers HW_FAULT where the wing's spare is taken and REFUSED_STATE where the
ledger is full.  A line that a design port's read corrected is checked, and written back where SOR or the read asks.  A tower's steward
takes its oldest request: it discards one that has expired, answers TARGET_RESET where the attics are not up, REFUSED where R226 says
so, else it reads the words of a READ or takes those of a WRITE; a waiting write is accepted once there is room. -/
def Obligations.MaintenanceAndStewards : Prop :=
  (∀ (s : State) (dt : Nat) (h : CmdHdr) (ws : List Word),
    let v := (s.elapse dt).begun 0x0301 h ws
    let a := (ws.getD 0 0).toNat
    let n := (ws.getD 1 0).toNat
    s.accepts dt h (decide (ws.length = 3)) false false = true → rangeBad a n = false → onlyBits ws 2 [(0, 0)] = true →
    v.maintBusy a n = false → 4 * (rangeTowers a n).length ≤ v.freeBu →
    Machine.exec (.scrub dt h ws) s = .next (s.afterCmd dt 0x0301 h ws fun c u =>
      u.beginMaint c false (flagOf (ws.getD 2 0) 0) none)) ∧
  (∀ (s : State) (dt : Nat) (h : CmdHdr) (ws : List Word),
    let v := (s.elapse dt).begun 0x0303 h ws
    let a := (ws.getD 0 0).toNat
    let n := (ws.getD 1 0).toNat
    s.accepts dt h (decide (ws.length = 4)) false false = true → rangeBad a n = false → onlyBits ws 2 [(0, 0)] = true →
    (∀ b ∈ rangeBlocks a n, v.attic.isRetired b.1 b.2 = false ∧ v.attic.ownerOf b.1 b.2 ≠ some .trace ∧
      ∀ o, v.attic.ownerOf b.1 b.2 = some o → v.stepping = true → ∀ k ∈ v.ctxsInUse, o.has k = false) →
    v.maintBusy a n = false → 4 * (rangeTowers a n).length ≤ v.freeBu →
    Machine.exec (.atcFill dt h ws) s = .next (s.afterCmd dt 0x0303 h ws fun c u =>
      u.beginMaint c true false (if flagOf (ws.getD 2 0) 0 then some (ws.getD 3 0) else none))) ∧
  (∀ (s : State) (dt wing k ends : Nat) (j : MaintJob), s.inReset = false → s.lineJob wing = some (j, k, ends) →
    ends ≤ s.now + dt → s.atticUp = true → s.towerReady (wing / 64) = true → s.lineRoom j wing k = true →
    Machine.exec (.maintenanceLine dt wing) s = .next (s.after dt fun u =>
      let v := (u.touch (wing / 64)).charge iniKeeper (8 * (lineWords j.start j.length wing k).2.2.length)
      let r := if j.fill then ((j.fillWrites wing k).foldl State.maintWrite v, j) else v.scrubLine j wing k
      let j' := { r.2 with next := r.2.next.map fun (n : Nat × Nat × Nat) => if n.1 = wing then (wing, k + 1, ends) else n }
      State.nextLine { r.1 with attic := { r.1.attic with jobs := r.1.attic.jobs.map fun (i : MaintJob) =>
        if i.cmd = r.2.cmd then j' else i } } wing)) ∧
  (∀ (s : State) (dt tower : Nat) (fill : Bool) (j : MaintJob), s.inReset = false →
    s.attic.jobs.find? (fun j => j.fill = fill ∧ j.towersLeft.contains tower ∧ j.movedIn tower) = some j →
    Machine.exec (if fill then .atcFillComplete dt tower else .scrubComplete dt tower) s = .next (s.after dt fun u =>
      let j' := { j with towersLeft := j.towersLeft.filter (· ≠ tower) }
      if j'.towersLeft = [] then
        let t := { u with attic := { u.attic with jobs := u.attic.jobs.filter fun i => i.cmd ≠ j.cmd } }
        (t.ungrant 0x0C (4 * (rangeTowers j.start j.length).length)).complete j.cmd stOk 0
          (if fill then [] else u.scrubSummary j)
      else { u with attic := { u.attic with jobs := u.attic.jobs.map fun (i : MaintJob) =>
        if i.cmd = j.cmd then j' else i } })) ∧
  (∀ (s : State) (dt : Nat) (h : CmdHdr) (ws : List Word),
    let v := (s.elapse dt).begun 0x0304 h ws
    let tower := fieldOf (ws.getD 0 0) 2 0
    let wing := 64 * tower + fieldOf (ws.getD 0 0) 13 8
    let ab := fieldOf (ws.getD 0 0) 20 16
    let retire := flagOf (ws.getD 0 0) 24
    let goes := if retire then v.attic.phys wing ab else 24
    s.accepts dt h (decide (ws.length = 1)) false false = true →
    onlyBits ws 0 [(2, 0), (13, 8), (20, 16), (24, 24)] = true → ab ≤ 23 →
    ((wing, ab, retire) ∈ v.attic.moves →
      Machine.exec (.blockRemap dt h ws) s = .next (s.afterCmd dt 0x0304 h ws fun c u => u.answer c stOk goes [])) ∧
    ((wing, ab, retire) ∉ v.attic.moves → 256 ≤ v.dev.ledger.length →
      Machine.exec (.blockRemap dt h ws) s = .next (s.afterCmd dt 0x0304 h ws fun c u => u.answer c stState 2 [])) ∧
    ((wing, ab, retire) ∉ v.attic.moves → v.dev.ledger.length < 256 → retire = false → v.attic.spareOpen wing = false →
      Machine.exec (.blockRemap dt h ws) s = .next (s.afterCmd dt 0x0304 h ws fun c u => u.answer c stHwFault 1 [])) ∧
    ((wing, ab, retire) ∉ v.attic.moves → v.dev.ledger.length < 256 → (retire = false → v.attic.spareOpen wing = true) →
      Machine.exec (.blockRemap dt h ws) s = .next (s.afterCmd dt 0x0304 h ws fun c u =>
        let t := { u with attic := { u.attic with moves := u.attic.moves ++ [(wing, ab, retire)] } }
        ((t.addRepair { kind := if retire then 4 else 3, wing := wing, item := ab, bonds := [] }).post 0x0307 sevInfo tower
          (towerBlock wing ab)).answer c stOk goes []))) ∧
  (∀ (s : State) (dt tower : Nat) (x : OuterCheck), s.inReset = false →
    s.attic.checks.find? (fun c => c.wing / 64 = tower) = some x →
    Machine.exec (.outerCheckComplete dt tower) s = .next (s.after dt fun u =>
      let t := { u with attic := { u.attic with checks := u.attic.checks.erase x } }
      (t.readLine x.source x.wing x.block (x.word / 8) [] (some (x.word, x.fixed))
        (t.rdb (Reg.ATC.CTRL.SOR tower) || x.writeback)).1)) ∧
  (∀ (s : State) (dt tower : Nat) (x : Nat × Packet), s.inReset = false → tower < 8 →
    s.noc.targets.find? (fun x => x.1 = tower) = some x →
    let taken := fun (u : State) => (u.leaveTarget x).touch tower
    ((s.elapse dt).expired x.2 = true → Machine.exec (.stewardRequest dt tower) s = .next (s.after dt fun u =>
      (taken u).countExpired (u.responseRouter tower x.2))) ∧
    ((s.elapse dt).expired x.2 = false → s.atticUp = false → Machine.exec (.stewardRequest dt tower) s = .next (s.after dt fun u =>
      (taken u).respond tower x.2 hsReset 0 [])) ∧
    ((s.elapse dt).expired x.2 = false → s.atticUp = true → s.stewardRefuses x.2 = true →
      Machine.exec (.stewardRequest dt tower) s = .next (s.after dt fun u =>
        (taken u).respond tower x.2 hsRefused 0 [])) ∧
    ((s.elapse dt).expired x.2 = false → s.atticUp = true → s.stewardRefuses x.2 = false → x.2.type = 2 →
      Machine.exec (.stewardRequest dt tower) s = .next (s.after dt fun u => (taken u).stewardWrite tower x.2)) ∧
    ((s.elapse dt).expired x.2 = false → s.atticUp = true → s.stewardRefuses x.2 = false → x.2.type ≠ 2 →
      Machine.exec (.stewardRequest dt tower) s = .next (s.after dt fun u => (taken u).stewardRead tower x.2))) ∧
  (∀ (s : State) (dt wing : Nat) (m : MaintWrite) (r : Option (Nat × Packet)), s.inReset = false →
    s.attic.waiting.find? (fun x => x.1.wing = wing) = some (m, r) → s.maintRoom wing = true →
    Machine.exec (.stewardWriteAccept dt wing) s = .next (s.after dt fun u =>
      let t := ({ u with attic := { u.attic with waiting := u.attic.waiting.erase (m, r) } }).acceptMaint m
      match r with
      | some q => t.respond q.1 q.2 hsOk 0 []
      | none => t))

/-- Tier 1.  A token that waits at a corridor crosses it on the slot that carries its channel: clean, resent at half width where one
half fails its check, its group failing where both do; a half that the group does not use is not seen.  An acknowledge crosses where
every wire is right, else the group fails.  A missing handshake makes its group fail at once; the walking pattern finds failing wires on
groups idle for 20 ns, and a re-map moves the channels of retired groups. -/
def Obligations.CorridorsCarryAndRepair : Prop :=
  (∀ (s : State) (dt dir group slot : Nat) (wires : List Nat) (r : StepRun) (t : Token), s.inReset = false →
    s.step.cur = some r → s.corr.usable dir group = true →
    r.tokens.find? (fun t => (match t.hops with
      | h :: _ => h.dir == dir && s.corr.place (s.phaseCtx r) h == (group, slot)
      | [] => false) && decide (t.ready ≤ s.now + dt) && !(s.elapse dt).routeCut t.hops) = some t →
    Machine.exec (.corridorTransfer dt dir group slot wires) s = .next (s.after dt fun u =>
      let fails := u.count (Reg.CORR.CHK.CHKFAIL dir) 1
      let again := fun (high : Bool) =>
        let v := (fails.count (Reg.CORR.CHK.HALFXFER dir) 1).noteCheck dir group high
        ({ v with corr := { v.corr with halfNow := v.corr.halfNow ++ [(dir, group, !high)] } }).tokenCrosses r t t.value
      if t.isAck then (if wires = [] then u.tokenCrosses r t t.value else u.groupFails dir group)
      else match u.corr.seen dir group (xferEnd wires) with
        | .clean => u.tokenCrosses r t (if xferEnd wires = .clean then xferData t.value wires else t.value)
        | .failLow => again false
        | .failHigh => again true
        | .failBoth => fails.groupFails dir group)) ∧
  (∀ (s : State) (dt dir group : Nat) (r : StepRun), s.inReset = false → s.step.cur = some r →
    s.corr.usable dir group = true → (∃ h ∈ s.dirHops (s.phaseCtx r) dir, (s.corr.place (s.phaseCtx r) h).1 = group) →
    Machine.exec (.handshakeTimeout dt dir group) s = .next (s.after dt fun u => u.groupFails dir group)) ∧
  (∀ (s : State) (dt dir group : Nat) (failsLow failsHigh failsOther : Bool), s.inReset = false → dir < dirCount →
    group < 34 → (s.corr.usable dir group = true ∨ s.corr.state dir group = 5) →
    s.corr.lastXfer.at 0 (groupKey dir group) + 20 * fsNs ≤ s.now + dt →
    (∀ r h, ∀ t : Token, s.step.cur = some r → t ∈ r.tokens → t.hops.head? = some h → h.dir = dir →
      (s.corr.place (s.phaseCtx r) h).1 ≠ group) →
    let low := failsLow = true ∧ s.corr.state dir group ≠ 3
    let high := failsHigh = true ∧ s.corr.state dir group ≠ 2
    ((failsOther = true ∨ (low ∧ high)) →
      Machine.exec (.idlePatternBeat dt dir group failsLow failsHigh failsOther) s = .next (s.after dt fun u =>
        (u.markFailing dir group none).repairNow)) ∧
    (low → ¬ high → failsOther = false →
      Machine.exec (.idlePatternBeat dt dir group failsLow failsHigh failsOther) s = .next (s.after dt fun u =>
        (u.markFailing dir group (some false)).repairNow)) ∧
    (¬ low → high → failsOther = false →
      Machine.exec (.idlePatternBeat dt dir group failsLow failsHigh failsOther) s = .next (s.after dt fun u =>
        (u.markFailing dir group (some true)).repairNow))) ∧
  (∀ (s : State) (dt dir : Nat), s.inReset = false → (∃ m ∈ s.corr.remaps, m.1 = dir) →
    (8 ≤ (dirEnds dir).1 ∨ s.towerReady (dirEnds dir).1 = true) →
    (8 ≤ (dirEnds dir).2 ∨ s.towerReady (dirEnds dir).2 = true) →
    Machine.exec (.remapComplete dt dir) s = .next (s.after dt fun u =>
      let moved := u.remapAll [0, 1, 2, 3] dir
      let v := moved.getD u
      let v := { v with corr := { v.corr with remaps := v.corr.remaps.filter fun m => m.1 ≠ dir } }
      let v := (u.corr.remaps.filter fun m => m.1 = dir).foldl (fun (w : State) m =>
        let stall := min (ceilDiv (w.now - m.2.2) (10 * fsNs)) 65535
        (w.post 0x0403 sevError srcDevice (dir + m.2.1 * 2 ^ 8 + stall * 2 ^ 16)).corrAtRisk 3 dir m.2.1) v
      if moved.isNone then (v.corrSync.exhaust dir).corrSync.enterFault else v.corrSync))
/-! ### Hallway, GDDR6, encryption -/

/-- Tier 1.  A router in service handles the front packet of a class at an output: one whose header check fails is discarded and counted
in HCHK, any other is taken as its header reads.  A packet is discarded where its TYPE is none or it is older than 250 µs; a request to
a tower that is not ready is answered TARGET_RESET; a packet is delivered at its own router, forwarded to the next, and where none leads
on a request is answered NOROUTE.  An initiator takes a response that matches its tag, a stale one is counted; a tag times out, is
quarantined for 64 µs and is free again; an old packet is discarded, and a drain ends.  A completion whose wing port's buffer is full
waits, and a time-out with it (the model's choice, assumption 105). -/
def Obligations.PacketsAndTagsMove : Prop :=
  (∀ (s : State) (dt router output : Nat) (response : Bool) (inverted : List Nat) (p : Packet), s.inReset = false →
    (s.elapse dt).pump.routerFront router output response = some p → (s.elapse dt).pump.routerUp router = true →
    Machine.exec (.packetAtRouter dt router ⟨output, response, inverted⟩) s = .next (s.after dt fun u =>
      let v := u.pump.leaveRouter router p
      let h := inverted.foldl (fun (h : Nat) i => Nat.xor h (2 ^ i)) p.header
      if inverted = [] then v.routePacket router p
      else if headerOk h then v.routePacket router (p.withHeader h)
      else v.count Reg.NOC.DISCARD.HCHK 1)) ∧
  (∀ (v : State) (r : Nat) (p : Packet),
    let known := [1, 2, 8, 9, 0xA].contains p.type = true
    let cut := p.type < 8 ∧ p.dest < 0x10 ∧ v.towerReady (p.dest % 8) = false
    let refused := fun (u : State) (status : Nat) => u.enterRouter r { p.response status 0 [] with ready := u.now }
    (¬ known → v.routePacket r p = v.count Reg.NOC.DISCARD.BADTYPE 1) ∧
    (known → v.expired p = true → v.routePacket r p = v.countExpired r) ∧
    (known → v.expired p = false → cut → v.routePacket r p = refused v hsReset) ∧
    (known → v.expired p = false → ¬ cut → p.goal r = r → v.routePacket r p = v.deliverPacket r p) ∧
    (∀ n, known → v.expired p = false → ¬ cut → p.goal r ≠ r → v.nextRouter r (p.goal r) = some n →
      v.routePacket r p = v.enterRouter n.1 (Packet.onLink { p with alt := p.alt || n.2 } r n.1)) ∧
    (known → v.expired p = false → ¬ cut → p.goal r ≠ r → v.nextRouter r (p.goal r) = none →
      v.routePacket r p =
        if 8 ≤ p.type then v
        else refused ((v.count Reg.NOC.ABORTS.NOROUTE 1).postLimited 0x0409 p.init sevError srcDevice
          (p.init + p.dest * 2 ^ 16)) hsNoroute)) ∧
  (∀ (s : State) (dt i : Nat) (p : Packet), s.inReset = false → s.noc.arrived.find? (fun x => x.1 = i) = some (i, p) →
    let old := (s.elapse dt).expired p
    let taken := fun (u : State) => { u with noc := { u.noc with arrived := u.noc.arrived.erase (i, p) } }
    let mine := s.noc.tags.find? fun t => t.tag = p.tag ∧ t.gen = p.gen ∧ t.init = i ∧ t.quarantine = none
    (old = true → Machine.exec (.responseArrival dt i) s = .next (s.after dt fun u => (taken u).countExpired (p.goal 0))) ∧
    (∀ x, old = false → mine = some x → (s.elapse dt).portFull x = false →
      Machine.exec (.responseArrival dt i) s = .next (s.after dt fun u => (taken u).takeResponse i p x)) ∧
    (old = false → mine = none →
      Machine.exec (.responseArrival dt i) s = .next (s.after dt fun u => (taken u).staleCompletion i))) ∧
  (∀ (s : State) (dt tag : Nat) (x : TagUse), s.inReset = false →
    (s.noc.tags.find? (fun t => t.tag = tag ∧ t.quarantine = none) = some x → x.entry + s.tagLimit ≤ s.now + dt →
      (s.elapse dt).portFull x = false →
      Machine.exec (.tagTimeout dt tag) s = .next (s.after dt fun u =>
        let tags := u.noc.tags.map fun (t : TagUse) => if t.tag = tag then { t with quarantine := some u.now } else t
        let v := ({ u with noc := { u.noc with tags := tags } }).count (Reg.NOC.INI.LAT.TIMEOUTS x.init) 1
        (v.postLimited 0x0406 x.init sevWarn srcDevice x.init).transactionDone x.purpose x.init tag x.write hsTimeout
          (if x.write then [] else onesFor x.words))) ∧
    (s.noc.tags.find? (fun t => t.tag = tag && t.quarantine.any fun q => decide (q + 64 * fsUs ≤ s.now + dt)) = some x →
      Machine.exec (.quarantineEnd dt tag) s = .next (s.after dt fun u =>
        let v := { u with noc := { u.noc with
          tags := u.noc.tags.filter fun t => t.tag ≠ tag
          gens := u.noc.gens.upd 0 tag ((u.noc.gens.at 0 tag + 1) % 4) } }
        (v.tagSync x.init).pump))) ∧
  (∀ (s : State) (dt router : Nat), s.inReset = false →
    let old := (s.elapse dt).noc.routers.find? fun x => x.1 = router && (s.elapse dt).expired x.2
    let wait := (s.elapse dt).noc.targets.find? fun x =>
      (s.elapse dt).responseRouter x.1 x.2 = router && (s.elapse dt).expired x.2 && !(s.elapse dt).g6.answered.contains x.2
    let came := (s.elapse dt).noc.arrived.find? fun x => x.2.goal router = router && (s.elapse dt).expired x.2
    (∀ x, old = some x → Machine.exec (.packetExpiry dt router) s = .next (s.after dt fun u =>
      (u.leaveRouter router x.2).countExpired router)) ∧
    (∀ x, old = none → wait = some x → Machine.exec (.packetExpiry dt router) s = .next (s.after dt fun u =>
      let v := (u.leaveTarget x).countExpired router
      if 0x20 ≤ x.1 then v.rtSync (x.1 - 0x20) else v)) ∧
    (∀ x, old = none → wait = none → came = some x → Machine.exec (.packetExpiry dt router) s = .next (s.after dt fun u =>
      ({ u with noc := { u.noc with arrived := u.noc.arrived.erase x } }).countExpired router))) ∧
  (∀ (s : State) (dt tower since next : Nat), s.inReset = false →
    s.noc.drains.find? (fun d => d.1 = tower) = some (tower, since, next) →
    ((∀ x ∈ s.noc.routers, x.1 ∉ towerRouters tower) ∨ since + 10 * fsUs ≤ s.now + dt) →
    Machine.exec (.drainEnd dt tower) s = .next (s.after dt fun u => u.drainEnds tower))

/-- Tier 1.  NOC_QUOTA is granted the rise of its reservations and waits for the tags of the initiators that it names; the oldest one
whose initiators have no tag in use or in quarantine, and whose tags still suffice (the model's choice, assumption 107), applies every
entry at once, and the fall returns; one that has waited 10 ms ends BUSY and changes nothing but the return of its rise. -/
def Obligations.NocQuotaWaitsAndApplies : Prop :=
  (∀ (s : State) (dt : Nat) (h : CmdHdr) (ws : List Word),
    let v := (s.elapse dt).begun 0x0402 h ws
    let n := fieldOf (ws.getD 0 0) 10 0
    let es := (List.range n).map fun i => (fieldOf (ws.getD (1 + i) 0) 10 0, fieldOf (ws.getD (1 + i) 0) 32 16,
      fieldOf (ws.getD (1 + i) 0) 42 40, fieldOf (ws.getD (1 + i) 0) 51 48)
    s.accepts dt h (decide (ws.length = 1 + n)) false false = true → onlyBits ws 0 [(10, 0)] = true → 1 ≤ n → n ≤ 1028 →
    (∀ i < n, onlyBits ws (1 + i) [(10, 0), (32, 16), (42, 40), (51, 48)] = true) → (es.map Prod.fst).Nodup →
    (∀ e ∈ es, e.1 ≤ 1027 ∧ 16 ∣ e.2.1 ∧ e.2.2.2 ≤ 10 ∧ ((e.1 = 1024 ∨ e.1 = 1026 ∨ e.1 = 1027) → 256 ≤ e.2.1) ∧
      (e.1 = 1025 → e.2.1 = v.rd (Reg.NOC.INI.TAGS.QUOTA 1025) ∧ e.2.2.1 = v.rd (Reg.NOC.INI.TAGS.URG 1025) ∧
        e.2.2.2 = v.rd (Reg.NOC.INI.TAGS.RESERVE 1025))) →
    v.quotaTotal es ≤ 65536 → v.quotaRise es ≤ v.freeBu →
    Machine.exec (.nocQuota dt h ws) s = .next (s.afterCmd dt 0x0402 h ws fun c u =>
      let t := u.grantAlways 0x08 (u.quotaRise es)
      let j : QuotaJob := { cmd := c.id, entries := es, began := u.now, bu := u.quotaRise es }
      { t with noc := { u.noc with quotas := u.noc.quotas ++ [j] } })) ∧
  (∀ (s : State) (dt : Nat) (q : QuotaJob), s.inReset = false →
    (s.noc.quotas.find? (fun q => !(q.entries.any fun e => s.noc.tags.any fun t => t.init = e.1) &&
        decide (s.quotaTotal q.entries ≤ 65536)) = some q →
      Machine.exec (.nocQuotaApply dt) s = .next (s.after dt fun u =>
        let t := (u.ungrant 0x08 (q.bu + u.quotaFall q.entries)).grantAlways 0x08 (u.quotaRise q.entries)
        let t := t.applyQuotas q.entries
        let t := ({ t with noc := { t.noc with quotas := t.noc.quotas.erase q } }).freeTagSync
        (t.complete q.cmd stOk 0 []).pump)) ∧
    (s.noc.quotas.find? (fun q => decide (q.began + 10 * fsMs ≤ s.now + dt)) = some q →
      Machine.exec (.nocQuotaTimeout dt) s = .next (s.after dt fun u =>
        let t := u.ungrant 0x08 q.bu
        ({ t with noc := { t.noc with quotas := t.noc.quotas.erase q } }).complete q.cmd stBusy 0 [])))

/-- Tier 1.  G6_INIT trains all controllers, or retrains the channels it names, one of each porch at a time, until its completion with
the channels that failed.  G6_MAP sets the pending map, reads the map and the regions, or releases a STATE region; G6_QOS replaces a
port's settings and binding.  A controller serves the request whose turn it is; a bank whose refresh is due is refreshed, with REFMODE
every bank of a channel idle for 100 ns; a controller enters self-refresh once both channels are idle for SRIDLE; a channel whose TRAINPER
has passed is retrained: a failure takes the channel down, self-refresh puts it off to the exit. -/
def Obligations.Gddr6Acts : Prop :=
  (∀ (s : State) (dt : Nat) (h : CmdHdr) (ws : List Word),
    let v := (s.elapse dt).begun 0x0501 h ws
    let full := !flagOf (ws.getD 0 0) 0
    let rate := fieldOf (ws.getD 0 0) 23 16
    let sridle := fieldOf (ws.getD 1 0) 19 0
    let trainper := fieldOf (ws.getD 1 0) 41 32
    let bu := g6Bu rate (flagOf (ws.getD 0 0) 5) (flagOf (ws.getD 0 0) 6)
    s.accepts dt h (decide (ws.length = 2)) false false = true →
    onlyBits ws 0 [(0, 0), (9, 4), (23, 16), (47, 32)] = true → onlyBits ws 1 [(19, 0), (41, 32)] = true →
    14 ≤ rate → rate ≤ 20 → 1 ≤ sridle → sridle ≤ 1000000 → 1 ≤ trainper → trainper ≤ 1000 → v.g6.job = none →
    (full = true → v.stepping = false → v.g6.regions = [] → v.fits 0x0F bu = true →
      Machine.exec (.g6Init dt h ws) s = .next (s.afterCmd dt 0x0501 h ws fun c u =>
        let j : G6Job :=
          { cmd := c.id, map := u.g6.pend
            older := (List.range 8).foldl (fun (m : Cells Nat) k => m.upd 0 k (u.g6Queue k).length) []
            full := true, word0 := (ws.getD 0 0).toNat, channels := fieldOf (ws.getD 0 0) 47 32, left := [], failed := 0
            sridle := sridle, trainper := trainper }
        (List.range 8).foldl (fun (t : State) k => t.setCtrl k 1)
          (State.setHeld { u with g6 := { u.g6 with job := some j } } 0x0F bu))) ∧
    (full = false → fieldOf (ws.getD 0 0) 47 32 ≠ 0 →
      Machine.exec (.g6Init dt h ws) s = .next (s.afterCmd dt 0x0501 h ws fun c u =>
        let j : G6Job :=
          { cmd := c.id, map := u.g6.pend, older := [], full := false, word0 := (ws.getD 0 0).toNat
            channels := fieldOf (ws.getD 0 0) 47 32
            left := (List.range 16).filter (bit (fieldOf (ws.getD 0 0) 47 32)), failed := 0, sridle := sridle
            trainper := trainper }
        State.retrainSync { u with g6 := { u.g6 with job := some j } }))) ∧
  (∀ (s : State) (dt failed : Nat) (j : G6Job), s.inReset = false → s.g6.job = some j → j.older = [] →
    Machine.exec (.g6InitComplete dt failed) s = .next (s.after dt fun u =>
      if j.full then u.fullEnds j (failed % 65536) else u.retrainEnds j (failed % 65536))) ∧
  (∀ (s : State) (dt : Nat) (h : CmdHdr) (ws : List Word),
    let v := (s.elapse dt).begun 0x0502 h ws
    let op := fieldOf (ws.getD 0 0) 1 0
    let entry := fieldOf (ws.getD 1 0) 3 0
    s.accepts dt h (g6MapLen ws) false false = true → (s.cmdOf 0x0502 h ws).g6mapBad = false →
    (op = 0 → Machine.exec (.g6Map dt h ws) s = .next (s.afterCmd dt 0x0502 h ws fun c u =>
      ({ u with g6 := { u.g6 with pend := c.g6map } }).ok c [])) ∧
    (∀ m, op = 1 → v.g6.active = some m →
      Machine.exec (.g6Map dt h ws) s = .next (s.afterCmd dt 0x0502 h ws fun c u =>
        u.ok c (m.toWords ++ (List.range 16).flatMap fun i => u.regionWords i))) ∧
    (op = 1 → v.g6.active = none →
      Machine.exec (.g6Map dt h ws) s = .next (s.afterCmd dt 0x0502 h ws fun c u =>
        u.openMap.2.ok c (u.openMap.1 ++ (List.range 16).flatMap fun i => u.regionWords i))) ∧
    (∀ r, op = 2 → v.regionAt entry = some r → r.owner = .state → (∀ x, v.g6.save = some x → x.2.1 ≠ r.base) →
      Machine.exec (.g6Map dt h ws) s = .next (s.afterCmd dt 0x0502 h ws fun c u =>
        ({ u with g6 := { u.g6 with regions := u.g6.regions.filter fun r => r.1 ≠ entry } }).ok c []))) ∧
  (∀ (s : State) (dt : Nat) (h : CmdHdr) (ws : List Word),
    let v := (s.elapse dt).begun 0x0504 h ws
    let k := fieldOf (ws.getD 0 0) 2 0
    let j := fieldOf (ws.getD 0 0) 5 4
    let n := fieldOf (ws.getD 0 0) 52 48
    let inits := (List.range n).map fun i => fieldOf (ws.getD (1 + i) 0) 10 0
    s.accepts dt h (decide (ws.length = 1 + n)) false false = true →
    onlyBits ws 0 [(2, 0), (5, 4), (8, 8), (25, 16), (41, 32), (52, 48)] = true →
    fieldOf (ws.getD 0 0) 41 32 < fieldOf (ws.getD 0 0) 25 16 → n ≤ 16 →
    (∀ i < n, onlyBits ws (1 + i) [(10, 0)] = true) → (∀ x ∈ inits, x ≤ 1027) →
    (∀ r ∈ v.g6.rt, r.ctrl = k → r.port ≠ j → ∀ x ∈ r.inits, x ∉ inits) →
    Machine.exec (.g6Qos dt h ws) s = .next (s.afterCmd dt 0x0504 h ws fun c u =>
      let t := (u.wrb (Reg.MEM.RT.ENABLE (k / 4) (k % 4) j) (flagOf (ws.getD 0 0) 8)).wr (Reg.MEM.RT.HI (k / 4) (k % 4) j)
        (fieldOf (ws.getD 0 0) 25 16)
      let t := t.wr (Reg.MEM.RT.LO (k / 4) (k % 4) j) (fieldOf (ws.getD 0 0) 41 32)
      let rest := t.g6.rt.filter fun r => !(r.ctrl == k && r.port == j)
      (({ t with g6 := { t.g6 with rt := rest ++ [RtPort.mk k j inits] } }).rtSync k).ok c [])) ∧
  (∀ (s : State) (dt k : Nat) (x : Packet × Option Nat) (link : LinkEnd) (changed : List (Nat × List Nat)) (rootBad : Bool),
    s.inReset = false → k < 8 → (s.elapse dt).g6Turn k = some x →
    (∀ j, s.g6.job = some j → j.trains ((s.elapse dt).g6Chan x.1.addr) = false) →
    Machine.exec (.g6Request dt k link ⟨changed, rootBad⟩) s = .next (s.after dt fun u =>
      u.serveG6 k x.1 x.2 link changed rootBad)) ∧
  (∀ (s : State) (dt ch bank : Nat), s.inReset = false → ch < 16 → bank < 16 → s.refreshes ch = true →
    s.g6.refreshAt.at 0 (16 * ch + bank) + s.refreshPeriod ≤ s.now + dt →
    Machine.exec (.refreshDue dt ch bank) s = .next (s.after dt fun u =>
      let banks := if u.g6.refmode = true ∧ u.g6.lastAccess.at 0 ch + 100 * fsNs ≤ u.now then List.range 16 else [bank]
      let bump := fun (m : Cells Nat) b => m.upd 0 (16 * ch + b) (m.at 0 (16 * ch + b) + 1)
      let mark := fun (m : Cells Nat) b => m.upd 0 (16 * ch + b) u.now
      { u with g6 := { u.g6 with
          refreshes := banks.foldl bump u.g6.refreshes, refreshAt := banks.foldl mark u.g6.refreshAt } })) ∧
  (∀ (s : State) (dt k : Nat), s.inReset = false → k < 8 → s.g6Queue k = [] →
    (∀ c ∈ [2 * k, 2 * k + 1], s.g6.lastAccess.at 0 c + s.g6.sridle * fsUs ≤ s.now + dt) →
    Machine.exec (.selfRefreshEntry dt k) s = .next (s.after dt fun u => u.selfRefresh k)) ∧
  (∀ (s : State) (dt ch : Nat) (ok : Bool), s.inReset = false →
    (∀ j, s.g6.job = some j → j.trains ch = true →
      Machine.exec (.retrainDue dt ch ok) s = .next (s.after dt fun u => u.channelDone ch ok)) ∧
    ((∀ j, s.g6.job = some j → ∀ c ∈ j.left, c / 8 ≠ ch / 8) → ch < 16 → s.chanDown ch = false →
      s.g6.lastTrain.at 0 ch + s.g6.trainper * fsMs ≤ s.now + dt →
      let trained := fun (u : State) => { u with g6 := { u.g6 with lastTrain := u.g6.lastTrain.upd 0 ch u.now } }
      (s.ctrl (ch / 2) = 3 → Machine.exec (.retrainDue dt ch ok) s = .next (s.after dt fun u =>
        { u with g6 := { u.g6 with trainOwed := (ch, ok) :: u.g6.trainOwed.filter fun c => c.1 ≠ ch } })) ∧
      (s.ctrl (ch / 2) = 2 → Machine.exec (.retrainDue dt ch ok) s = .next (s.after dt fun u =>
        if ok then trained u else (trained u).channelDown ch))))

/-- Tier 1.  CRYPT_ENABLE SET gives units their modes and a metadata window, and initialises them; REINIT initialises the units it
names; DISABLE ends protection.  CRYPT_INIT_COMPLETE ends the initialisation: CRYPT_READY is posted and the command replies. -/
def Obligations.EncryptionComesOnAndOff : Prop :=
  (∀ (s : State) (dt : Nat) (h : CmdHdr) (ws : List Word),
    let v := (s.elapse dt).begun 0x0601 h ws
    let c0 := s.cmdOf 0x0601 h ws
    let op := fieldOf (ws.getD 0 0) 1 0
    s.accepts dt h (cryptEnableLen ws) false false = true → onlyBits ws 0 [(1, 0)] = true → v.crypt.job = none →
    (op = 0 → v.setBad c0 = false → v.rdb Reg.CRYPT.STAT.KEY = true → v.g6Cap ≠ 0 → (∀ x < 64, v.unitMode x = 0) →
      v.stepping = false → v.setTaken c0 = false → cryptBu c0.setUnits.length c0.setTree.length ≤ v.freeBu →
      Machine.exec (.cryptEnable dt h ws) s = .next (s.afterCmd dt 0x0601 h ws fun c u => u.cryptSet c)) ∧
    (op = 2 → (∀ x ∈ c0.reinitUnits, v.unitMode x ≠ 0 ∧ v.unitMode x ≠ 3) → v.rdb Reg.CRYPT.STAT.KEY = true →
      v.g6Cap ≠ 0 → (∃ x < 64, v.unitMode x ≠ 0) →
      Machine.exec (.cryptEnable dt h ws) s = .next (s.afterCmd dt 0x0601 h ws fun c u =>
        let k := { u.crypt with refuse := c0.reinitUnits, job := some (c.id, c0.reinitUnits, false) }
        ({ u with crypt := k }).wr Reg.CRYPT.STAT.BUSY 1)) ∧
    (op = 1 → (∃ x < 64, v.unitMode x ≠ 0) → v.stepping = false →
      Machine.exec (.cryptEnable dt h ws) s = .next (s.afterCmd dt 0x0601 h ws fun c u => u.flushCache.unprotect.ok c []))) ∧
  (∀ (s : State) (dt id : Nat) (units : List Nat) (set : Bool), s.inReset = false → s.crypt.job = some (id, units, set) →
    Machine.exec (.cryptInitComplete dt) s = .next (s.after dt fun u =>
      ((u.initUnits units).post 0x0601 sevInfo srcDevice ((u.initUnits units).rd Reg.CRYPT.STAT.PROTECTED % 64 +
        (u.initUnits units).rd Reg.CRYPT.STAT.TREE * 2 ^ 8 + (u.initUnits units).rd Reg.CRYPT.STAT.META % 16 * 2 ^ 16)
        ).cryptJobEnds stOk))
/-! ### Clocks -/

/-- Tier 1.  CLK_SETUP sets a spread, a loop, REFCLK_AUX's frequency or an output; CLK_SWITCH makes a domain pending toward a source
(with RESET it empties the FIFOs of its banks) and its completion puts it there; one that waits for 1 ms is stuck.  CLK_MEASURE
starts a gate, and its end replies with the edges.  The counters show what each clock counted once in every ms, and a reference input
or pin clock that shows edges again is present; losses, relocks and REFCLK_AUX follow their events. -/
def Obligations.ClocksSwitchAndMeasure : Prop :=
  (∀ (s : State) (dt : Nat) (h : CmdHdr) (ws : List Word),
    let v := (s.elapse dt).begun 0x0A01 h ws
    let item := fieldOf (ws.getD 0 0) 3 0
    let depth := fieldOf (ws.getD 0 0) 20 16
    let rate := fieldOf (ws.getD 0 0) 30 24
    let sysref := flagOf (ws.getD 0 0) 32
    let freqs := (List.range 4).map fun i => (ws.getD (1 + i) 0).toNat
    s.accepts dt h (clkSetupLen ws) false false = true → v.clkSetupBad (s.cmdOf 0x0A01 h ws) = false →
    (item = 0 → v.engine ≠ seRunning → (spreadOk depth rate = true ∨ v.groups = []) →
      Machine.exec (.clkSetup dt h ws) s = .next (s.afterCmd dt 0x0A01 h ws fun c u => (u.setSpread depth rate).ok c [])) ∧
    (1 ≤ item → item ≤ 3 → v.loopSelected (8 + item) = false →
      (v.loopOn (8 + item) = true ∨ (∀ f ∈ freqs, f = 0) ∨ 1 ≤ v.freeBu) →
      Machine.exec (.clkSetup dt h ws) s = .next (s.afterCmd dt 0x0A01 h ws fun c u =>
        (u.setLoop (8 + item) (fieldOf (ws.getD 0 0) 9 8) freqs).ok c [])) ∧
    (4 ≤ item → item ≤ 7 → (sysref = false ∨ spreadOk depth rate = true ∨ v.groups = []) →
      Machine.exec (.clkSetup dt h ws) s = .next (s.afterCmd dt 0x0A01 h ws fun c u =>
        (u.setOut (item - 4) depth rate sysref).ok c [])) ∧
    (item = 8 → (∀ d < 2, v.domState d = dsOff ∨ v.domPath d ≠ 1) →
      Machine.exec (.clkSetup dt h ws) s = .next (s.afterCmd dt 0x0A01 h ws fun c u =>
        (u.setAux (fieldOf (ws.getD 1 0) 1 0)).ok c []))) ∧
  (∀ (s : State) (dt : Nat) (h : CmdHdr) (ws : List Word),
    let v := (s.elapse dt).begun 0x0A02 h ws
    let d := fieldOf (ws.getD 0 0) 3 0
    let src := fieldOf (ws.getD 0 0) 5 4
    let reset := flagOf (ws.getD 0 0) 8
    s.accepts dt h (decide (ws.length = 1)) false false = true → onlyBits ws 0 [(3, 0), (5, 4), (8, 8)] = true → d ≤ 11 →
    srcListed d src = true → v.srcReady d src = true →
    (reset = false → v.srcRuns d (v.rd (Reg.CLK.DOM.SRC d)) = true ∧ v.rdb (Reg.CLK.DOM.PENDING d) = false) →
    Machine.exec (.clkSwitch dt h ws) s = .next (s.afterCmd dt 0x0A02 h ws fun c u =>
      if reset = true ∧ d < 8 then (u.setPending d src c.id reset).emptyFifos d else u.setPending d src c.id reset)) ∧
  (∀ (s : State) (dt d since : Nat) (cmd : Option Nat) (reset : Bool), s.inReset = false →
    s.clk.pend.find? (fun p => p.1 = d) = some (d, since, cmd, reset) →
    let ends := fun (u : State) (status : Nat) => match cmd with
      | some id => u.complete id status 0 []
      | none => u
    (∀ src, s.rd (Reg.CLK.DOM.TARGET d) = src → s.srcRuns d src = true →
      (reset = true ∨ s.srcRuns d (s.rd (Reg.CLK.DOM.SRC d)) = true) →
      Machine.exec (.muxSwitchComplete dt d) s = .next (s.after dt fun u => ends (u.domSwitched d src reset) stOk)) ∧
    (reset = false → s.rdb (Reg.CLK.DOM.STUCK d) = false → since + fsMs ≤ s.now + dt →
      Machine.exec (.muxPendingTimeout dt d) s = .next (s.after dt fun u =>
        let pend := u.clk.pend.map fun (p : Nat × Nat × Option Nat × Bool) => if p.1 = d then (d, since, none, false) else p
        let t := { u with clk := { u.clk with pend := pend } }
        ends ((t.wr (Reg.CLK.DOM.STUCK d) 1).post 0x0A03 sevError srcDevice d) stTimeout))) ∧
  (∀ (s : State) (dt : Nat) (h : CmdHdr) (ws : List Word),
    let clock := fieldOf (ws.getD 0 0) 5 0
    let gate := fieldOf (ws.getD 0 0) 25 16
    s.accepts dt h (decide (ws.length = 1)) false false = true → onlyBits ws 0 [(5, 0), (25, 16)] = true → clock ≤ 36 →
    1 ≤ gate → gate ≤ 1000 → s.clk.measures.length < 4 →
    Machine.exec (.clkMeasure dt h ws) s = .next (s.afterCmd dt 0x0A03 h ws fun c u =>
      { u with clk := { u.clk with measures := u.clk.measures ++ [Measuring.mk c.id clock gate u.now false] } })) ∧
  (∀ (s : State) (dt clock edges : Nat) (m : Measuring), s.inReset = false →
    s.clk.measures.find? (fun m => m.clock = clock ∧ m.began + m.gate * fsMs ≤ s.now + dt) = some m →
    Machine.exec (.clkMeasureGateEnd dt clock edges) s = .next (s.after dt fun u =>
      ({ u with clk := { u.clk with measures := u.clk.measures.erase m } }).complete m.cmd stOk (b2n m.relocked)
        [toWord edges, toWord (m.gate * 500000)])) ∧
  (∀ (s : State) (dt : Nat) (counts : List (Nat × Nat)), s.inReset = false → s.clk.sampledAt.at 0 1 + fsMs ≤ s.now + dt →
    let show1 := fun (u : State) (x : Nat × Nat) =>
      let t := (u.wr (Reg.CLK.FREQ.KHZ x.1) (min x.2 (2 ^ 32 - 1))).wrb (Reg.CLK.FREQ.PRESENT x.1) (x.2 != 0)
      if x.2 = 0 then t
      else if x.1 < 5 then
        if x.1 = 1 ∧ bit (t.rd Reg.CLK.STAT.REFOK) 1 = false then (t.wrBit Reg.CLK.STAT.REFOK x.1 true).linkTrain
        else t.wrBit Reg.CLK.STAT.REFOK x.1 true
      else if 29 ≤ x.1 then t.wrBit Reg.CLK.STAT.GCLKOK (x.1 - 29) true
      else t
    Machine.exec (.frequencyCountInterval dt counts) s = .next (s.after dt fun u =>
      (counts.filter fun x => decide (x.1 < 37)).foldl show1
        { u with clk := { u.clk with sampledAt := u.clk.sampledAt.upd 0 1 u.now } })) ∧
  (∀ (s : State) (dt clock : Nat), s.inReset = false →
    ((clock < 5 ∧ bit (s.rd Reg.CLK.STAT.REFOK) clock = true) ∨
      (5 ≤ clock ∧ clock < 17 ∧ s.loopOn (clock - 5) = true ∧ s.coastsTruly (clock - 5) = false) ∨
      (29 ≤ clock ∧ clock < 37 ∧ bit (s.rd Reg.CLK.STAT.GCLKOK) (clock - 29) = true)) →
    Machine.exec (.referenceLoss dt clock) s = .next (s.after dt fun u => u.clockLost clock)) ∧
  (∀ (s : State) (dt l : Nat), s.inReset = false → l < 12 → s.loopOn l = true →
    (s.coastsTruly l = true → Machine.exec (.loopRelock dt (l + 5)) s = .next (s.after dt fun u =>
      let t := (u.wrBit Reg.CLK.STAT.REFOK (u.loopRef l) true).loopBack l
      { t with clk := { t.clk with measures := t.clk.measures.map fun (m : Measuring) =>
        if m.clock = l + 5 then { m with relocked := true } else m } })) ∧
    (s.coastsTruly l = false → bit (s.rd Reg.CLK.STAT.LOCKED) l = false →
      bit (s.rd Reg.CLK.STAT.REFOK) (s.loopRef l) = true →
      Machine.exec (.loopRelock dt (l + 5)) s = .next (s.after dt fun u => u.wrBit Reg.CLK.STAT.LOCKED l true))) ∧
  (∀ (s : State) (dt : Nat), s.inReset = false → s.time.ml1 = false →
    Machine.exec (.refclkAuxPresent dt) s = .next (s.after dt fun u =>
      ({ u with time := { u.time with ml1 := true } }).wrBit Reg.CLK.STAT.REFOK 4 true))

/-! ### Power -/

/-- Tier 1.  PWR_STATE replies at once where the device is, joins a change without a command, leaves NAP or PATROL, or begins a change
that POWER_STATE_REACHED completes.  Wake sources reach the wake logic, HOLD's domains stop again after 1 ms, and the patrol sampler
wakes the device where an alarm and ACTION say so. -/
def Obligations.PowerStatesChange : Prop :=
  (∀ (s : State) (dt : Nat) (h : CmdHdr) (ws : List Word),
    let v := (s.elapse dt).begun 0x0B01 h ws
    let t := fieldOf (ws.getD 0 0) 2 0
    s.accepts dt h (decide (ws.length = 1)) false false = true → onlyBits ws 0 [(2, 0)] = true → t ≤ 3 →
    v.tripped = false →
    (t = v.power → v.pwr.target = none →
      Machine.exec (.pwrState dt h ws) s = .next (s.afterCmd dt 0x0B01 h ws fun c u => u.ok c [])) ∧
    ((t ≠ 0 → v.stepping = false) → (t = 3 → ∀ k < 16, v.cueFunc k ≠ fnStep ∧ v.cueFunc k ≠ fnFwact) →
      (2 ≤ t → v.napBusy = false) →
      (∀ began, v.pwr.target = some (t, none, began) →
        Machine.exec (.pwrState dt h ws) s = .next (s.afterCmd dt 0x0B01 h ws fun c u =>
          { u with pwr := { u.pwr with target := some (t, some c.id, began) } })) ∧
      (v.pwr.target = none → t ≠ v.power → 2 ≤ v.power → t ≠ 3 →
        Machine.exec (.pwrState dt h ws) s = .next (s.afterCmd dt 0x0B01 h ws fun c u =>
          if h.path = .mailbox then u.beginExit t (some c.id) 5
          else (u.beginExit t (some c.id) 0).wr Reg.PWR.STATE.LASTWAKE (u.rd Reg.PWR.STATE.LASTWAKE))) ∧
      (v.pwr.target = none → t ≠ v.power → (v.power < 2 ∨ t = 3) →
        Machine.exec (.pwrState dt h ws) s = .next (s.afterCmd dt 0x0B01 h ws fun c u =>
          ({ u with pwr := { u.pwr with target := some (t, some c.id, u.now), wake := none } }).wr Reg.PWR.STATE.CHANGING
            1)))) ∧
  (∀ (s : State) (dt t began : Nat) (cmd : Option Nat), s.inReset = false → s.pwr.target = some (t, cmd, began) →
    s.pwr.napBack = false → (s.power = 3 → s.dev.startup = [] ∧ s.allReady = true) →
    Machine.exec (.powerStateReached dt) s = .next (s.after dt fun u => u.stateReached t cmd)) ∧
  (∀ (s : State) (dt : Nat), s.inReset = false →
    Machine.exec (.wakeNAssert dt) s = .next (s.after dt fun u => u.wakeLogic 3) ∧
    (s.hif.perst = false → ∀ kind,
      Machine.exec (.pcieWakeRequest dt kind) s = .next (s.after dt fun u => u.wakeLogic 1))) ∧
  (∀ (s : State) (dt unit : Nat), s.inReset = false → s.power = 1 →
    (∃ d ∈ s.pwr.domIdle, d.1 = unit ∧ d.2 + fsMs ≤ s.now + dt) →
    Machine.exec (.holdDomainIdle dt unit) s = .next (s.after dt fun u =>
      let t := { u with pwr := { u.pwr with domIdle := u.pwr.domIdle.filter fun d => d.1 ≠ unit } }
      if 8 ≤ unit then t.selfRefresh (unit - 8) else t)) ∧
  (∀ (s : State) (dt : Nat) (values : List (Nat × Nat)) (alarms : Nat), s.inReset = false → s.power = 3 →
    s.pwr.target = none → s.pwr.sampled + s.pwr.interval * fsMs / 100 * 98 ≤ s.now + dt →
    let shown := fun (u : State) => ({ u with pwr := { u.pwr with sampled := u.now } }).wr Reg.IOB.CTLPINS.ALM_IN alarms
    (s.sampleAlarms values alarms = [] →
      Machine.exec (.patrolSample dt values alarms) s = .next (s.after dt shown)) ∧
    (s.sampleAlarms values alarms ≠ [] →
      Machine.exec (.patrolSample dt values alarms) s = .next (s.after dt fun u =>
        let t := (s.sampleAlarms values alarms).foldl (fun (w : State) a => w.patrolAlarm a.1 a.2.1 a.2.2)
          (shown u).carryTime
        if s.pwr.action then t.wakeLogic 4 else t)))

/-- Tier 1.  BUDGET_REQUEST takes BU into the pool, gives them back or sets the cap, and towers that wait take what it frees; THERMAL_LIMITS sets thresholds that the levels
follow at once; PATROL_SETUP sets the sampler.  A current measurement, every 10 µs, shows NOW and PEAK: three in a row more than 5% above the cap
begin an overdraw, 1 ms below the cap ends it.  A sensor read, every 100 µs, shows the temperatures; a sensor at 110 °C twice in a row trips. -/
def Obligations.BudgetHeatAndCurrent : Prop :=
  (∀ (s : State) (dt : Nat) (h : CmdHdr) (ws : List Word),
    let v := (s.elapse dt).begun 0x0B03 h ws
    let op := fieldOf (ws.getD 0 0) 1 0
    let n := fieldOf (ws.getD 0 0) 26 16
    s.accepts dt h (decide (ws.length = 1)) false false = true → onlyBits ws 0 [(1, 0), (26, 16)] = true →
    (op = 0 → n ≤ v.freeBu → Machine.exec (.budgetRequest dt h ws) s = .next (s.afterCmd dt 0x0B03 h ws fun c u =>
      ({ u with ledger := { u.ledger with pool := u.ledger.pool + n } }).admitTowers.ok c [])) ∧
    (op = 1 → n ≤ v.ledger.pool → Machine.exec (.budgetRequest dt h ws) s = .next (s.afterCmd dt 0x0B03 h ws fun c u =>
      ({ u with ledger := { u.ledger with pool := u.ledger.pool - n } }).admitTowers.ok c [])) ∧
    (op = 2 → 400 ≤ n → n ≤ 1600 → v.ledger.granted + v.ledger.setAside ≤ n →
      Machine.exec (.budgetRequest dt h ws) s = .next (s.afterCmd dt 0x0B03 h ws fun c u =>
        (u.wr Reg.PWR.LEDGER.CAP n).admitTowers.ok c []))) ∧
  (∀ (s : State) (dt : Nat) (h : CmdHdr) (ws : List Word),
    let t := fun (i : Nat) => fieldOf (ws.getD 0 0) (8 * i + 7) (8 * i)
    let m := fun (i : Nat) => fieldOf (ws.getD 1 0) (8 * i + 7) (8 * i)
    let hyst := fieldOf (ws.getD 0 0) 51 48
    s.accepts dt h (decide (ws.length = 2)) false false = true → onlyBits ws 0 [(51, 0)] = true →
    onlyBits ws 1 [(23, 0)] = true → (∀ i < 6, 60 ≤ t i ∧ t i ≤ 105) → t 0 < t 1 → t 1 < t 2 → t 3 < t 4 → t 4 < t 5 →
    1 ≤ hyst → hyst ≤ 10 → 8 ≤ m 0 → m 0 ≤ m 1 → m 1 ≤ m 2 →
    Machine.exec (.thermalLimits dt h ws) s = .next (s.afterCmd dt 0x0B04 h ws fun c u =>
      (((u.wr Reg.PWR.LIMITS.VALUE (ws.getD 0 0).toNat).wr Reg.PWR.MULT.VALUE (ws.getD 1 0).toNat).heatSync).ok c [])) ∧
  (∀ (s : State) (dt : Nat) (h : CmdHdr) (ws : List Word),
    let every := fieldOf (ws.getD 0 0) 15 0
    let lims := (List.range 5).map fun i => (fieldOf (ws.getD (1 + i) 0) 15 0, fieldOf (ws.getD (1 + i) 0) 31 16,
      flagOf (ws.getD (1 + i) 0) 32)
    s.accepts dt h (decide (ws.length = 7)) false false = true → onlyBits ws 0 [(15, 0), (16, 16)] = true →
    (∀ i < 5, onlyBits ws (1 + i) [(15, 0), (31, 16), (32, 32)] = true) → onlyBits ws 6 [(3, 0), (11, 8)] = true →
    1 ≤ every → every ≤ 60000 → (∀ l ∈ lims, l.1 ≤ l.2.1) →
    Machine.exec (.patrolSetup dt h ws) s = .next (s.afterCmd dt 0x0B05 h ws fun c u =>
      let p := { u.pwr with interval := every, action := flagOf (ws.getD 0 0) 16, limits := lims }
      let p := { p with alarmEn := fieldOf (ws.getD 6 0) 3 0, alarmHigh := fieldOf (ws.getD 6 0) 11 8 }
      ({ u with pwr := p }).ok c [])) ∧
  (∀ (s : State) (dt amps : Nat), s.inReset = false → s.power ≠ 3 → s.clk.sampledAt.at 0 2 + 10 * fsUs ≤ s.now + dt →
    let n := if s.cap * 105 < amps * 80 then s.pwr.overCnt + 1 else 0
    let since := if amps * 4 < s.cap * 5 then some (s.pwr.belowSince.getD (s.now + dt)) else none
    let shown := fun (u : State) =>
      let v : State := { u with clk := { u.clk with sampledAt := u.clk.sampledAt.upd 0 2 u.now } }
      let v := (v.wr Reg.PWR.CURRENT.NOW (min amps 65535)).raise Reg.PWR.CURRENT.PEAK amps
      { v with pwr := { v.pwr with overCnt := n, belowSince := since } }
    (s.step.overdraw = 0 → 3 ≤ n →
      Machine.exec (.currentMeasurement dt amps) s = .next (s.after dt fun u => (shown u).overdraws amps)) ∧
    (s.step.overdraw = 0 → n < 3 → Machine.exec (.currentMeasurement dt amps) s = .next (s.after dt shown)) ∧
    (∀ t, s.step.overdraw ≠ 0 → since = some t → t + fsMs ≤ s.now + dt →
      Machine.exec (.currentMeasurement dt amps) s = .next (s.after dt fun u =>
        let v := shown u
        ({ v with step := { v.step with overdraw := 0 } }).pacingSync)) ∧
    (s.step.overdraw ≠ 0 → (∀ t, since = some t → s.now + dt < t + fsMs) →
      Machine.exec (.currentMeasurement dt amps) s = .next (s.after dt shown))) ∧
  (∀ (s : State) (dt : Nat) (cellar floor attic porch : List Nat), s.inReset = false → s.power ≠ 3 →
    s.clk.sampledAt.at 0 3 + 100 * fsUs ≤ s.now + dt →
    let max16 := fun (l : List Nat) (t : Nat) => hottest l (16 * t) 16
    let shown := fun (u : State) =>
      let v := (List.range 8).foldl (fun (v : State) t =>
        ((v.wr (Reg.PWR.TEMP.CELLAR t) (max16 cellar t)).wr (Reg.PWR.TEMP.FLOOR t) (max16 floor t)).wr
          (Reg.PWR.TEMP.ATTIC t) (max16 attic t))
        { u with clk := { u.clk with sampledAt := u.clk.sampledAt.upd 0 3 u.now } }
      let v := (v.wr Reg.PWR.PORCHTEMP.PN (hottest porch 0 4)).wr Reg.PWR.PORCHTEMP.PS (hottest porch 4 4)
      let v := (List.range 8).foldl (fun (v : State) t =>
        ((v.highHeat t t 0 (max16 cellar t)).highHeat (8 + t) t 1 (max16 floor t)).highHeat (16 + t) t 2 (max16 attic t))
        v.heatSync
      (v.highHeat 24 srcPn 0 (hottest porch 0 4)).highHeat 25 srcPs 0 (hottest porch 4 4)
    let hot := hotSensors [cellar.take 128, floor.take 128, attic.take 128, porch.take 8]
    Machine.exec (.thermalSensorRead dt cellar floor attic porch) s = .next (s.after dt fun u =>
      let v := shown u
      let t := { v with pwr := { v.pwr with hot := hot.map Prod.fst } }
      match hot.find? fun h => v.pwr.hot.contains h.1 with
      | some h => if t.tripped then t else t.trip (sensorPlace h.1).1 (sensorPlace h.1).2 (min h.2 255)
      | none => t))
/-! ### Resets, firmware, debug -/

/-- Tier 1.  RESET, where nothing refuses it, replies, and its scope begins at once or, for a reply that the host has still to see,
after it; it comes to its end, with those that it includes, when what it started is ready.  Keeper boots the first slot of its plan that
loads, or runs the minimal image; the start-up of a tower that holds its test grants completes where the time clock reaches it, or times
out 387 ms after it began (that they count from the grants, and where the clock's absence stops a tower, are the model's readings,
assumption 127); a watchdog and a missed confirmation reset the device warm. -/
def Obligations.ResetsAndBoot : Prop :=
  (∀ (s : State) (dt : Nat) (h : CmdHdr) (ws : List Word),
    let v := (s.elapse dt).begun 0x0003 h ws
    let scope := fieldOf (ws.getD 0 0) 2 0
    let tower := fieldOf (ws.getD 0 0) 6 4
    let unit := if scope = 1 then tower else if scope = 2 then 64 * tower + fieldOf (ws.getD 0 0) 13 8
      else if scope = 5 then fieldOf (ws.getD 0 0) 16 16 else 0
    let bu := if scope = 1 then v.testBu tower else 0
    s.accepts dt h (decide (ws.length = 1)) false false = true →
    onlyBits ws 0 [(2, 0), (6, 4), (13, 8), (16, 16)] = true → scope ≤ 5 →
    (scope = 1 → v.engine = seRunning → v.towerInUse tower = false) →
    (scope = 2 → v.engine = seRunning → v.wingInUse unit = false) → (scope = 5 → v.stepping = false) →
    (scope ≠ 0 → v.power < 2 ∧ v.tripped = false) → (∀ j ∈ v.dev.resets, ¬ (j.scope = scope ∧ j.unit = unit)) →
    bu ≤ v.freeBu →
    let j : ResetJob := { scope := scope, unit := unit, bu := bu, begun := false, back := false }
    let taken := fun (c : Cmd) (u : State) =>
      let t := u.grantAlways 0x01 bu
      ({ t with dev := { t.dev with resets := t.dev.resets ++ [j] } }).ok c []
    (h.path = .ring → Machine.exec (.reset dt h ws) s = .next (s.afterCmd dt 0x0003 h ws taken)) ∧
    (h.path ≠ .ring → Machine.exec (.reset dt h ws) s = .next (s.afterCmd dt 0x0003 h ws fun c u => (taken c u).beginReset j))) ∧
  (∀ (s : State) (dt scope unit : Nat) (wires : List (Nat × Nat × Option Bool)) (j : ResetJob), s.inReset = false →
    s.dev.resets.find? (fun j => j.scope = scope ∧ j.unit = unit ∧ j.begun ∧ !j.back) = some j →
    (s.elapse dt).resetReady j = true → (∀ k ∈ s.dev.resets, k.begun = true → k.covers j = false) →
    Machine.exec (.resetComplete dt scope ⟨unit, wires⟩) s = .next (s.after dt fun u =>
      let ended := j :: u.dev.resets.filter fun k => k.begun && j.covers k
      let t := { u with dev := { u.dev with resets := u.dev.resets.map fun (k : ResetJob) =>
        { k with back := k.back || ended.contains k } } }
      (ended.foldl (fun (w : State) k => w.resetReturns k wires) t).resetsBack)) ∧
  (∀ (s : State) (dt : Nat), s.inReset = false → s.fw.romAt.isSome = true →
    let started := fun (u : State) => let t := u.bootWrites; { t with fw := { t.fw with romAt := none } }
    let slot := s.bootPlan.1.find? (started (s.elapse dt)).slotLoads
    (∀ k, slot = some k → Machine.exec (.keeperBoot dt) s = .next (s.after dt fun u =>
      let first := s.bootPlan.1.head? == some k
      (started u).runImage k (s.bootPlan.2.1 || (!first && (started u).fw.boots.isSome)) (s.bootPlan.2.2 && first))) ∧
    (slot = none → Machine.exec (.keeperBoot dt) s = .next (s.after dt fun u =>
      let t := started u
      let t := { t with hif := { t.hif with holding := false, heldEvents := [] } }
      let t := { t with fw := { t.fw with firstStart := false, trialFrom := none } }
      (((t.wr Reg.DEV.BOOT.IMAGE 0).wr Reg.HIF.QSTAT.IMAGE 0).linkTrain).fwSync))) ∧
  (∀ (s : State) (dt tower : Nat), s.inReset = false →
    (∀ began grant test, (tower, began, some grant) ∈ (s.elapse dt).admitTowers.dev.startup →
      (s.elapse dt).admitTowers.timeClockUp = true →
      Machine.exec (.towerStartupComplete dt tower test) s = .next (s.after dt fun u => u.admitTowers.towerTested tower test)) ∧
    (∀ began grant, (tower, began, some grant) ∈ s.dev.startup → began + 387 * fsMs ≤ s.now + dt →
      Machine.exec (.towerStartupTimeout dt tower) s = .next (s.after dt fun u => u.towerTimesOut tower))) ∧
  (∀ (s : State) (dt : Nat), s.inReset = false →
    let warm := fun (u : State) =>
      let kept := u.dev.resets.filter fun (k : ResetJob) => k.scope ≠ scWarm
      let j : ResetJob := { scope := scWarm, unit := 0, bu := 0, begun := true, back := false }
      ({ u with dev := { u.dev with resets := kept ++ [j] } }).warmReset 2
    (s.keeperDown = false → Machine.exec (.watchdogExpiry dt) s = .next (s.after dt warm)) ∧
    (∀ t, s.fw.trialFrom = some t → t + 30000 * fsMs ≤ s.now + dt →
      Machine.exec (.fwConfirmDeadline dt) s = .next (s.after dt warm)))

/-- Tier 1.  FW_STAGE_BEGIN invalidates the target slot and begins a staging, FW_STAGE_DATA adds to its body, and FW_STAGE_END checks
length, digest, signature and floor in that order before the slot is STAGED.  FW_ACTIVATE_AT waits at a cue, FW_CANCEL ends either;
the restart writes TRIAL, the first start takes the settings over or begins an empty store, the self-check confirms. -/
def Obligations.FirmwareUpdates : Prop :=
  (∀ (s : State) (dt : Nat) (h : CmdHdr) (ws : List Word),
    let v := (s.elapse dt).begun 0x0C02 h ws
    let p := wordBytes ws
    let full := byteField p 6 2 == 1
    s.accepts dt h (decide (ws.length = 16)) true true = true → v.lockPolicy 2 = false → badPackage p = false →
    (full = false → v.rdb Reg.DEV.BOOT.IMAGE = true ∧
      ∃ g, v.slotImg (v.rd Reg.DEV.BOOT.SLOT) = some g ∧ digestIs (slice p 16 48) (Config.sha384 g.bytes) = true) →
    v.stepping = false → v.supplyGood = true → v.fw.stage = none →
    Machine.exec (.fwStageBegin dt h ws) s = .next (s.afterCmd dt 0x0C02 h ws fun c u =>
      let t := u.setSlot u.fwTarget none
      let g := FwStage.mk full (byteField p 8 4) (byteField p 12 4) (BitVec.ofNat 384 (beNat (slice p 64 48))) [] []
      ({ t with fw := { t.fw with stores := t.fw.stores.set u.fwTarget .empty, stage := some g } }).fwSync.ok c [])) ∧
  (∀ (s : State) (dt : Nat) (h : CmdHdr) (ws : List Word) (g : FwStage),
    let v := (s.elapse dt).begun 0x0C03 h ws
    let base := ((v.slotImg (v.rd Reg.DEV.BOOT.SLOT)).map SlotImg.bytes).getD []
    let body := g.body ++ wordBytes (ws.drop 1)
    s.accepts dt h (decide (2 ≤ ws.length ∧ ws.length ≤ 8192)) true true = true → v.lockPolicy 2 = false →
    v.supplyGood = true → v.fw.stage = some g → onlyBits ws 0 [(31, 0)] = true → fieldOf (ws.getD 0 0) 31 0 = g.body.length →
    g.body.length + 8 * (ws.length - 1) ≤ g.bodyLen →
    ((g.build base body).2 = true → Machine.exec (.fwStageData dt h ws) s = .next (s.afterCmd dt 0x0C03 h ws fun c u =>
      u.fwFails c stBadParam 0)) ∧
    ((g.build base body).2 = false → Machine.exec (.fwStageData dt h ws) s = .next (s.afterCmd dt 0x0C03 h ws fun c u =>
      let g' := { g with body := body, built := (g.build base body).1 }
      ({ u with fw := { u.fw with stage := some g' } }).ok c []))) ∧
  (∀ (s : State) (dt : Nat) (h : CmdHdr) (ws : List Word) (g : FwStage),
    let v := (s.elapse dt).begun 0x0C04 h ws
    s.accepts dt h (decide (ws.length = 0)) true true = true → v.lockPolicy 2 = false → v.supplyGood = true →
    v.fw.stage = some g →
    let ends := Machine.exec (.fwStageEnd dt h ws) s
    let fails := fun (status detail : Nat) => ends = .next (s.afterCmd dt 0x0C04 h ws fun c u => u.fwFails c status detail)
    let whole := g.bodyLen ≤ g.body.length ∧ g.targetLen ≤ g.built.length
    (¬ whole → fails stTruncated 0) ∧
    (whole → Config.sha384 g.built ≠ g.digest → fails stAuth 2) ∧
    (whole → Config.sha384 g.built = g.digest →
      (imageSigned g.built = false → fails stAuth 3) ∧
      (imageSigned g.built = true → imageSecver g.built < v.fw.floor → fails stAuth 4) ∧
      (imageSigned g.built = true → v.fw.floor ≤ imageSecver g.built →
        ends = .next (s.afterCmd dt 0x0C04 h ws fun c u =>
          let t := u.setSlot u.fwTarget (some { bytes := g.built, staged := true })
          (({ t with fw := { t.fw with stage := none } }).fwSync.post 0x0C01 sevInfo srcDevice
            (u.fwTarget + imageVersion g.built * 2 ^ 32)).ok c [])))) ∧
  (∀ (s : State) (dt : Nat) (h : CmdHdr) (ws : List Word),
    let v := (s.elapse dt).begun 0x0C05 h ws
    let at_ := timeUnits (ws.getD 0 0).toNat (ws.getD 1 0).toNat
    let cue := fieldOf (ws.getD 2 0) 3 0
    s.accepts dt h (decide (ws.length = 3)) true true = true → onlyBits ws 0 [(47, 0)] = true →
    onlyBits ws 1 [(47, 0)] = true → onlyBits ws 2 [(3, 0)] = true → v.lockPolicy 2 = false → v.stepping = false →
    v.supplyGood = true → v.slotStaged v.fwTarget = true → v.fw.pending = none → v.fw.restart = none →
    (v.rdb Reg.DEV.BOOT.IMAGE = true → timeBad (ws.getD 0 0).toNat = false → v.time.out + 10000000 * 2 ^ 32 ≤ at_ * 65536 →
      at_ * 65536 ≤ v.time.out + 1000 * unitsPerSec → v.cueFree cue fnFwact = true →
      Machine.exec (.fwActivateAt dt h ws) s = .next (s.afterCmd dt 0x0C05 h ws fun c u =>
        ((({ u with fw := { u.fw with pending := some cue } }).claimCue cue fnFwact).armCue cue at_ 0).ok c [])) ∧
    (v.rdb Reg.DEV.BOOT.IMAGE = false →
      Machine.exec (.fwActivateAt dt h ws) s = .next (s.afterCmd dt 0x0C05 h ws fun c u =>
        ({ u with fw := { u.fw with restart := some (u.now + 10 * fsMs) } }).ok c []))) ∧
  (∀ (s : State) (dt : Nat) (h : CmdHdr) (ws : List Word), s.accepts dt h (decide (ws.length = 1)) true true = true →
    onlyBits ws 0 [(0, 0)] = true →
    (flagOf (ws.getD 0 0) 0 = true → (s.fw.pending.isSome = true ∨ s.fw.restart.isSome = true) →
      Machine.exec (.fwCancel dt h ws) s = .next (s.afterCmd dt 0x0C06 h ws fun c u =>
        let t := u.fwRelease
        ({ t with fw := { t.fw with restart := none } }).ok c [])) ∧
    (flagOf (ws.getD 0 0) 0 = false → s.fw.stage.isSome = true →
      Machine.exec (.fwCancel dt h ws) s = .next (s.afterCmd dt 0x0C06 h ws fun c u =>
        ({ u with fw := { u.fw with stage := none } }).fwSync.ok c []))) ∧
  (∀ (s : State) (dt t : Nat) (g : SlotImg), s.inReset = false → s.fw.restart = some t → t ≤ s.now + dt →
    (s.hif.running = [] ∨ t + 100 * fsMs ≤ s.now + dt) →
    (s.elapse dt).abortCommands.fwRelease.slotImg s.fwTarget = some g →
    Machine.exec (.fwRestart dt) s = .next (s.after dt fun u =>
      let image := u.rdb Reg.DEV.BOOT.IMAGE
      let k := u.fwTarget
      let x := u.abortCommands.fwRelease
      let x := x.writeBoot k (if image then x.rd Reg.DEV.BOOT.SLOT else k) 1
      let x := x.setSlot k (some { g with staged := false })
      let f := { x.fw with restart := none, romAt := some x.now, trialFrom := some t }
      ({ x with
        hif := { x.hif with holding := image }
        fw := { f with routersBefore := x.rd Reg.NOC.STAT.INSERVICE } }).fwSync)) ∧
  (∀ (s : State) (dt t : Nat), s.inReset = false → s.fw.restart = some t → t ≤ s.now + dt →
    (s.hif.running = [] ∨ t + 100 * fsMs ≤ s.now + dt) → (s.elapse dt).abortCommands.fwRelease.slotImg s.fwTarget = none →
    Machine.exec (.fwRestart dt) s = .next (s.after dt fun u =>
      let x := u.abortCommands.fwRelease
      { x with fw := { x.fw with restart := none } })) ∧
  (∀ (s : State) (dt : Nat) (crcOk : Bool), s.inReset = false → s.fw.firstStart = true → s.fw.romAt = none →
    s.rdb Reg.DEV.BOOT.IMAGE = true →
    let k := s.rd Reg.DEV.BOOT.SLOT
    let own := imageSetver (((s.slotImg k).map SlotImg.bytes).getD [])
    let prev := (s.fw.boots.map fun r => r.2.prev).getD k
    let old := s.fw.stores.getD prev .empty
    let base := if crcOk = true ∧ prev ≠ k ∧ old.setver ≤ own then old else Store.empty
    ∃ t w, Machine.exec (.fwFirstStart dt crcOk) s = .next t ∧ t.fw.firstStart = false ∧
      (s.flashOk = false → t.fw.stores = s.fw.stores) ∧
      (s.flashOk = true → t.fw.stores = s.fw.stores.set k { base with
        setver := own, history := (base.history ++ [w]).drop (base.history.length - 15), starts := base.starts + 1 })) ∧
  (∀ (s : State) (dt t : Nat), s.inReset = false → s.fw.trialFrom = some t → s.now + dt < t + 30000 * fsMs →
    s.selfChecks = true → s.fw.romAt = none → s.rdb Reg.DEV.BOOT.IMAGE = true → s.flashOk = true →
    Machine.exec (.fwSelfCheckPass dt) s = .next (s.after dt fun u =>
      let k := u.rd Reg.DEV.BOOT.SLOT
      let img := ((u.slotImg k).map SlotImg.bytes).getD []
      let x := u.writeBoot k ((u.fw.boots.map fun r => r.2.prev).getD k) 0
      let f := { x.fw with floor := max x.fw.floor (min 32 (imageSecver img)), trialFrom := none }
      ({ x with fw := f }).post 0x0C04 sevInfo srcDevice (k + imageVersion img * 2 ^ 32)))

/-- Tier 1.  PROBE_ROUTE selects, releases or lists taps; TRACE_SETUP arms a trace on its storage, stops it or releases it;
TEST_UNLOCK gives a challenge, unlocks where the response is right and ends the unlock; PERTURB sets or ends a perturbation.  A
challenge expires after 1 s. -/
def Obligations.DebugCommandsAct : Prop :=
  (∀ (s : State) (dt : Nat) (h : CmdHdr) (ws : List Word),
    let v := (s.elapse dt).begun 0x0D01 h ws
    let op := fieldOf (ws.getD 0 0) 1 0
    let wing := fieldOf (ws.getD 0 0) 6 4 * 64 + fieldOf (ws.getD 0 0) 13 8
    let named := fieldOf (ws.getD 0 0) 20 14
    let mine := v.dbg.taps.filter fun t => t.wing = wing
    let chosen := if named = 127 then
        (firstFree 64 fun n => !(mine.any fun t => t.tap = n) && !v.tapTraced wing n) else some named
    s.accepts dt h (decide (ws.length = 1)) false false = true → onlyBits ws 0 [(53, 0)] = true →
    (op = 2 → Machine.exec (.probeRoute dt h ws) s = .next (s.afterCmd dt 0x0D01 h ws fun c u =>
      u.ok c ((List.range 64).map fun n => ((mine.find? fun x => x.tap = n).map Tap.word).getD 0))) ∧
    (op = 1 → named ≤ 63 → v.tapTraced wing named = false →
      Machine.exec (.probeRoute dt h ws) s = .next (s.afterCmd dt 0x0D01 h ws fun c u =>
        ((match mine.find? fun (x : Tap) => x.tap = named with
          | some x => u.dropTap x
          | none => u).ok c []))) ∧
    (∀ n, op = 0 → chosen = some n → n ≤ 63 → v.tapTraced wing n = false →
      let t := tapOf (s.cmdOf 0x0D01 h ws) n
      let others := v.dbg.taps.filter fun x => !(x.wing = wing ∧ x.tap = n)
      t.output ≤ 4 → t.dest ≠ 3 → (t.dest = 1 → t.pin ≤ 31) → (t.dest = 2 → t.pin ≤ 47) →
      (t.pinKey.isSome = true → ∀ x ∈ others, x.pinKey ≠ t.pinKey) →
      (t.dest = 2 → (others.filter fun x => x.dest = 2).length < 96 ∧ v.pinNamed t.bank t.pin = false) →
      (t.dest = 0 ∨ v.anyRoute = true ∨ 2 ≤ v.freeBu) →
      Machine.exec (.probeRoute dt h ws) s = .next (s.afterCmd dt 0x0D01 h ws fun c u =>
        ((match mine.find? fun (x : Tap) => x.tap = n with
          | some x => u.dropTap x
          | none => u).setTap t).answer c stOk n []))) ∧
  (∀ (s : State) (dt : Nat) (h : CmdHdr) (ws : List Word),
    let v := (s.elapse dt).begun 0x0D02 h ws
    let op := fieldOf (ws.getD 0 0) 1 0
    let g6 := flagOf (ws.getD 0 0) 2
    let t := traceOf (s.cmdOf 0x0D02 h ws) g6
    s.accepts dt h (traceSetupLen ws) false false = true → onlyBits ws 0 [(6, 0), (12, 8), (20, 16), (28, 24)] = true →
    (op = 1 → Machine.exec (.traceSetup dt h ws) s = .next (s.afterCmd dt 0x0D02 h ws fun c u => u.traceDone.ok c [])) ∧
    (op = 2 → Machine.exec (.traceSetup dt h ws) s = .next (s.afterCmd dt 0x0D02 h ws fun c u => u.traceRelease.ok c [])) ∧
    (op = 0 → onlyBits ws 1 [(31, 0)] = true → onlyBits ws 3 [(20, 0)] = true → onlyBits ws 4 [(20, 0)] = true →
      (g6 = true → ∀ i < 7, onlyBits ws (6 + i) [] = true ∧ onlyBits ws (14 + i) [(2, 0), (13, 8), (16, 16)] = true) →
      (g6 = true → v.traceRelease.allocRefusal t.base t.size = none) →
      (g6 = false → t.bfirst ≤ t.blast ∧ t.blast ≤ 23 ∧ t.qual = false ∧
        ∀ n ∈ t.blocks, v.attic.isRetired (n / 24) (n % 24) = false ∧ ∀ o ∈ v.traceRelease.attic.owner, o.1 ≠ n) →
      (t.trigsel = 1 → v.cueFunc t.cue = fnTrace) → (t.trigsel = 3 → fieldOf (ws.getD 3 0) 20 14 ≤ 63) →
      (t.qual = true → fieldOf (ws.getD 4 0) 20 14 ≤ 63) → traceBu g6 t.wings.length ≤ v.traceRelease.freeBu →
      Machine.exec (.traceSetup dt h ws) s = .next (s.afterCmd dt 0x0D02 h ws fun c u =>
        let x := u.traceRelease.grantAlways 0x13 (traceBu g6 t.wings.length)
        let x := if g6 then x.allocRegion t.base t.size .trace
          else { x with attic := { x.attic with owner := x.attic.owner ++ t.blocks.map fun n => (n, Owner.trace) } }
        let x := ((x.wr Reg.DBG.TRSTAT.STATE trArmed).wrb Reg.DBG.TRSTAT.MODE g6).wrb Reg.DBG.TRSTAT.POLICY
          (flagOf (ws.getD 0 0) 3)
        (x.traceSync t).ok c []))) ∧
  (∀ (s : State) (dt : Nat) (h : CmdHdr) (ws : List Word),
    let v := (s.elapse dt).begun 0x0D11 h ws
    let op := fieldOf (ws.getD 0 0) 1 0
    s.accepts dt h (testUnlockLen ws) false false = true → v.lockPolicy 3 = false → onlyBits ws 0 [(1, 0)] = true →
    (op = 1 → onlyBits ws 1 [(31, 0)] = true) →
    let right := ∃ ch t, v.dbg.challenge = some (ch, t) ∧ v.now ≤ t + 1000 * fsMs ∧
      fieldOf (ws.getD 1 0) 31 0 + ch.toNat = 2 ^ 32 - 1
    let ended := fun (u : State) => { u with dbg := { u.dbg with challenge := none } }
    (op = 0 → onlyBits ws 1 [] = true → ∃ ch : Half,
      Machine.exec (.testUnlock dt h ws) s = .next (s.afterCmd dt 0x0D11 h ws fun c u =>
        ({ u with free := u.free + 1, dbg := { u.dbg with challenge := some (ch, u.now) } }).answer c stOk ch.toNat [])) ∧
    (op = 1 → ¬ right → Machine.exec (.testUnlock dt h ws) s = .next (s.afterCmd dt 0x0D11 h ws fun c u =>
      (ended u).answer c stAuth 0 [])) ∧
    (op = 1 → right → v.rdb Reg.PERT.STAT.UNLOCKED = true →
      Machine.exec (.testUnlock dt h ws) s = .next (s.afterCmd dt 0x0D11 h ws fun c u => (ended u).ok c [])) ∧
    (op = 1 → right → v.rdb Reg.PERT.STAT.UNLOCKED = false →
      Machine.exec (.testUnlock dt h ws) s = .next (s.afterCmd dt 0x0D11 h ws fun c u =>
        (((ended u).wr Reg.PERT.STAT.UNLOCKED 1).post 0x0D04 sevWarn srcDevice 1).ok c [])) ∧
    (op = 2 → onlyBits ws 1 [] = true →
      Machine.exec (.testUnlock dt h ws) s = .next (s.afterCmd dt 0x0D11 h ws fun c u => u.unlockEnds.ok c []))) ∧
  (∀ (s : State) (dt : Nat) (h : CmdHdr) (ws : List Word),
    let v := (s.elapse dt).begun 0x0D10 h ws
    let slot := fieldOf (ws.getD 0 0) 20 16
    let kind := fieldOf (ws.getD 0 0) 7 0
    s.accepts dt h (perturbLen ws) false false = true → v.rdb Reg.PERT.STAT.UNLOCKED = true →
    (flagOf (ws.getD 0 0) 8 = true → onlyBits ws 0 [(8, 0), (20, 16)] = true → (∃ q ∈ v.dbg.perts, q.slot = slot) →
      Machine.exec (.perturb dt h ws) s = .next (s.afterCmd dt 0x0D10 h ws fun c u =>
        let perts := u.dbg.perts.map fun (q : Pert) => if q.slot = slot then { q with ending := true } else q
        ({ u with dbg := { u.dbg with perts := perts } }).pertNow.answer c stOk slot [])) ∧
    (flagOf (ws.getD 0 0) 8 = false → pertBad (s.cmdOf 0x0D10 h ws) v.g6Cap = false → (kind = 7 → v.g6Ecc = true) →
      let p := Pert.mk 0 kind (ws.getD 1 0) (ws.getD 2 0) (ws.getD 3 0) false false
      let same := v.dbg.perts.find? fun q => q.kind = kind ∧ q.target = p.target
      ∀ n, (same.map Pert.slot = some n ∨
          (same = none ∧ firstFree 32 (fun i => !v.dbg.perts.any fun q => q.slot = i) = some n)) →
        Machine.exec (.perturb dt h ws) s = .next (s.afterCmd dt 0x0D10 h ws fun c u =>
          let x := match same with
            | some q => if q.kind = 8 ∧ q.acts = true then u.unforceClock (fieldOf q.w1 7 0) else u
            | none => u
          let perts := x.dbg.perts.filter (fun (q : Pert) => q.slot ≠ n) ++ [{ p with slot := n }]
          let x := { x with dbg := { x.dbg with perts := perts } }
          ((x.pertShow { p with slot := n }).post 0x0D05 sevWarn srcDevice (n + kind * 2 ^ 8)).pertNow.answer c stOk n []))) ∧
  (∀ (s : State) (dt t : Nat) (ch : Half), s.inReset = false → s.dbg.challenge = some (ch, t) →
    t + 1000 * fsMs ≤ s.now + dt →
    Machine.exec (.challengeExpiry dt) s = .next (s.after dt fun u => { u with dbg := { u.dbg with challenge := none } }))
end

