-- ==== Sys2Proof/Laws/Cells.lean ====
section
/-! SUPPORT. Laws of the sparse stores: a read after a write, and that every operation keeps the canonical form. -/

namespace Sys2Proof.Machine

variable {V : Type}

theorem Cells.get_drop_self (d : Nat → V) (m : Cells V) (a : Nat) : Cells.get d (Cells.drop m a) a = d a := by
  induction m with
  | nil => rfl
  | cons kv m ih =>
    by_cases h : kv.1 = a
    · simpa [Cells.drop, h] using ih
    · simpa [Cells.drop, h, Cells.get, Ne.symm h] using ih

theorem Cells.get_drop_of_ne (d : Nat → V) (m : Cells V) {a b : Nat} (h : b ≠ a) :
    Cells.get d (Cells.drop m a) b = Cells.get d m b := by
  induction m with
  | nil => rfl
  | cons kv m ih =>
    by_cases hk : kv.1 = a
    · have hb : b ≠ kv.1 := fun e => h (e.trans hk)
      simpa [Cells.drop, hk, Cells.get, h] using ih
    · simp [Cells.drop, hk, Cells.get, ih]

theorem Cells.drop_keys (m : Cells V) (a : Nat) : ∀ kv ∈ Cells.drop m a, kv.1 ≠ a := by
  induction m with
  | nil => simp [Cells.drop]
  | cons kv m ih =>
    by_cases h : kv.1 = a
    · simpa [Cells.drop, h] using ih
    · simpa [Cells.drop, h] using ih

theorem Cells.get_put_self (d : Nat → V) (m : Cells V) (a : Nat) (v : V) (h : ∀ kv ∈ m, kv.1 ≠ a) :
    Cells.get d (Cells.put m a v) a = v := by
  induction m with
  | nil => simp [Cells.put, Cells.get]
  | cons kv m ih =>
    have hk : a ≠ kv.1 := Ne.symm (h kv (by simp))
    by_cases hlt : a < kv.1
    · simp [Cells.put, hlt, Cells.get]
    · simpa [Cells.put, hlt, Cells.get, hk] using ih fun x hx => h x (by simp [hx])

theorem Cells.get_put_of_ne (d : Nat → V) (m : Cells V) {a b : Nat} (v : V) (h : b ≠ a) :
    Cells.get d (Cells.put m a v) b = Cells.get d m b := by
  induction m with
  | nil => simp [Cells.put, Cells.get, h]
  | cons kv m ih =>
    by_cases hlt : a < kv.1
    · simp [Cells.put, hlt, Cells.get, h]
    · simp [Cells.put, hlt, Cells.get, ih]

/-- A read of the key that was written gives the value written. -/
@[simp] theorem Cells.get_set_self [DecidableEq V] (d : Nat → V) (m : Cells V) (a : Nat) (v : V) :
    Cells.get d (Cells.set d m a v) a = v := by
  unfold Cells.set
  split
  · next h => rw [Cells.get_drop_self, h]
  · exact Cells.get_put_self d _ a v (Cells.drop_keys m a)

/-- A write leaves every other key as it was. -/
theorem Cells.get_set_of_ne [DecidableEq V] (d : Nat → V) (m : Cells V) {a b : Nat} (v : V) (h : b ≠ a) :
    Cells.get d (Cells.set d m a v) b = Cells.get d m b := by
  unfold Cells.set
  split
  · exact Cells.get_drop_of_ne d m h
  · rw [Cells.get_put_of_ne d _ v h, Cells.get_drop_of_ne d m h]

/-! ### The canonical form -/

theorem Cells.above_of_wf [DecidableEq V] {d : Nat → V} {m : Cells V} (h : Cells.wf d m = true) {b : Nat}
    (hb : Cells.above b m = true) : ∀ kv ∈ m, b < kv.1 := by
  induction m generalizing b with
  | nil => simp
  | cons kv m ih =>
    simp only [Cells.wf, Cells.above, Bool.and_eq_true, decide_eq_true_eq] at h hb
    intro x hx
    rcases List.mem_cons.mp hx with rfl | hx
    · exact hb
    · exact lt_trans hb (ih h.2 h.1.2 x hx)

theorem Cells.above_of_mem {m : Cells V} {b : Nat} (h : ∀ kv ∈ m, b < kv.1) : Cells.above b m = true := by
  cases m with
  | nil => rfl
  | cons kv m => simpa [Cells.above] using h kv (by simp)

theorem Cells.mem_drop {m : Cells V} {a : Nat} {kv : Nat × V} (h : kv ∈ Cells.drop m a) : kv ∈ m := by
  induction m with
  | nil => simp [Cells.drop] at h
  | cons x m ih =>
    by_cases hx : x.1 = a
    · simp only [Cells.drop, hx, if_true] at h
      exact List.mem_cons_of_mem _ (ih h)
    · simp only [Cells.drop, hx, if_false, List.mem_cons] at h
      rcases h with rfl | h
      · simp
      · exact List.mem_cons_of_mem _ (ih h)

theorem Cells.mem_put {m : Cells V} {a : Nat} {v : V} {kv : Nat × V} (h : kv ∈ Cells.put m a v) :
    kv = (a, v) ∨ kv ∈ m := by
  induction m with
  | nil => simpa [Cells.put] using h
  | cons x m ih =>
    by_cases hx : a < x.1
    · simpa [Cells.put, hx] using h
    · simp only [Cells.put, hx, if_false, List.mem_cons] at h
      rcases h with rfl | h
      · simp
      · rcases ih h with h | h <;> simp [h]

theorem Cells.wf_drop [DecidableEq V] {d : Nat → V} {m : Cells V} (a : Nat) (h : Cells.wf d m = true) :
    Cells.wf d (Cells.drop m a) = true := by
  induction m with
  | nil => rfl
  | cons kv m ih =>
    simp only [Cells.wf, Bool.and_eq_true, decide_eq_true_eq] at h
    by_cases hk : kv.1 = a
    · simpa [Cells.drop, hk] using ih h.2
    · have hab : Cells.above kv.1 (Cells.drop m a) = true :=
        Cells.above_of_mem fun x hx => Cells.above_of_wf h.2 h.1.2 x (Cells.mem_drop hx)
      simp [Cells.drop, hk, Cells.wf, h.1.1, hab, ih h.2]

theorem Cells.wf_put [DecidableEq V] {d : Nat → V} {m : Cells V} {a : Nat} {v : V} (h : Cells.wf d m = true)
    (hv : v ≠ d a) (hm : ∀ kv ∈ m, kv.1 ≠ a) : Cells.wf d (Cells.put m a v) = true := by
  induction m with
  | nil => simp [Cells.put, Cells.wf, Cells.above, hv]
  | cons kv m ih =>
    have hw := h
    simp only [Cells.wf, Bool.and_eq_true, decide_eq_true_eq] at h
    by_cases hlt : a < kv.1
    · have ha : Cells.above a (kv :: m) = true := by simpa [Cells.above] using hlt
      rw [Cells.put, if_pos hlt, Cells.wf, ha, hw]
      simp [hv]
    · have hka : kv.1 < a := by have := hm kv (by simp); omega
      have hab : Cells.above kv.1 (Cells.put m a v) = true := by
        refine Cells.above_of_mem fun x hx => ?_
        rcases Cells.mem_put hx with rfl | hx
        · exact hka
        · exact Cells.above_of_wf h.2 h.1.2 x hx
      simp [Cells.put, hlt, Cells.wf, h.1.1, hab, ih h.2 fun x hx => hm x (by simp [hx])]

/-- A write keeps the canonical form. -/
theorem Cells.wf_set [DecidableEq V] {d : Nat → V} {m : Cells V} (a : Nat) (v : V) (h : Cells.wf d m = true) :
    Cells.wf d (Cells.set d m a v) = true := by
  unfold Cells.set
  split
  · exact Cells.wf_drop a h
  · next hv => exact Cells.wf_put (Cells.wf_drop a h) hv (Cells.drop_keys m a)

/-- Entries taken out keep the canonical form. -/
theorem Cells.wf_filter [DecidableEq V] {d : Nat → V} {m : Cells V} (p : Nat × V → Bool) (h : Cells.wf d m = true) :
    Cells.wf d (m.filter p) = true := by
  induction m with
  | nil => rfl
  | cons kv m ih =>
    simp only [Cells.wf, Bool.and_eq_true, decide_eq_true_eq] at h
    by_cases hp : p kv = true
    · have hab : Cells.above kv.1 (m.filter p) = true :=
        Cells.above_of_mem fun x hx => Cells.above_of_wf h.2 h.1.2 x (List.mem_of_mem_filter hx)
      simp only [List.filter_cons, hp, if_true, Cells.wf, hab, ih h.2, Bool.and_true, decide_eq_true_eq]
      exact h.1.1
    · simpa [List.filter_cons, hp] using ih h.2

end Sys2Proof.Machine
end

