-- ==== Sys2Proof/Laws/State.lean ====
section
/-! SUPPORT. The small operations on the state, field by field: what a register write, a message sent, a change of the current
ledger and the passing of time leave as it was.  Every lemma holds by unfolding once; later proofs rewrite with them. -/

namespace Sys2Proof.Machine

variable (s : State)

/-! ### `State.store` -/

@[simp] theorem State.store_now (a : Nat) (w : Word) : (s.store a w).now = s.now := rfl
@[simp] theorem State.store_free (a : Nat) (w : Word) : (s.store a w).free = s.free := rfl
@[simp] theorem State.store_inReset (a : Nat) (w : Word) : (s.store a w).inReset = s.inReset := rfl
@[simp] theorem State.store_out (a : Nat) (w : Word) : (s.store a w).out = s.out := rfl
@[simp] theorem State.store_hif (a : Nat) (w : Word) : (s.store a w).hif = s.hif := rfl
@[simp] theorem State.store_step (a : Nat) (w : Word) : (s.store a w).step = s.step := rfl
@[simp] theorem State.store_fab (a : Nat) (w : Word) : (s.store a w).fab = s.fab := rfl
@[simp] theorem State.store_cfg (a : Nat) (w : Word) : (s.store a w).cfg = s.cfg := rfl
@[simp] theorem State.store_attic (a : Nat) (w : Word) : (s.store a w).attic = s.attic := rfl
@[simp] theorem State.store_corr (a : Nat) (w : Word) : (s.store a w).corr = s.corr := rfl
@[simp] theorem State.store_noc (a : Nat) (w : Word) : (s.store a w).noc = s.noc := rfl
@[simp] theorem State.store_g6 (a : Nat) (w : Word) : (s.store a w).g6 = s.g6 := rfl
@[simp] theorem State.store_crypt (a : Nat) (w : Word) : (s.store a w).crypt = s.crypt := rfl
@[simp] theorem State.store_groups (a : Nat) (w : Word) : (s.store a w).groups = s.groups := rfl
@[simp] theorem State.store_time (a : Nat) (w : Word) : (s.store a w).time = s.time := rfl
@[simp] theorem State.store_ledger (a : Nat) (w : Word) : (s.store a w).ledger = s.ledger := rfl
@[simp] theorem State.store_clk (a : Nat) (w : Word) : (s.store a w).clk = s.clk := rfl
@[simp] theorem State.store_pwr (a : Nat) (w : Word) : (s.store a w).pwr = s.pwr := rfl
@[simp] theorem State.store_fw (a : Nat) (w : Word) : (s.store a w).fw = s.fw := rfl
@[simp] theorem State.store_dev (a : Nat) (w : Word) : (s.store a w).dev = s.dev := rfl
@[simp] theorem State.store_dbg (a : Nat) (w : Word) : (s.store a w).dbg = s.dbg := rfl
@[simp] theorem State.store_pins (a : Nat) (w : Word) : (s.store a w).pins = s.pins := rfl
@[simp] theorem State.store_pending (a : Nat) (w : Word) : (s.store a w).pending = s.pending := rfl

/-! ### `State.wr` -/

@[simp] theorem State.wr_now (f : Field) (v : Nat) : (s.wr f v).now = s.now := rfl
@[simp] theorem State.wr_free (f : Field) (v : Nat) : (s.wr f v).free = s.free := rfl
@[simp] theorem State.wr_inReset (f : Field) (v : Nat) : (s.wr f v).inReset = s.inReset := rfl
@[simp] theorem State.wr_out (f : Field) (v : Nat) : (s.wr f v).out = s.out := rfl
@[simp] theorem State.wr_hif (f : Field) (v : Nat) : (s.wr f v).hif = s.hif := rfl
@[simp] theorem State.wr_step (f : Field) (v : Nat) : (s.wr f v).step = s.step := rfl
@[simp] theorem State.wr_fab (f : Field) (v : Nat) : (s.wr f v).fab = s.fab := rfl
@[simp] theorem State.wr_cfg (f : Field) (v : Nat) : (s.wr f v).cfg = s.cfg := rfl
@[simp] theorem State.wr_attic (f : Field) (v : Nat) : (s.wr f v).attic = s.attic := rfl
@[simp] theorem State.wr_corr (f : Field) (v : Nat) : (s.wr f v).corr = s.corr := rfl
@[simp] theorem State.wr_noc (f : Field) (v : Nat) : (s.wr f v).noc = s.noc := rfl
@[simp] theorem State.wr_g6 (f : Field) (v : Nat) : (s.wr f v).g6 = s.g6 := rfl
@[simp] theorem State.wr_crypt (f : Field) (v : Nat) : (s.wr f v).crypt = s.crypt := rfl
@[simp] theorem State.wr_groups (f : Field) (v : Nat) : (s.wr f v).groups = s.groups := rfl
@[simp] theorem State.wr_time (f : Field) (v : Nat) : (s.wr f v).time = s.time := rfl
@[simp] theorem State.wr_ledger (f : Field) (v : Nat) : (s.wr f v).ledger = s.ledger := rfl
@[simp] theorem State.wr_clk (f : Field) (v : Nat) : (s.wr f v).clk = s.clk := rfl
@[simp] theorem State.wr_pwr (f : Field) (v : Nat) : (s.wr f v).pwr = s.pwr := rfl
@[simp] theorem State.wr_fw (f : Field) (v : Nat) : (s.wr f v).fw = s.fw := rfl
@[simp] theorem State.wr_dev (f : Field) (v : Nat) : (s.wr f v).dev = s.dev := rfl
@[simp] theorem State.wr_dbg (f : Field) (v : Nat) : (s.wr f v).dbg = s.dbg := rfl
@[simp] theorem State.wr_pins (f : Field) (v : Nat) : (s.wr f v).pins = s.pins := rfl
@[simp] theorem State.wr_pending (f : Field) (v : Nat) : (s.wr f v).pending = s.pending := rfl

/-! ### `State.wrb` -/

@[simp] theorem State.wrb_now (f : Field) (b : Bool) : (s.wrb f b).now = s.now := rfl
@[simp] theorem State.wrb_free (f : Field) (b : Bool) : (s.wrb f b).free = s.free := rfl
@[simp] theorem State.wrb_inReset (f : Field) (b : Bool) : (s.wrb f b).inReset = s.inReset := rfl
@[simp] theorem State.wrb_out (f : Field) (b : Bool) : (s.wrb f b).out = s.out := rfl
@[simp] theorem State.wrb_hif (f : Field) (b : Bool) : (s.wrb f b).hif = s.hif := rfl
@[simp] theorem State.wrb_step (f : Field) (b : Bool) : (s.wrb f b).step = s.step := rfl
@[simp] theorem State.wrb_fab (f : Field) (b : Bool) : (s.wrb f b).fab = s.fab := rfl
@[simp] theorem State.wrb_cfg (f : Field) (b : Bool) : (s.wrb f b).cfg = s.cfg := rfl
@[simp] theorem State.wrb_attic (f : Field) (b : Bool) : (s.wrb f b).attic = s.attic := rfl
@[simp] theorem State.wrb_corr (f : Field) (b : Bool) : (s.wrb f b).corr = s.corr := rfl
@[simp] theorem State.wrb_noc (f : Field) (b : Bool) : (s.wrb f b).noc = s.noc := rfl
@[simp] theorem State.wrb_g6 (f : Field) (b : Bool) : (s.wrb f b).g6 = s.g6 := rfl
@[simp] theorem State.wrb_crypt (f : Field) (b : Bool) : (s.wrb f b).crypt = s.crypt := rfl
@[simp] theorem State.wrb_groups (f : Field) (b : Bool) : (s.wrb f b).groups = s.groups := rfl
@[simp] theorem State.wrb_time (f : Field) (b : Bool) : (s.wrb f b).time = s.time := rfl
@[simp] theorem State.wrb_ledger (f : Field) (b : Bool) : (s.wrb f b).ledger = s.ledger := rfl
@[simp] theorem State.wrb_clk (f : Field) (b : Bool) : (s.wrb f b).clk = s.clk := rfl
@[simp] theorem State.wrb_pwr (f : Field) (b : Bool) : (s.wrb f b).pwr = s.pwr := rfl
@[simp] theorem State.wrb_fw (f : Field) (b : Bool) : (s.wrb f b).fw = s.fw := rfl
@[simp] theorem State.wrb_dev (f : Field) (b : Bool) : (s.wrb f b).dev = s.dev := rfl
@[simp] theorem State.wrb_dbg (f : Field) (b : Bool) : (s.wrb f b).dbg = s.dbg := rfl
@[simp] theorem State.wrb_pins (f : Field) (b : Bool) : (s.wrb f b).pins = s.pins := rfl
@[simp] theorem State.wrb_pending (f : Field) (b : Bool) : (s.wrb f b).pending = s.pending := rfl

/-! ### `State.count` -/

@[simp] theorem State.count_now (f : Field) (n : Nat) : (s.count f n).now = s.now := rfl
@[simp] theorem State.count_free (f : Field) (n : Nat) : (s.count f n).free = s.free := rfl
@[simp] theorem State.count_inReset (f : Field) (n : Nat) : (s.count f n).inReset = s.inReset := rfl
@[simp] theorem State.count_out (f : Field) (n : Nat) : (s.count f n).out = s.out := rfl
@[simp] theorem State.count_hif (f : Field) (n : Nat) : (s.count f n).hif = s.hif := rfl
@[simp] theorem State.count_step (f : Field) (n : Nat) : (s.count f n).step = s.step := rfl
@[simp] theorem State.count_fab (f : Field) (n : Nat) : (s.count f n).fab = s.fab := rfl
@[simp] theorem State.count_cfg (f : Field) (n : Nat) : (s.count f n).cfg = s.cfg := rfl
@[simp] theorem State.count_attic (f : Field) (n : Nat) : (s.count f n).attic = s.attic := rfl
@[simp] theorem State.count_corr (f : Field) (n : Nat) : (s.count f n).corr = s.corr := rfl
@[simp] theorem State.count_noc (f : Field) (n : Nat) : (s.count f n).noc = s.noc := rfl
@[simp] theorem State.count_g6 (f : Field) (n : Nat) : (s.count f n).g6 = s.g6 := rfl
@[simp] theorem State.count_crypt (f : Field) (n : Nat) : (s.count f n).crypt = s.crypt := rfl
@[simp] theorem State.count_groups (f : Field) (n : Nat) : (s.count f n).groups = s.groups := rfl
@[simp] theorem State.count_time (f : Field) (n : Nat) : (s.count f n).time = s.time := rfl
@[simp] theorem State.count_ledger (f : Field) (n : Nat) : (s.count f n).ledger = s.ledger := rfl
@[simp] theorem State.count_clk (f : Field) (n : Nat) : (s.count f n).clk = s.clk := rfl
@[simp] theorem State.count_pwr (f : Field) (n : Nat) : (s.count f n).pwr = s.pwr := rfl
@[simp] theorem State.count_fw (f : Field) (n : Nat) : (s.count f n).fw = s.fw := rfl
@[simp] theorem State.count_dev (f : Field) (n : Nat) : (s.count f n).dev = s.dev := rfl
@[simp] theorem State.count_dbg (f : Field) (n : Nat) : (s.count f n).dbg = s.dbg := rfl
@[simp] theorem State.count_pins (f : Field) (n : Nat) : (s.count f n).pins = s.pins := rfl
@[simp] theorem State.count_pending (f : Field) (n : Nat) : (s.count f n).pending = s.pending := rfl

/-! ### `State.raise` -/

@[simp] theorem State.raise_now (f : Field) (v : Nat) : (s.raise f v).now = s.now := rfl
@[simp] theorem State.raise_free (f : Field) (v : Nat) : (s.raise f v).free = s.free := rfl
@[simp] theorem State.raise_inReset (f : Field) (v : Nat) : (s.raise f v).inReset = s.inReset := rfl
@[simp] theorem State.raise_out (f : Field) (v : Nat) : (s.raise f v).out = s.out := rfl
@[simp] theorem State.raise_hif (f : Field) (v : Nat) : (s.raise f v).hif = s.hif := rfl
@[simp] theorem State.raise_step (f : Field) (v : Nat) : (s.raise f v).step = s.step := rfl
@[simp] theorem State.raise_fab (f : Field) (v : Nat) : (s.raise f v).fab = s.fab := rfl
@[simp] theorem State.raise_cfg (f : Field) (v : Nat) : (s.raise f v).cfg = s.cfg := rfl
@[simp] theorem State.raise_attic (f : Field) (v : Nat) : (s.raise f v).attic = s.attic := rfl
@[simp] theorem State.raise_corr (f : Field) (v : Nat) : (s.raise f v).corr = s.corr := rfl
@[simp] theorem State.raise_noc (f : Field) (v : Nat) : (s.raise f v).noc = s.noc := rfl
@[simp] theorem State.raise_g6 (f : Field) (v : Nat) : (s.raise f v).g6 = s.g6 := rfl
@[simp] theorem State.raise_crypt (f : Field) (v : Nat) : (s.raise f v).crypt = s.crypt := rfl
@[simp] theorem State.raise_groups (f : Field) (v : Nat) : (s.raise f v).groups = s.groups := rfl
@[simp] theorem State.raise_time (f : Field) (v : Nat) : (s.raise f v).time = s.time := rfl
@[simp] theorem State.raise_ledger (f : Field) (v : Nat) : (s.raise f v).ledger = s.ledger := rfl
@[simp] theorem State.raise_clk (f : Field) (v : Nat) : (s.raise f v).clk = s.clk := rfl
@[simp] theorem State.raise_pwr (f : Field) (v : Nat) : (s.raise f v).pwr = s.pwr := rfl
@[simp] theorem State.raise_fw (f : Field) (v : Nat) : (s.raise f v).fw = s.fw := rfl
@[simp] theorem State.raise_dev (f : Field) (v : Nat) : (s.raise f v).dev = s.dev := rfl
@[simp] theorem State.raise_dbg (f : Field) (v : Nat) : (s.raise f v).dbg = s.dbg := rfl
@[simp] theorem State.raise_pins (f : Field) (v : Nat) : (s.raise f v).pins = s.pins := rfl
@[simp] theorem State.raise_pending (f : Field) (v : Nat) : (s.raise f v).pending = s.pending := rfl

/-! ### `State.resetRegs` -/

@[simp] theorem State.resetRegs_now (lo hi : Nat) : (s.resetRegs lo hi).now = s.now := rfl
@[simp] theorem State.resetRegs_free (lo hi : Nat) : (s.resetRegs lo hi).free = s.free := rfl
@[simp] theorem State.resetRegs_inReset (lo hi : Nat) : (s.resetRegs lo hi).inReset = s.inReset := rfl
@[simp] theorem State.resetRegs_out (lo hi : Nat) : (s.resetRegs lo hi).out = s.out := rfl
@[simp] theorem State.resetRegs_hif (lo hi : Nat) : (s.resetRegs lo hi).hif = s.hif := rfl
@[simp] theorem State.resetRegs_step (lo hi : Nat) : (s.resetRegs lo hi).step = s.step := rfl
@[simp] theorem State.resetRegs_fab (lo hi : Nat) : (s.resetRegs lo hi).fab = s.fab := rfl
@[simp] theorem State.resetRegs_cfg (lo hi : Nat) : (s.resetRegs lo hi).cfg = s.cfg := rfl
@[simp] theorem State.resetRegs_attic (lo hi : Nat) : (s.resetRegs lo hi).attic = s.attic := rfl
@[simp] theorem State.resetRegs_corr (lo hi : Nat) : (s.resetRegs lo hi).corr = s.corr := rfl
@[simp] theorem State.resetRegs_noc (lo hi : Nat) : (s.resetRegs lo hi).noc = s.noc := rfl
@[simp] theorem State.resetRegs_g6 (lo hi : Nat) : (s.resetRegs lo hi).g6 = s.g6 := rfl
@[simp] theorem State.resetRegs_crypt (lo hi : Nat) : (s.resetRegs lo hi).crypt = s.crypt := rfl
@[simp] theorem State.resetRegs_groups (lo hi : Nat) : (s.resetRegs lo hi).groups = s.groups := rfl
@[simp] theorem State.resetRegs_time (lo hi : Nat) : (s.resetRegs lo hi).time = s.time := rfl
@[simp] theorem State.resetRegs_ledger (lo hi : Nat) : (s.resetRegs lo hi).ledger = s.ledger := rfl
@[simp] theorem State.resetRegs_clk (lo hi : Nat) : (s.resetRegs lo hi).clk = s.clk := rfl
@[simp] theorem State.resetRegs_pwr (lo hi : Nat) : (s.resetRegs lo hi).pwr = s.pwr := rfl
@[simp] theorem State.resetRegs_fw (lo hi : Nat) : (s.resetRegs lo hi).fw = s.fw := rfl
@[simp] theorem State.resetRegs_dev (lo hi : Nat) : (s.resetRegs lo hi).dev = s.dev := rfl
@[simp] theorem State.resetRegs_dbg (lo hi : Nat) : (s.resetRegs lo hi).dbg = s.dbg := rfl
@[simp] theorem State.resetRegs_pins (lo hi : Nat) : (s.resetRegs lo hi).pins = s.pins := rfl
@[simp] theorem State.resetRegs_pending (lo hi : Nat) : (s.resetRegs lo hi).pending = s.pending := rfl

/-! ### `State.send` -/

@[simp] theorem State.send_now (m : PcieMsg) : (s.send m).now = s.now := rfl
@[simp] theorem State.send_free (m : PcieMsg) : (s.send m).free = s.free := rfl
@[simp] theorem State.send_inReset (m : PcieMsg) : (s.send m).inReset = s.inReset := rfl
@[simp] theorem State.send_regs (m : PcieMsg) : (s.send m).regs = s.regs := rfl
@[simp] theorem State.send_hif (m : PcieMsg) : (s.send m).hif = s.hif := rfl
@[simp] theorem State.send_step (m : PcieMsg) : (s.send m).step = s.step := rfl
@[simp] theorem State.send_fab (m : PcieMsg) : (s.send m).fab = s.fab := rfl
@[simp] theorem State.send_cfg (m : PcieMsg) : (s.send m).cfg = s.cfg := rfl
@[simp] theorem State.send_attic (m : PcieMsg) : (s.send m).attic = s.attic := rfl
@[simp] theorem State.send_corr (m : PcieMsg) : (s.send m).corr = s.corr := rfl
@[simp] theorem State.send_noc (m : PcieMsg) : (s.send m).noc = s.noc := rfl
@[simp] theorem State.send_g6 (m : PcieMsg) : (s.send m).g6 = s.g6 := rfl
@[simp] theorem State.send_crypt (m : PcieMsg) : (s.send m).crypt = s.crypt := rfl
@[simp] theorem State.send_groups (m : PcieMsg) : (s.send m).groups = s.groups := rfl
@[simp] theorem State.send_time (m : PcieMsg) : (s.send m).time = s.time := rfl
@[simp] theorem State.send_ledger (m : PcieMsg) : (s.send m).ledger = s.ledger := rfl
@[simp] theorem State.send_clk (m : PcieMsg) : (s.send m).clk = s.clk := rfl
@[simp] theorem State.send_pwr (m : PcieMsg) : (s.send m).pwr = s.pwr := rfl
@[simp] theorem State.send_fw (m : PcieMsg) : (s.send m).fw = s.fw := rfl
@[simp] theorem State.send_dev (m : PcieMsg) : (s.send m).dev = s.dev := rfl
@[simp] theorem State.send_dbg (m : PcieMsg) : (s.send m).dbg = s.dbg := rfl
@[simp] theorem State.send_pins (m : PcieMsg) : (s.send m).pins = s.pins := rfl
@[simp] theorem State.send_pending (m : PcieMsg) : (s.send m).pending = s.pending := rfl

/-! ### `State.setHeld` -/

@[simp] theorem State.setHeld_now (h n : Nat) : (s.setHeld h n).now = s.now := rfl
@[simp] theorem State.setHeld_free (h n : Nat) : (s.setHeld h n).free = s.free := rfl
@[simp] theorem State.setHeld_inReset (h n : Nat) : (s.setHeld h n).inReset = s.inReset := rfl
@[simp] theorem State.setHeld_regs (h n : Nat) : (s.setHeld h n).regs = s.regs := rfl
@[simp] theorem State.setHeld_out (h n : Nat) : (s.setHeld h n).out = s.out := rfl
@[simp] theorem State.setHeld_hif (h n : Nat) : (s.setHeld h n).hif = s.hif := rfl
@[simp] theorem State.setHeld_step (h n : Nat) : (s.setHeld h n).step = s.step := rfl
@[simp] theorem State.setHeld_fab (h n : Nat) : (s.setHeld h n).fab = s.fab := rfl
@[simp] theorem State.setHeld_cfg (h n : Nat) : (s.setHeld h n).cfg = s.cfg := rfl
@[simp] theorem State.setHeld_attic (h n : Nat) : (s.setHeld h n).attic = s.attic := rfl
@[simp] theorem State.setHeld_corr (h n : Nat) : (s.setHeld h n).corr = s.corr := rfl
@[simp] theorem State.setHeld_noc (h n : Nat) : (s.setHeld h n).noc = s.noc := rfl
@[simp] theorem State.setHeld_g6 (h n : Nat) : (s.setHeld h n).g6 = s.g6 := rfl
@[simp] theorem State.setHeld_crypt (h n : Nat) : (s.setHeld h n).crypt = s.crypt := rfl
@[simp] theorem State.setHeld_groups (h n : Nat) : (s.setHeld h n).groups = s.groups := rfl
@[simp] theorem State.setHeld_time (h n : Nat) : (s.setHeld h n).time = s.time := rfl
@[simp] theorem State.setHeld_clk (h n : Nat) : (s.setHeld h n).clk = s.clk := rfl
@[simp] theorem State.setHeld_pwr (h n : Nat) : (s.setHeld h n).pwr = s.pwr := rfl
@[simp] theorem State.setHeld_fw (h n : Nat) : (s.setHeld h n).fw = s.fw := rfl
@[simp] theorem State.setHeld_dev (h n : Nat) : (s.setHeld h n).dev = s.dev := rfl
@[simp] theorem State.setHeld_dbg (h n : Nat) : (s.setHeld h n).dbg = s.dbg := rfl
@[simp] theorem State.setHeld_pins (h n : Nat) : (s.setHeld h n).pins = s.pins := rfl
@[simp] theorem State.setHeld_pending (h n : Nat) : (s.setHeld h n).pending = s.pending := rfl

/-! ### `State.grantAlways` -/

@[simp] theorem State.grantAlways_now (h n : Nat) : (s.grantAlways h n).now = s.now := rfl
@[simp] theorem State.grantAlways_free (h n : Nat) : (s.grantAlways h n).free = s.free := rfl
@[simp] theorem State.grantAlways_inReset (h n : Nat) : (s.grantAlways h n).inReset = s.inReset := rfl
@[simp] theorem State.grantAlways_regs (h n : Nat) : (s.grantAlways h n).regs = s.regs := rfl
@[simp] theorem State.grantAlways_out (h n : Nat) : (s.grantAlways h n).out = s.out := rfl
@[simp] theorem State.grantAlways_hif (h n : Nat) : (s.grantAlways h n).hif = s.hif := rfl
@[simp] theorem State.grantAlways_step (h n : Nat) : (s.grantAlways h n).step = s.step := rfl
@[simp] theorem State.grantAlways_fab (h n : Nat) : (s.grantAlways h n).fab = s.fab := rfl
@[simp] theorem State.grantAlways_cfg (h n : Nat) : (s.grantAlways h n).cfg = s.cfg := rfl
@[simp] theorem State.grantAlways_attic (h n : Nat) : (s.grantAlways h n).attic = s.attic := rfl
@[simp] theorem State.grantAlways_corr (h n : Nat) : (s.grantAlways h n).corr = s.corr := rfl
@[simp] theorem State.grantAlways_noc (h n : Nat) : (s.grantAlways h n).noc = s.noc := rfl
@[simp] theorem State.grantAlways_g6 (h n : Nat) : (s.grantAlways h n).g6 = s.g6 := rfl
@[simp] theorem State.grantAlways_crypt (h n : Nat) : (s.grantAlways h n).crypt = s.crypt := rfl
@[simp] theorem State.grantAlways_groups (h n : Nat) : (s.grantAlways h n).groups = s.groups := rfl
@[simp] theorem State.grantAlways_time (h n : Nat) : (s.grantAlways h n).time = s.time := rfl
@[simp] theorem State.grantAlways_clk (h n : Nat) : (s.grantAlways h n).clk = s.clk := rfl
@[simp] theorem State.grantAlways_pwr (h n : Nat) : (s.grantAlways h n).pwr = s.pwr := rfl
@[simp] theorem State.grantAlways_fw (h n : Nat) : (s.grantAlways h n).fw = s.fw := rfl
@[simp] theorem State.grantAlways_dev (h n : Nat) : (s.grantAlways h n).dev = s.dev := rfl
@[simp] theorem State.grantAlways_dbg (h n : Nat) : (s.grantAlways h n).dbg = s.dbg := rfl
@[simp] theorem State.grantAlways_pins (h n : Nat) : (s.grantAlways h n).pins = s.pins := rfl
@[simp] theorem State.grantAlways_pending (h n : Nat) : (s.grantAlways h n).pending = s.pending := rfl

/-! ### `State.ungrant` -/

@[simp] theorem State.ungrant_now (h n : Nat) : (s.ungrant h n).now = s.now := rfl
@[simp] theorem State.ungrant_free (h n : Nat) : (s.ungrant h n).free = s.free := rfl
@[simp] theorem State.ungrant_inReset (h n : Nat) : (s.ungrant h n).inReset = s.inReset := rfl
@[simp] theorem State.ungrant_regs (h n : Nat) : (s.ungrant h n).regs = s.regs := rfl
@[simp] theorem State.ungrant_out (h n : Nat) : (s.ungrant h n).out = s.out := rfl
@[simp] theorem State.ungrant_hif (h n : Nat) : (s.ungrant h n).hif = s.hif := rfl
@[simp] theorem State.ungrant_step (h n : Nat) : (s.ungrant h n).step = s.step := rfl
@[simp] theorem State.ungrant_fab (h n : Nat) : (s.ungrant h n).fab = s.fab := rfl
@[simp] theorem State.ungrant_cfg (h n : Nat) : (s.ungrant h n).cfg = s.cfg := rfl
@[simp] theorem State.ungrant_attic (h n : Nat) : (s.ungrant h n).attic = s.attic := rfl
@[simp] theorem State.ungrant_corr (h n : Nat) : (s.ungrant h n).corr = s.corr := rfl
@[simp] theorem State.ungrant_noc (h n : Nat) : (s.ungrant h n).noc = s.noc := rfl
@[simp] theorem State.ungrant_g6 (h n : Nat) : (s.ungrant h n).g6 = s.g6 := rfl
@[simp] theorem State.ungrant_crypt (h n : Nat) : (s.ungrant h n).crypt = s.crypt := rfl
@[simp] theorem State.ungrant_groups (h n : Nat) : (s.ungrant h n).groups = s.groups := rfl
@[simp] theorem State.ungrant_time (h n : Nat) : (s.ungrant h n).time = s.time := rfl
@[simp] theorem State.ungrant_clk (h n : Nat) : (s.ungrant h n).clk = s.clk := rfl
@[simp] theorem State.ungrant_pwr (h n : Nat) : (s.ungrant h n).pwr = s.pwr := rfl
@[simp] theorem State.ungrant_fw (h n : Nat) : (s.ungrant h n).fw = s.fw := rfl
@[simp] theorem State.ungrant_dev (h n : Nat) : (s.ungrant h n).dev = s.dev := rfl
@[simp] theorem State.ungrant_dbg (h n : Nat) : (s.ungrant h n).dbg = s.dbg := rfl
@[simp] theorem State.ungrant_pins (h n : Nat) : (s.ungrant h n).pins = s.pins := rfl
@[simp] theorem State.ungrant_pending (h n : Nat) : (s.ungrant h n).pending = s.pending := rfl

/-! ### `State.elapse` -/

@[simp] theorem State.elapse_inReset (dt : Nat) : (s.elapse dt).inReset = s.inReset := rfl
@[simp] theorem State.elapse_regs (dt : Nat) : (s.elapse dt).regs = s.regs := rfl
@[simp] theorem State.elapse_out (dt : Nat) : (s.elapse dt).out = s.out := rfl
@[simp] theorem State.elapse_hif (dt : Nat) : (s.elapse dt).hif = s.hif := rfl
@[simp] theorem State.elapse_step (dt : Nat) : (s.elapse dt).step = s.step := rfl
@[simp] theorem State.elapse_fab (dt : Nat) : (s.elapse dt).fab = s.fab := rfl
@[simp] theorem State.elapse_cfg (dt : Nat) : (s.elapse dt).cfg = s.cfg := rfl
@[simp] theorem State.elapse_attic (dt : Nat) : (s.elapse dt).attic = s.attic := rfl
@[simp] theorem State.elapse_corr (dt : Nat) : (s.elapse dt).corr = s.corr := rfl
@[simp] theorem State.elapse_noc (dt : Nat) : (s.elapse dt).noc = s.noc := rfl
@[simp] theorem State.elapse_g6 (dt : Nat) : (s.elapse dt).g6 = s.g6 := rfl
@[simp] theorem State.elapse_crypt (dt : Nat) : (s.elapse dt).crypt = s.crypt := rfl
@[simp] theorem State.elapse_groups (dt : Nat) : (s.elapse dt).groups = s.groups := rfl
@[simp] theorem State.elapse_ledger (dt : Nat) : (s.elapse dt).ledger = s.ledger := rfl
@[simp] theorem State.elapse_clk (dt : Nat) : (s.elapse dt).clk = s.clk := rfl
@[simp] theorem State.elapse_pwr (dt : Nat) : (s.elapse dt).pwr = s.pwr := rfl
@[simp] theorem State.elapse_fw (dt : Nat) : (s.elapse dt).fw = s.fw := rfl
@[simp] theorem State.elapse_dev (dt : Nat) : (s.elapse dt).dev = s.dev := rfl
@[simp] theorem State.elapse_dbg (dt : Nat) : (s.elapse dt).dbg = s.dbg := rfl
@[simp] theorem State.elapse_pins (dt : Nat) : (s.elapse dt).pins = s.pins := rfl
@[simp] theorem State.elapse_pending (dt : Nat) : (s.elapse dt).pending = s.pending := rfl

/-! ### The fields that they do change -/

@[simp] theorem State.elapse_now (dt : Nat) : (s.elapse dt).now = s.now + dt := rfl
@[simp] theorem State.send_out (m : PcieMsg) : (s.send m).out = s.out ++ [m] := rfl
@[simp] theorem State.elapse_stored (dt a : Nat) : (s.elapse dt).stored a = s.stored a := rfl
@[simp] theorem State.elapse_rd (dt : Nat) (f : Field) : (s.elapse dt).rd f = s.rd f := rfl
@[simp] theorem State.elapse_rdb (dt : Nat) (f : Field) : (s.elapse dt).rdb f = s.rdb f := rfl
@[simp] theorem State.send_rd (m : PcieMsg) (f : Field) : (s.send m).rd f = s.rd f := rfl
@[simp] theorem State.send_stored (m : PcieMsg) (a : Nat) : (s.send m).stored a = s.stored a := rfl
@[simp] theorem State.grantAlways_rd (h n : Nat) (f : Field) : (s.grantAlways h n).rd f = s.rd f := rfl
@[simp] theorem State.ungrant_rd (h n : Nat) (f : Field) : (s.ungrant h n).rd f = s.rd f := rfl
@[simp] theorem State.setHeld_rd (h n : Nat) (f : Field) : (s.setHeld h n).rd f = s.rd f := rfl

end Sys2Proof.Machine
end

