-- ==== Sys2Proof/Laws/Registers.lean ====
section
/-! SUPPORT. Laws of the register file: a field read after a write of it, of another field of its register and of another
register; what the operations on a field do; the canonical form of the file. -/

namespace Sys2Proof.Machine

/-! ### Bits of numbers -/

theorem setBits_eq (n hi lo v : Nat) :
    setBits n hi lo v = n / 2 ^ (lo + (hi + 1 - lo)) * 2 ^ (lo + (hi + 1 - lo)) + v % 2 ^ (hi + 1 - lo) * 2 ^ lo + n % 2 ^ lo := by
  unfold setBits bits
  generalize hi + 1 - lo = w
  have h1 : n = n / 2 ^ lo * 2 ^ lo + n % 2 ^ lo := (Nat.div_add_mod' n (2 ^ lo)).symm
  have h2 : n / 2 ^ lo = n / 2 ^ lo / 2 ^ w * 2 ^ w + n / 2 ^ lo % 2 ^ w := (Nat.div_add_mod' _ _).symm
  have h3 : n / 2 ^ lo / 2 ^ w = n / 2 ^ (lo + w) := by rw [Nat.div_div_eq_div_mul, ← pow_add]
  have h4 : n / 2 ^ lo * 2 ^ lo = n / 2 ^ (lo + w) * 2 ^ (lo + w) + n / 2 ^ lo % 2 ^ w * 2 ^ lo := by
    conv_lhs => rw [h2, h3]
    rw [Nat.add_mul, pow_add]
    ring
  omega

/-- The bits that were set read as the value set, at the width of the field. -/
theorem bits_setBits (n hi lo v : Nat) : bits (setBits n hi lo v) hi lo = v % 2 ^ (hi + 1 - lo) := by
  rw [setBits_eq]
  unfold bits
  generalize hi + 1 - lo = w
  have h : n / 2 ^ (lo + w) * 2 ^ (lo + w) + v % 2 ^ w * 2 ^ lo + n % 2 ^ lo
      = n % 2 ^ lo + 2 ^ lo * (v % 2 ^ w + 2 ^ w * (n / 2 ^ (lo + w))) := by rw [pow_add]; ring
  rw [h, Nat.add_mul_div_left _ _ (by positivity), Nat.div_eq_of_lt (Nat.mod_lt _ (by positivity)), Nat.zero_add,
    Nat.add_mul_mod_self_left, Nat.mod_mod]

/-- Bits below the field are left as they were. -/
theorem bits_setBits_below (n hi lo v hi' lo' : Nat) (h : hi' < lo) :
    bits (setBits n hi lo v) hi' lo' = bits n hi' lo' := by
  rw [setBits_eq]
  unfold bits
  generalize hi + 1 - lo = w
  by_cases hl : lo' ≤ hi'
  · obtain ⟨k, rfl⟩ : ∃ k, lo = lo' + (hi' + 1 - lo') + k := ⟨lo - (hi' + 1), by omega⟩
    generalize hi' + 1 - lo' = w'
    have hn : ∀ x : Nat, x / 2 ^ lo' % 2 ^ w' = x % 2 ^ (lo' + w') / 2 ^ lo' := fun x => by
      rw [pow_add, Nat.mod_mul_right_div_self]
    rw [hn, hn n]
    congr 1
    have e : n / 2 ^ (lo' + w' + k + w) * 2 ^ (lo' + w' + k + w) + v % 2 ^ w * 2 ^ (lo' + w' + k) + n % 2 ^ (lo' + w' + k)
        = n % 2 ^ (lo' + w' + k) + 2 ^ (lo' + w') *
          (2 ^ k * (v % 2 ^ w) + 2 ^ (k + w) * (n / 2 ^ (lo' + w' + k + w))) := by
      rw [pow_add _ (lo' + w' + k) w, pow_add _ (lo' + w') k, pow_add _ k w]; ring
    rw [e, Nat.add_mul_mod_self_left, pow_add _ (lo' + w') k]
    exact Nat.mod_mul_right_mod _ _ _
  · have : hi' + 1 - lo' = 0 := by omega
    simp [this, Nat.mod_one]

/-- Bits above the field are left as they were. -/
theorem bits_setBits_above (n hi lo v hi' lo' : Nat) (h : hi < lo') (hf : lo ≤ hi) :
    bits (setBits n hi lo v) hi' lo' = bits n hi' lo' := by
  rw [setBits_eq]
  unfold bits
  obtain ⟨k, rfl⟩ : ∃ k, lo' = lo + (hi + 1 - lo) + k := ⟨lo' - (hi + 1), by omega⟩
  generalize hi + 1 - lo = w
  congr 1
  have hlt : v % 2 ^ w * 2 ^ lo + n % 2 ^ lo < 2 ^ (lo + w) := by
    have h1 : v % 2 ^ w < 2 ^ w := Nat.mod_lt _ (by positivity)
    have h2 : n % 2 ^ lo < 2 ^ lo := Nat.mod_lt _ (by positivity)
    calc v % 2 ^ w * 2 ^ lo + n % 2 ^ lo < v % 2 ^ w * 2 ^ lo + 2 ^ lo := by omega
      _ = (v % 2 ^ w + 1) * 2 ^ lo := by ring
      _ ≤ 2 ^ w * 2 ^ lo := Nat.mul_le_mul_right _ h1
      _ = 2 ^ (lo + w) := by rw [← pow_add, Nat.add_comm]
  have hd : ∀ x : Nat, x / 2 ^ (lo + w + k) = x / 2 ^ (lo + w) / 2 ^ k := fun x => by
    rw [Nat.div_div_eq_div_mul, ← pow_add]
  rw [hd, hd n]
  congr 1
  rw [show n / 2 ^ (lo + w) * 2 ^ (lo + w) + v % 2 ^ w * 2 ^ lo + n % 2 ^ lo
      = (v % 2 ^ w * 2 ^ lo + n % 2 ^ lo) + 2 ^ (lo + w) * (n / 2 ^ (lo + w)) by ring,
    Nat.add_mul_div_left _ _ (by positivity), Nat.div_eq_of_lt hlt, Nat.zero_add]

theorem setBits_lt (n hi lo v w : Nat) (hn : n < 2 ^ w) (hw : hi < w) (hl : lo ≤ hi) : setBits n hi lo v < 2 ^ w := by
  rw [setBits_eq]
  obtain ⟨k, rfl⟩ : ∃ k, w = lo + (hi + 1 - lo) + k := ⟨w - (hi + 1), by omega⟩
  generalize hi + 1 - lo = x at *
  have h0 : n / 2 ^ (lo + x) < 2 ^ k := by
    rw [Nat.div_lt_iff_lt_mul (by positivity), ← pow_add, Nat.add_comm k]; exact hn
  have h1 : v % 2 ^ x < 2 ^ x := Nat.mod_lt _ (by positivity)
  have h2 : n % 2 ^ lo < 2 ^ lo := Nat.mod_lt _ (by positivity)
  have h3 : v % 2 ^ x * 2 ^ lo + n % 2 ^ lo < 2 ^ (lo + x) := by
    calc v % 2 ^ x * 2 ^ lo + n % 2 ^ lo < v % 2 ^ x * 2 ^ lo + 2 ^ lo := by omega
      _ = (v % 2 ^ x + 1) * 2 ^ lo := by ring
      _ ≤ 2 ^ x * 2 ^ lo := Nat.mul_le_mul_right _ h1
      _ = 2 ^ (lo + x) := by rw [← pow_add, Nat.add_comm]
  calc _ < n / 2 ^ (lo + x) * 2 ^ (lo + x) + 2 ^ (lo + x) := by omega
    _ = (n / 2 ^ (lo + x) + 1) * 2 ^ (lo + x) := by ring
    _ ≤ 2 ^ k * 2 ^ (lo + x) := Nat.mul_le_mul_right _ h0
    _ = 2 ^ (lo + x + k) := by rw [← pow_add, Nat.add_comm]

/-! ### Registers -/

/-- A field that lies in its register. -/
abbrev Field.valid (f : Field) : Prop := f.lo ≤ f.hi ∧ f.hi < 64

variable (s : State)

@[simp] theorem State.stored_store_self (a : Nat) (w : Word) : (s.store a w).stored a = w := Cells.get_set_self _ _ _ _

theorem State.stored_store_of_ne {a b : Nat} (w : Word) (h : b ≠ a) : (s.store a w).stored b = s.stored b :=
  Cells.get_set_of_ne _ _ _ h

theorem State.stored_wr_of_ne (f : Field) (v : Nat) {a : Nat} (h : a ≠ f.addr) : (s.wr f v).stored a = s.stored a :=
  s.stored_store_of_ne _ h

theorem State.stored_wr_self (f : Field) (v : Nat) (h : f.valid) :
    ((s.wr f v).stored f.addr).toNat = setBits (s.stored f.addr).toNat f.hi f.lo v := by
  unfold State.wr
  rw [State.stored_store_self, toWord, BitVec.toNat_ofNat, Nat.mod_eq_of_lt]
  exact setBits_lt _ _ _ _ _ (s.stored f.addr).isLt h.2 h.1

/-- A field reads as the value written, at its width. -/
theorem State.rd_wr_self (f : Field) (v : Nat) (h : f.valid) : (s.wr f v).rd f = v % 2 ^ (f.hi + 1 - f.lo) := by
  rw [State.rd, s.stored_wr_self f v h, bits_setBits]

/-- A write of a field leaves the fields of other registers. -/
theorem State.rd_wr_of_addr (f g : Field) (v : Nat) (h : g.addr ≠ f.addr) : (s.wr f v).rd g = s.rd g := by
  rw [State.rd, s.stored_wr_of_ne f v h]; rfl

/-- A write of a field leaves the other fields of its register. -/
theorem State.rd_wr_of_disjoint (f g : Field) (v : Nat) (hf : f.valid) (h : g.addr = f.addr)
    (hd : g.hi < f.lo ∨ f.hi < g.lo) : (s.wr f v).rd g = s.rd g := by
  unfold State.rd
  rw [h, s.stored_wr_self f v hf]
  rcases hd with hd | hd
  · exact bits_setBits_below _ _ _ _ _ _ hd
  · exact bits_setBits_above _ _ _ _ _ _ hd hf.1

/-- A saturating counter after it counts (R17). -/
theorem State.rd_count_self (f : Field) (n : Nat) (h : f.valid) :
    (s.count f n).rd f = min (s.rd f + n) (2 ^ (f.hi + 1 - f.lo) - 1) := by
  rw [State.count, State.rd_wr_self _ _ _ h, satAdd, Nat.mod_eq_of_lt]
  have : 0 < 2 ^ (f.hi + 1 - f.lo) := by positivity
  omega

/-! ### The canonical form of the register file -/

theorem State.store_wf (a : Nat) (w : Word) (h : Cells.wf regReset s.regs = true) :
    Cells.wf regReset (s.store a w).regs = true := Cells.wf_set a w h

theorem State.wr_wf (f : Field) (v : Nat) (h : Cells.wf regReset s.regs = true) :
    Cells.wf regReset (s.wr f v).regs = true := s.store_wf _ _ h

theorem State.resetRegs_wf (lo hi : Nat) (h : Cells.wf regReset s.regs = true) :
    Cells.wf regReset (s.resetRegs lo hi).regs = true := Cells.wf_filter _ h

/-- Registers of the range read as after DEV_RST_N (R16), every other one as before. -/
theorem State.stored_resetRegs (lo hi a : Nat) :
    (s.resetRegs lo hi).stored a = if lo ≤ a ∧ a < hi then regReset a else s.stored a := by
  unfold State.resetRegs State.stored
  simp only
  generalize s.regs = m
  induction m with
  | nil => simp [Cells.get]
  | cons kv m ih =>
    by_cases hk : kv.1 < lo ∨ hi ≤ kv.1
    · rw [List.filter_cons_of_pos (by simpa using hk)]
      simp only [Cells.get]
      by_cases ha : a = kv.1
      · subst ha
        rw [if_pos rfl, if_pos rfl, if_neg (by omega)]
      · rw [if_neg ha, if_neg ha]; exact ih
    · rw [List.filter_cons_of_neg (by simpa using hk)]
      simp only [Cells.get]
      rw [ih]
      by_cases ha : a = kv.1
      · subst ha
        rw [if_pos (by omega), if_pos (by omega)]
      · rw [if_neg ha]

end Sys2Proof.Machine
end

