-- ==== Sys2Proof/Laws/Step.lean ====
section
/-! SUPPORT. What a command can do, said once: the two shapes of a meaning, the admission of a command of Keeper, its refusals
and its reply. -/

namespace Sys2Proof.Machine

variable (s : State)

/-! ### The two shapes -/

theorem State.event_outside {s : State} (h : s.inReset = false) (dt : Nat) (f : State → State) :
    s.event dt f = .next (s.after dt f) := by
  simp [State.event, State.after, h]

theorem State.event_inReset {s : State} (h : s.inReset = true) (dt : Nat) (f : State → State) :
    s.event dt f = .next { s with now := s.now + dt } := by
  simp [State.event, h]

theorem State.always_outside {s : State} (h : s.inReset = false) (dt : Nat) (f : State → State) :
    s.always dt f = .next { f (s.elapse dt) with now := s.now + dt, pending := s.pending } := by
  simp [State.always, h]

theorem State.always_inReset {s : State} (h : s.inReset = true) (dt : Nat) (f : State → State) :
    s.always dt f = .next { f { s with now := s.now + dt } with now := s.now + dt, pending := s.pending } := by
  simp [State.always, h]

/-- Every command is an event that happens after its time, or acts while DEV_RST_N is low too. -/
theorem exec_shape (c : Instr) (s : State) :
    (c.actsInReset = false ∧ ∃ f, exec c s = s.event c.dt f) ∨ (c.actsInReset = true ∧ ∃ f, exec c s = s.always c.dt f) := by
  cases c <;> simp only [exec] <;> first | exact .inl ⟨rfl, _, rfl⟩ | exact .inr ⟨rfl, _, rfl⟩

theorem State.whenever_true (c : Bool) (f : State → State) (h : c = true) : s.whenever c f = f s := by
  simp [State.whenever, h]

theorem State.whenever_false (c : Bool) (f : State → State) (h : c = false) : s.whenever c f = s := by
  simp [State.whenever, h]

/-! ### The state after an event -/

section
variable (dt : Nat) (f : State → State)
@[simp] theorem State.after_now : (s.after dt f).now = s.now + dt := rfl
@[simp] theorem State.after_pending : (s.after dt f).pending = s.pending := rfl
@[simp] theorem State.after_inReset : (s.after dt f).inReset = false := rfl
@[simp] theorem State.after_stored (a : Nat) : (s.after dt f).stored a = (f (s.elapse dt)).stored a := rfl
@[simp] theorem State.after_rd (g : Field) : (s.after dt f).rd g = (f (s.elapse dt)).rd g := rfl
@[simp] theorem State.after_out : (s.after dt f).out = (f (s.elapse dt)).out := rfl
@[simp] theorem State.after_hif : (s.after dt f).hif = (f (s.elapse dt)).hif := rfl
end

/-! ### Loading the repair ledger -/

/-- Repairs loaded from the ledger change the fabric and the attic only. -/
theorem State.loadRepairs_frame (field : Bool) (l : List Repair) : ∀ s : State,
    ∃ f a, l.foldl (State.loadRepair field) s = { s with fab := f, attic := a } := by
  induction l with
  | nil => exact fun s => ⟨s.fab, s.attic, rfl⟩
  | cons r l ih =>
    intro s
    have h1 : ∃ f a, State.loadRepair field s r = { s with fab := f, attic := a } := by
      unfold State.loadRepair
      split <;> exact ⟨_, _, rfl⟩
    obtain ⟨f, a, h⟩ := h1
    obtain ⟨f', a', h'⟩ := ih (State.loadRepair field s r)
    exact ⟨f', a', by rw [List.foldl_cons, h', h]⟩

/-! ### Admission -/

theorem State.wr_hif_rd (f g : Field) (v : Nat) (h : g.addr ≠ f.addr) : (s.wr f v).rdb g = s.rdb g := by
  simp [State.rdb, s.rd_wr_of_addr f g v h]

/-- A command without a fetch failure whose shared checks pass reaches its meaning. -/
theorem State.admit_pass (k : Command) (c : Cmd) (hc : c.fail = none) (hl : k.len c.payload = true)
    (hs : k.svcOnly = false ∨ c.path = .service) (hr : k.inRom = true ∨ s.rdb Reg.DEV.BOOT.IMAGE = true) :
    s.judged k c = k.body c s := by
  have h1 : (k.svcOnly && c.path != .service) = false := by rcases hs with h | h <;> simp [h]
  have h2 : (!k.inRom && !s.rdb Reg.DEV.BOOT.IMAGE) = false := by rcases hr with h | h <;> simp [h]
  simp [State.judged, hc, hl, h1, h2]

/-- A packet of the current EPOCH with a good reply buffer carries no failure. -/
theorem packetOf_good (op : Nat) (h : CmdHdr) (ws : List Word) (he : h.path = .ring → h.epoch = s.rd Reg.HIF.QSTAT.EPOCH)
    (hb : badRbuf h.rbuf = false) : packetOf s op h ws = { s.cmdOf op h ws with id := 0 } := by
  have h1 : ¬ (h.path = .ring ∧ h.epoch ≠ s.rd Reg.HIF.QSTAT.EPOCH) := fun ⟨x, y⟩ => y (he x)
  simp [packetOf, State.cmdOf, h1, hb]

/-- A command that Keeper takes reaches its meaning, in progress and, through the mailbox, with BUSY set. -/
theorem State.issueCmd_takes (k : Command) (h : CmdHdr) (ws : List Word)
    (ht : s.takes h (k.len ws) k.svcOnly k.inRom = true) :
    s.issueCmd k h ws = k.body (s.cmdOf k.op h ws) (s.begun k.op h ws) := by
  have himg : (s.wr Reg.HIF.MBOXCTL.BUSY 1).rdb Reg.DEV.BOOT.IMAGE = s.rdb Reg.DEV.BOOT.IMAGE :=
    s.wr_hif_rd _ _ _ (by decide)
  obtain ⟨path, seq, epoch, fence, rbuf⟩ := h
  simp only [State.takes, Bool.and_eq_true, Bool.or_eq_true, Bool.not_eq_true', beq_iff_eq] at ht
  obtain ⟨⟨⟨⟨hp, hl⟩, hb⟩, hs⟩, hr⟩ := ht
  have ha : ∀ u : State, u.rdb Reg.DEV.BOOT.IMAGE = s.rdb Reg.DEV.BOOT.IMAGE →
      u.judged k (s.cmdOf k.op ⟨path, seq, epoch, fence, rbuf⟩ ws) = k.body (s.cmdOf k.op ⟨path, seq, epoch, fence, rbuf⟩ ws) u :=
    fun u hu => u.admit_pass k _ rfl hl hs (hr.imp_right fun h => hu.trans h)
  cases path
  · simp only [Bool.and_eq_true, Bool.not_eq_true', beq_iff_eq] at hp
    unfold State.issueCmd
    rw [packetOf_good s _ _ _ (fun _ => hp.2) hb]
    simp only [hp.1.1, hp.1.2, Bool.not_true, Bool.false_eq_true, if_false]
    exact ha _ rfl
  · simp only [Bool.and_eq_true, Bool.not_eq_true'] at hp
    unfold State.issueCmd
    rw [packetOf_good s _ _ _ (fun h => Path.noConfusion h) hb]
    simp only [hp.1.1, hp.1.2, hp.2, Bool.false_eq_true, if_false]
    exact ha _ himg
  · simp only [Bool.and_eq_true, Bool.not_eq_true', decide_eq_true_eq] at hp
    unfold State.issueCmd
    rw [packetOf_good s _ _ _ (fun h => Path.noConfusion h) hb]
    simp only [if_neg (Nat.not_le.mpr hp.1), hp.2, Bool.false_eq_true, if_false]
    exact ha _ rfl

/-- A command of Keeper that is accepted has its meaning's effect. -/
theorem State.cmd_accepted {s : State} (k : Command) (dt : Nat) (h : CmdHdr) (ws : List Word)
    (ha : s.accepts dt h (k.len ws) k.svcOnly k.inRom = true) :
    s.event dt (fun u => u.issueCmd k h ws) = .next (s.afterCmd dt k.op h ws k.body) := by
  simp only [State.accepts, Bool.and_eq_true, Bool.not_eq_true'] at ha
  rw [State.event_outside ha.1]
  simp only [State.afterCmd, State.after, State.issueCmd_takes _ _ _ _ ha.2]

/-! ### Refusals -/

theorem firstRefusal_none {l : List (Bool × Nat × Nat)} (h : ∀ r ∈ l, r.1 = false) : firstRefusal l = none := by
  induction l with
  | nil => rfl
  | cons r l ih =>
    obtain ⟨c, x⟩ := r
    have hc : c = false := h (c, x) (by simp)
    simpa [firstRefusal, hc] using ih fun r hr => h r (by simp [hr])

/-- A command to which no refusal applies has its effect. -/
theorem State.checked_pass (c : Cmd) (l : List (Bool × Nat × Nat)) (f : State → State) (hc : c.fail = none)
    (h : ∀ r ∈ l, r.1 = false) : s.checked c l f = f s := by
  suffices h0 : firstRefusal ((l.filter fun r => r.2.1 = stLock) ++ [(c.fail.isSome, stBadParam, 0)] ++
      l.filter fun r => r.2.1 ≠ stLock) = none by simp only [State.checked, h0]
  apply firstRefusal_none
  intro r hr
  simp only [hc, Option.isSome_none, List.mem_append, List.mem_filter, List.mem_singleton] at hr
  rcases hr with (hr | rfl) | hr
  · exact h r hr.1
  · rfl
  · exact h r hr.1

end Sys2Proof.Machine
end

