-- ==== Sys2Proof/Laws/Access.lean ====
section
/-! SUPPORT. Laws of BAR0 accesses: the register tables' rows are well formed, what a write by access codes and a read with its
effects do to every field, and where the hallway and the wake logic leave the registers alone. -/

namespace Sys2Proof.Machine

variable (s : State)

/-! ### The register tables -/

/-- A table row whose fields lie in the register and do not overlap. -/
def RegSpec.ok (r : RegSpec) : Bool :=
  r.fields.all (fun f => decide (f.lo ≤ f.hi) && decide (f.hi < 64)) &&
    decide (r.fields.Pairwise fun f g => f.hi < g.lo ∨ g.hi < f.lo)

theorem regTables_ok : ([regsStep, regsCtx, regsAtc, regsNoc, regsCorr, regsMem, regsCrypt, regsLane, regsEth, regsTime,
    regsHif, regsCfg, regsClk, regsPwr, regsDev, regsDbg, regsPert, regsFwu, regsIob].all fun t => t.all RegSpec.ok) = true := by
  decide +kernel

theorem regBlock_ok (a : Nat) : (regBlock a).all RegSpec.ok = true := by
  have h := regTables_ok
  simp only [List.all_cons, List.all_nil, Bool.and_eq_true, Bool.and_true] at h
  unfold regBlock
  split <;> simp [h]

theorem findReg_ok {a : Nat} {r : RegSpec} (h : findReg a = some r) : r.ok = true :=
  List.all_eq_true.mp (regBlock_ok a) r (List.mem_of_find?_eq_some h)

theorem RegSpec.field_valid {r : RegSpec} (h : r.ok = true) {f : FieldSpec} (hf : f ∈ r.fields) : f.lo ≤ f.hi ∧ f.hi < 64 := by
  simp only [RegSpec.ok, Bool.and_eq_true, List.all_eq_true, decide_eq_true_eq] at h
  exact h.1 f hf

theorem RegSpec.fields_disjoint {r : RegSpec} (h : r.ok = true) :
    r.fields.Pairwise fun f g => f.hi < g.lo ∨ g.hi < f.lo := by
  simp only [RegSpec.ok, Bool.and_eq_true, decide_eq_true_eq] at h
  exact h.2

/-- Two fields of a row do not overlap. -/
theorem RegSpec.fields_apart {r : RegSpec} (h : r.ok = true) {f g : FieldSpec} (hf : f ∈ r.fields) (hg : g ∈ r.fields)
    (hne : f ≠ g) : f.hi < g.lo ∨ g.hi < f.lo := by
  have hd := RegSpec.fields_disjoint h
  generalize r.fields = l at *
  induction l with
  | nil => cases hf
  | cons x l ih =>
    rw [List.pairwise_cons] at hd
    rcases List.mem_cons.mp hf with rfl | hf' <;> rcases List.mem_cons.mp hg with rfl | hg'
    · exact absurd rfl hne
    · exact hd.1 g hg'
    · exact (hd.1 f hf').symm
    · exact ih hf' hg' hd.2

/-! ### Single bits -/

theorem bit_eq_bits (n i : Nat) : bit n i = (bits n i i == 1) := by
  simp [bit, bits]

theorem bit_div (n k i : Nat) : bit (n / 2 ^ k) i = bit n (i + k) := by
  unfold bit
  rw [Nat.div_div_eq_div_mul, ← pow_add, Nat.add_comm k i]

theorem bit_mod (n w i : Nat) (h : i < w) : bit (n % 2 ^ w) i = bit n i := by
  unfold bit
  obtain ⟨k, rfl⟩ : ∃ k, w = i + 1 + k := ⟨w - (i + 1), by omega⟩
  rw [pow_add, pow_add, pow_one, Nat.mul_assoc, Nat.mod_mul_right_div_self]
  rw [Nat.mod_mul_right_mod]

theorem bit_bits (n hi lo i : Nat) (h : i < hi + 1 - lo) : bit (bits n hi lo) i = bit n (i + lo) := by
  rw [bits, bit_mod _ _ _ h, bit_div]

/-- A bit of a number after a field of it was set. -/
theorem bit_setBits (n hi lo v i : Nat) (h : lo ≤ hi) :
    bit (setBits n hi lo v) i = if lo ≤ i ∧ i ≤ hi then bit v (i - lo) else bit n i := by
  by_cases hi' : lo ≤ i ∧ i ≤ hi
  · rw [if_pos hi']
    have h1 : bit (bits (setBits n hi lo v) hi lo) (i - lo) = bit (setBits n hi lo v) i := by
      rw [bit_bits _ _ _ _ (by omega)]; congr 1; omega
    rw [← h1, bits_setBits, bit_mod _ _ _ (by omega)]
  · rw [if_neg hi', bit_eq_bits, bit_eq_bits]
    by_cases h2 : i < lo
    · rw [bits_setBits_below _ _ _ _ _ _ h2]
    · rw [bits_setBits_above _ _ _ _ _ _ (by omega) h]

theorem bit_toWord (n i : Nat) (h : i < 64) : bit (toWord n).toNat i = bit n i := by
  rw [toWord, BitVec.toNat_ofNat, bit_mod _ _ _ h]

/-! ### Masks -/

theorem bit_testBit (n i : Nat) : bit n i = n.testBit i := by
  rw [bit, Nat.testBit_eq_decide_div_mod_eq]; rfl

theorem bit_ones (w lo i : Nat) : bit ((2 ^ w - 1) * 2 ^ lo) i = (decide (lo ≤ i) && decide (i < lo + w)) := by
  rw [bit_testBit, Nat.testBit_mul_two_pow, Nat.testBit_two_pow_sub_one]
  by_cases h : lo ≤ i <;> simp [h]
  omega

theorem mask_bit (fs : List FieldSpec) (i : Nat) : ∀ m : Nat,
    bit (fs.foldl (fun m f => Nat.lor m ((2 ^ (f.hi + 1 - f.lo) - 1) * 2 ^ f.lo)) m) i =
      (bit m i || fs.any fun f => decide (f.lo ≤ i) && decide (i < f.lo + (f.hi + 1 - f.lo))) := by
  induction fs with
  | nil => simp
  | cons f fs ih =>
    intro m
    rw [List.foldl_cons, ih, List.any_cons, ← bit_ones, ← Bool.or_assoc]
    congr 1
    rw [bit_testBit, bit_testBit, bit_testBit]
    exact Nat.testBit_lor _ _ _

/-- A bit of a number from which the bits of another are taken away. -/
theorem sub_land_testBit (x y i : Nat) : (x - Nat.land x y).testBit i = (x.testBit i && !y.testBit i) := by
  have hx : x < 2 ^ (x + 1) := lt_trans Nat.lt_two_pow_self (Nat.pow_lt_pow_right (by decide) (by omega))
  have hx' : x < 2 ^ (x + 1 + 1) := lt_trans hx (Nat.pow_lt_pow_right (by decide) (by omega))
  let X : BitVec (x + 1 + 1) := BitVec.ofNat _ x
  let Y : BitVec (x + 1 + 1) := BitVec.ofNat _ y
  have h0 : (X &&& Y) &&& (X &&& ~~~Y) = 0#_ := by
    ext j hj; simp only [BitVec.getElem_and, BitVec.getElem_not, BitVec.getElem_zero]
    cases X[j] <;> cases Y[j] <;> rfl
  have h1 : (X &&& Y) + (X &&& ~~~Y) = X := by
    rw [BitVec.add_eq_or_of_and_eq_zero _ _ h0]
    ext j hj; simp only [BitVec.getElem_and, BitVec.getElem_not, BitVec.getElem_or]
    cases X[j] <;> cases Y[j] <;> rfl
  have hXn : X.toNat = x := by simp [X, Nat.mod_eq_of_lt hx']
  have hXY : (X &&& Y).toNat = Nat.land x y := by
    rw [BitVec.toNat_and, hXn]
    apply Nat.eq_of_testBit_eq
    intro j
    rw [show Nat.land x y = x &&& y from rfl, Nat.testBit_and, Nat.testBit_and]
    by_cases hj : j < x + 1 + 1
    · simp [Y, Nat.testBit_mod_two_pow, hj]
    · rw [Nat.testBit_lt_two_pow (lt_of_lt_of_le hx' (Nat.pow_le_pow_right (by decide) (by omega)))]; rfl
  have h2 : Nat.land x y + (X &&& ~~~Y).toNat = x := by
    have h3 := congrArg BitVec.toNat h1
    rw [BitVec.toNat_add, hXY, hXn, Nat.mod_eq_of_lt] at h3
    · exact h3
    · have a1 : Nat.land x y ≤ x := Nat.and_le_left
      have a2 : (X &&& ~~~Y).toNat ≤ x := by rw [BitVec.toNat_and, hXn]; exact Nat.and_le_left
      have : 2 ^ (x + 1 + 1) = 2 * 2 ^ (x + 1) := by rw [pow_succ]; ring
      omega
  have h4 : x - Nat.land x y = (X &&& ~~~Y).toNat := by omega
  rw [h4, BitVec.testBit_toNat]
  by_cases hj : i < x + 1 + 1
  · rw [BitVec.getLsbD_and, BitVec.getLsbD_not]
    simp only [X, Y, BitVec.getLsbD_ofNat, hj, decide_true, Bool.true_and]
  · rw [BitVec.getLsbD_of_ge _ _ (by omega), Nat.testBit_lt_two_pow (lt_of_lt_of_le hx' (Nat.pow_le_pow_right (by decide) (by omega)))]; rfl

/-! ### Reaching a register -/

theorem State.wakeLogic_awake (h : s.power < 2) (ht : s.pwr.target = none) (n : Nat) : s.wakeLogic n = s := by
  unfold State.wakeLogic
  split
  · rfl
  · rw [ht]; simp [Nat.not_le.mpr h]

theorem State.touch_regs (n : Nat) : (s.touch n).regs = s.regs := by unfold State.touch; split <;> rfl

/-- The registers of DEV and HIF are reached whenever the endpoint is out of PERST_N; the access is a wake source. -/
theorem State.access_near (a : Nat) (f : State → State) (ha : a < 0x20000) (hp : s.hif.perst = false) :
    s.access a f = (f s).wakeLogic 1 := by
  have hh : registerHome a = 0x10 := by
    unfold registerHome
    simp only [show ¬ (0x90000 ≤ a ∧ a < 0xA0000) by omega, show ¬ (0xA0000 ≤ a ∧ a < 0xB0000) by omega,
      show ¬ (0xC0000 ≤ a ∧ a < 0xD0000) by omega, show ¬ (0xE0000 ≤ a ∧ a < 0xE8000) by omega,
      show ¬ (0x120000 ≤ a ∧ a < 0x12F000) by omega, if_false]
  have hs : s.bar0Status a = hsOk := by
    simp [State.bar0Status, hh, show ¬ 0x20000 ≤ a by omega]
  simp [State.access, hp, hs, hh]

/-! ### Writes by access codes -/

theorem Field.part_lo (f : Field) (span : Nat × Nat) : (f.part span).lo = max f.lo span.2 := rfl
theorem Field.part_hi (f : Field) (span : Nat × Nat) : (f.part span).hi = min f.hi span.1 := rfl

theorem State.wr_bit (f : Field) (v i : Nat) (h : f.lo ≤ f.hi) (h' : f.hi < 64) :
    bit ((s.wr f v).stored f.addr).toNat i =
      if f.lo ≤ i ∧ i ≤ f.hi then bit v (i - f.lo) else bit (s.stored f.addr).toNat i := by
  rw [s.stored_wr_self f v ⟨h, h'⟩, bit_setBits _ _ _ _ _ h]

/-- What one step of a fold over the fields of a register does to a bit of it. -/
theorem fold_bit (base : Nat) (step : State → Field → State) (new : Nat → Bool → Bool)
    (hidem : ∀ i b, new i (new i b) = new i b) (span : Nat × Nat)
    (hstep : ∀ (u : State) (f : Field) (i : Nat), f.addr = base → f.lo ≤ f.hi → f.hi < 64 →
      bit ((step u f).stored base).toNat i =
        if (f.part span).lo ≤ i ∧ i ≤ (f.part span).hi then new i (bit (u.stored base).toNat i)
        else bit (u.stored base).toNat i) (i : Nat) :
    ∀ (l : List Field) (u : State), (∀ f ∈ l, f.addr = base ∧ f.lo ≤ f.hi ∧ f.hi < 64) →
      bit ((l.foldl step u).stored base).toNat i =
        if (l.any fun f => decide ((f.part span).lo ≤ i) && decide (i ≤ (f.part span).hi)) = true
        then new i (bit (u.stored base).toNat i) else bit (u.stored base).toNat i := by
  intro l
  induction l with
  | nil => intro u _; simp
  | cons f l ih =>
    intro u hl
    have hf := hl f (by simp)
    rw [List.foldl_cons, ih _ fun g hg => hl g (by simp [hg]), hstep u f i hf.1 hf.2.1 hf.2.2, List.any_cons]
    by_cases h1 : (f.part span).lo ≤ i ∧ i ≤ (f.part span).hi
    · have : (decide ((f.part span).lo ≤ i) && decide (i ≤ (f.part span).hi)) = true := by simp [h1]
      rw [if_pos h1, this, Bool.true_or, if_pos rfl, hidem]
      split <;> rfl
    · have : (decide ((f.part span).lo ≤ i) && decide (i ≤ (f.part span).hi)) = false := by
        simp only [Bool.and_eq_false_iff, decide_eq_false_iff_not]
        by_cases h2 : (f.part span).lo ≤ i
        · exact .inr fun h3 => h1 ⟨h2, h3⟩
        · exact .inl h2
      rw [if_neg h1, this, Bool.false_or]

theorem fold_stored_ne (step : State → Field → State) (base b : Nat)
    (hstep : ∀ (u : State) (f : Field), f.addr = base → (step u f).stored b = u.stored b) :
    ∀ (l : List Field) (u : State), (∀ f ∈ l, f.addr = base) → (l.foldl step u).stored b = u.stored b := by
  intro l
  induction l with
  | nil => intro u _; rfl
  | cons f l ih =>
    intro u hl
    rw [List.foldl_cons, ih _ fun g hg => hl g (by simp [hg]), hstep u f (hl f (by simp))]

theorem mem_fieldsAt {base : Nat} {acc : Access} {f : Field} :
    f ∈ fieldsAt base acc ↔ ∃ r, findReg base = some r ∧ ∃ g ∈ r.fields, g.acc = acc ∧ f = ⟨base, g.hi, g.lo⟩ := by
  unfold fieldsAt
  cases h : findReg base with
  | none => simp
  | some r => simp [List.mem_filter, and_assoc, eq_comm (a := f)]

theorem fieldsAt_valid {base : Nat} {acc : Access} {f : Field} (hf : f ∈ fieldsAt base acc) :
    f.addr = base ∧ f.lo ≤ f.hi ∧ f.hi < 64 := by
  obtain ⟨r, hr, g, hg, _, rfl⟩ := mem_fieldsAt.mp hf
  exact ⟨rfl, RegSpec.field_valid (findReg_ok hr) hg⟩

/-- Whether a field of an access code covers bit `i` of the register within an access. -/
def covered (base : Nat) (acc : Access) (span : Nat × Nat) (i : Nat) : Bool :=
  (fieldsAt base acc).any fun f => decide ((f.part span).lo ≤ i) && decide (i ≤ (f.part span).hi)

/-- A write by access codes, bit by bit (R13). -/
theorem State.writeFields_bit (base : Nat) (span : Nat × Nat) (d i : Nat) :
    bit ((s.writeFields base span d).stored base).toNat i =
      ((if covered base .rw span i then bit d i else bit (s.stored base).toNat i) &&
        !(covered base .w1c span i && bit d i)) := by
  unfold State.writeFields covered
  have hclear : ∀ (u : State) (f : Field) (i : Nat), f.addr = base → f.lo ≤ f.hi → f.hi < 64 →
      bit (((fun (s : State) (f : Field) =>
          (if f.hi < f.lo then s else s.wr f (s.rd f - Nat.land (s.rd f) (bits d f.hi f.lo)))) u (f.part span)).stored base).toNat i =
        if (f.part span).lo ≤ i ∧ i ≤ (f.part span).hi then
          (fun i b => b && !bit d i) i (bit (u.stored base).toNat i)
        else bit (u.stored base).toNat i := by
    intro u f i ha h1 h2
    dsimp only
    by_cases hlt : (f.part span).hi < (f.part span).lo
    · rw [if_pos hlt, if_neg (by omega)]
    · rw [if_neg hlt]
      have hw := State.wr_bit u (f.part span) (u.rd (f.part span) - Nat.land (u.rd (f.part span)) (bits d (f.part span).hi (f.part span).lo))
        i (by omega) (by rw [Field.part_hi]; omega)
      rw [show (f.part span).addr = base from ha] at hw
      rw [hw]
      split
      · next hi =>
        rw [bit_testBit, sub_land_testBit, ← bit_testBit, ← bit_testBit, bit_bits _ _ _ _ (by omega), State.rd,
          bit_bits _ _ _ _ (by omega), show (f.part span).addr = base from ha,
          show i - (f.part span).lo + (f.part span).lo = i by omega]
      · rfl
  have hput : ∀ (u : State) (f : Field) (i : Nat), f.addr = base → f.lo ≤ f.hi → f.hi < 64 →
      bit (((fun (s : State) (f : Field) => if f.hi < f.lo then s else s.wr f (bits d f.hi f.lo)) u (f.part span)).stored base).toNat i =
        if (f.part span).lo ≤ i ∧ i ≤ (f.part span).hi then (fun i _ => bit d i) i (bit (u.stored base).toNat i)
        else bit (u.stored base).toNat i := by
    intro u f i ha h1 h2
    dsimp only
    by_cases hlt : (f.part span).hi < (f.part span).lo
    · rw [if_pos hlt, if_neg (by omega)]
    · rw [if_neg hlt]
      have hw := State.wr_bit u (f.part span) (bits d (f.part span).hi (f.part span).lo) i (by omega)
        (by rw [Field.part_hi]; omega)
      rw [show (f.part span).addr = base from ha] at hw
      rw [hw]
      split
      · next hi =>
        rw [bit_bits _ _ _ _ (by omega), show i - (f.part span).lo + (f.part span).lo = i by omega]
      · rfl
  rw [fold_bit base (fun s f => (fun (s : State) (f : Field) =>
          (if f.hi < f.lo then s else s.wr f (s.rd f - Nat.land (s.rd f) (bits d f.hi f.lo)))) s (f.part span))
      (fun i b => b && !bit d i) (fun i b => by cases b <;> cases bit d i <;> rfl) span hclear i _ _
      fun f hf => fieldsAt_valid hf,
    fold_bit base (fun s f => (fun (s : State) (f : Field) => if f.hi < f.lo then s else s.wr f (bits d f.hi f.lo)) s (f.part span))
      (fun i _ => bit d i) (fun i b => rfl) span hput i _ _ fun f hf => fieldsAt_valid hf]
  generalize (List.any _ _) = x
  generalize (List.any _ _) = y
  cases x <;> cases y <;> simp

/-- A write by access codes leaves every other register. -/
theorem State.writeFields_ne (base b : Nat) (span : Nat × Nat) (d : Nat) (hb : b ≠ base) :
    (s.writeFields base span d).stored b = s.stored b := by
  unfold State.writeFields
  rw [fold_stored_ne _ base b _ _ _ fun f hf => (fieldsAt_valid hf).1,
    fold_stored_ne _ base b _ _ _ fun f hf => (fieldsAt_valid hf).1]
  all_goals
    intro u f hf
    dsimp only
    split
    · rfl
    · exact State.stored_wr_of_ne _ _ _ (by rw [show (f.part span).addr = base from hf]; exact hb)

/-! ### Accesses that reach a register -/

theorem State.elapse_within (dt d n : Nat) : (s.elapse dt).within d n = s.within d n := by
  induction n with
  | zero => rfl
  | succ n ih => simp only [State.within, ih]; rfl
theorem State.elapse_hopsTo (dt t u : Nat) : (s.elapse dt).hopsTo t u = s.hopsTo t u := by
  simp only [State.hopsTo, State.elapse_within]
/-- How the hallway reaches a register does not change while time passes. -/
theorem State.elapse_bar0Status (dt a : Nat) : (s.elapse dt).bar0Status a = s.bar0Status a := by
  have h1 : ∀ t, (s.elapse dt).towerReady t = s.towerReady t := fun _ => rfl
  have h2 : ∀ t, (s.elapse dt).routerUp t = s.routerUp t := fun _ => rfl
  have h3 : (s.elapse dt).power = s.power := rfl
  simp only [State.bar0Status, h1, h2, h3, State.elapse_hopsTo, State.elapse_rdb]

theorem accessOk_iff (a size : Nat) : accessOk a size = true ↔ (size = 8 ∧ a % 8 = 0) ∨ (size = 4 ∧ a % 4 = 0) := by
  simp [accessOk]

/-- A write to a register whose writes do not act goes by its access codes. -/
theorem State.writeAccess_plain (s : State) (a size : Nat) (data : Word)
    (h : a / 8 * 8 ∉ [Reg.HIF.CMDBASE.BASE.addr, Reg.HIF.RPLBASE.BASE.addr, Reg.HIF.EVTBASE.BASE.addr,
      Reg.HIF.RINGSIZE.CMDLOG.addr, Reg.HIF.WBADDR.ADDR.addr, Reg.HIF.CMDTAIL.COUNT.addr, Reg.HIF.RPLHEAD.COUNT.addr,
      Reg.HIF.EVTHEAD.COUNT.addr, Reg.HIF.QCTRL.ENABLE.addr, Reg.STEP.SINGLE.NSTEP.addr, Reg.STEP.CTRL.RUN.addr,
      Reg.HIF.MBOXCTL.GO.addr])
    (hc : ∀ i < 8, a / 8 * 8 ≠ (Reg.TIME.CAP.HI.POP i).addr) :
    s.writeAccess a size data = s.writeFields (a / 8 * 8) (accessSpan a size)
      (data.toNat % 2 ^ (8 * size) * 2 ^ (accessSpan a size).2) := by
  simp only [List.mem_cons, List.not_mem_nil, or_false, not_or] at h
  obtain ⟨h1, h2, h3, h4, h5, h6, h7, h8, h9, h10, h11, h12⟩ := h
  have hn : ∀ f : Field, a / 8 * 8 ≠ f.addr → (f.addr == a / 8 * 8) = false := fun f hf => by
    simpa [beq_eq_false_iff_ne] using Ne.symm hf
  have hs : ringSetupRegs.contains (a / 8 * 8) = false := by
    simp [ringSetupRegs, h1, h2, h3, h4]
  have hh : (Reg.STEP.CTRL.HALT.addr == a / 8 * 8) = false := hn _ h11
  have hp : (List.range 8).find? (fun i => (Reg.TIME.CAP.HI.POP i).addr == a / 8 * 8 &&
      (Reg.TIME.CAP.HI.POP i).within (accessSpan a size) &&
      bit (data.toNat % 2 ^ (8 * size) * 2 ^ (accessSpan a size).2) (Reg.TIME.CAP.HI.POP i).lo) = none := by
    rw [List.find?_eq_none]
    intro i hi
    rw [hn _ (hc i (by simpa using hi))]
    simp
  unfold State.writeAccess
  simp only [hs, h5, hn _ h6, hn _ h7, hn _ h8, hn _ h9, hn _ h10, hn _ h11, hn _ h12, hh, hp, Bool.false_and, Bool.false_eq_true,
    if_false]

theorem span_eq {a size : Nat} (h : accessOk a size = true) : accessSpan a size = (a % 8 * 8 + 8 * size - 1, a % 8 * 8) := by
  rw [accessOk_iff] at h
  unfold accessSpan
  rcases h with ⟨rfl, h⟩ | ⟨rfl, h⟩
  · simp [h]
  · have : a % 8 = 0 ∨ a % 8 = 4 := by omega
    rcases this with h' | h' <;> simp [h']

/-- A domain woken by an access: only the record of its last access changes. -/
theorem State.touch_frame (s : State) (n : Nat) : ∃ d, s.touch n = { s with pwr := { s.pwr with domIdle := d } } := by
  unfold State.touch
  split
  · exact ⟨_, rfl⟩
  · exact ⟨s.pwr.domIdle, rfl⟩

/-- An access that the hallway carries to its register. -/
theorem State.access_reached (s : State) (a : Nat) (f : State → State) (hp : s.hif.perst = false) (hs : s.bar0Status a = hsOk) :
    ∃ d, s.access a f = (f { s with pwr := { s.pwr with domIdle := d } }).wakeLogic 1 := by
  unfold State.access
  simp only [hp, hs, Bool.false_eq_true, if_false, if_true]
  by_cases hh : registerHome a < 0x10
  · obtain ⟨d, h⟩ := s.touch_frame (registerHome a - 8)
    exact ⟨d, by rw [if_pos hh, h]⟩
  · exact ⟨s.pwr.domIdle, by rw [if_neg hh]⟩

theorem fold_frame (step : State → Field → State) (hs : ∀ u f, ∃ r, step u f = { u with regs := r }) :
    ∀ (l : List Field) (u : State), ∃ r, l.foldl step u = { u with regs := r } := by
  intro l
  induction l with
  | nil => exact fun u => ⟨u.regs, rfl⟩
  | cons f l ih =>
    intro u
    obtain ⟨r, hr⟩ := hs u f
    obtain ⟨r', hr'⟩ := ih (step u f)
    exact ⟨r', by rw [List.foldl_cons, hr', hr]⟩

/-- A write by access codes changes registers only. -/
theorem State.writeFields_frame (s : State) (base : Nat) (span : Nat × Nat) (d : Nat) :
    ∃ r, s.writeFields base span d = { s with regs := r } := by
  unfold State.writeFields
  obtain ⟨r, hr⟩ := fold_frame (fun (s : State) f => (fun (s : State) (f : Field) =>
    if f.hi < f.lo then s else s.wr f (bits d f.hi f.lo)) s (f.part span))
    (fun u f => by dsimp only; split; exacts [⟨_, rfl⟩, ⟨_, rfl⟩]) (fieldsAt base .rw) s
  obtain ⟨r', hr'⟩ := fold_frame (fun (s : State) f => (fun (s : State) (f : Field) =>
    if f.hi < f.lo then s else s.wr f (s.rd f - Nat.land (s.rd f) (bits d f.hi f.lo))) s (f.part span))
    (fun u f => by dsimp only; split; exacts [⟨_, rfl⟩, ⟨_, rfl⟩]) (fieldsAt base .w1c) { s with regs := r }
  exact ⟨r', by dsimp only at hr hr' ⊢; rw [hr, hr']⟩

/-- No plain write reaches the power state. -/
theorem State.writeFields_power (s : State) (base : Nat) (span : Nat × Nat) (d : Nat) :
    (s.writeFields base span d).power = s.power := by
  by_cases hb : base = 0x60000
  · subst hb
    have h1 : fieldsAt 0x60000 .rw = [] := by decide
    have h2 : fieldsAt 0x60000 .w1c = [] := by decide
    simp [State.writeFields, h1, h2]
  · unfold State.power State.rd
    rw [s.writeFields_ne base _ span d (show Reg.PWR.STATE.STATE.addr ≠ base from Ne.symm hb)]

theorem covered_iff (base : Nat) (acc : Access) (span : Nat × Nat) (i : Nat) (r : RegSpec) (hr : findReg base = some r) :
    covered base acc span i = r.fields.any fun f => decide (f.acc = acc) &&
      (decide (max f.lo span.2 ≤ i) && decide (i ≤ min f.hi span.1)) := by
  unfold covered fieldsAt
  rw [hr]
  simp only [List.any_map, List.any_filter]
  rfl

/-- A field of a row is the only one that covers its bits. -/
theorem covered_field (base : Nat) (acc : Access) (span : Nat × Nat) (i : Nat) (r : RegSpec) (hr : findReg base = some r)
    (f : FieldSpec) (hf : f ∈ r.fields) (hi : f.lo ≤ i ∧ i ≤ f.hi) :
    covered base acc span i = (decide (f.acc = acc) && (decide (span.2 ≤ i) && decide (i ≤ span.1))) := by
  rw [covered_iff base acc span i r hr]
  rw [Bool.eq_iff_iff, List.any_eq_true]
  simp only [Bool.and_eq_true, decide_eq_true_eq]
  constructor
  · rintro ⟨g, hg, hacc, h1, h2⟩
    have : g = f := by
      by_contra hne
      have := RegSpec.fields_apart (findReg_ok hr) hg hf hne
      omega
    subst this
    exact ⟨hacc, by omega, by omega⟩
  · rintro ⟨hacc, h1, h2⟩
    exact ⟨f, hf, hacc, by omega, by omega⟩

/-! ### Reads and the fields they clear -/

/-- Equal bits make equal fields. -/
theorem bits_congr {x y hi lo : Nat} (h : ∀ i, lo ≤ i → i ≤ hi → bit x i = bit y i) : bits x hi lo = bits y hi lo := by
  apply Nat.eq_of_testBit_eq
  intro i
  by_cases hi' : i < hi + 1 - lo
  · rw [← bit_testBit, ← bit_testBit, bit_bits _ _ _ _ hi', bit_bits _ _ _ _ hi', h (i + lo) (by omega) (by omega)]
  · have hz : ∀ n, (bits n hi lo).testBit i = false := fun n =>
      Nat.testBit_lt_two_pow (lt_of_lt_of_le (Nat.mod_lt _ (by positivity)) (Nat.pow_le_pow_right (by decide) (by omega)))
    rw [hz, hz]

/-- The fields that a read clears (R14). -/
def clears (base : Nat) (span : Nat × Nat) : List Field := (fieldsAt base .rc).filter fun f => f.within span

theorem wrZero_frame (l : List Field) : ∀ s : State, ∃ r, l.foldl (fun s f => s.wr f 0) s = { s with regs := r } :=
  fold_frame _ (fun _ _ => ⟨_, rfl⟩) l

/-- A bit of the register after a read has cleared its fields. -/
theorem clears_bit (s : State) (base : Nat) (span : Nat × Nat) (i : Nat) :
    bit (((clears base span).foldl (fun s f => s.wr f 0) s).stored base).toNat i =
      (bit (s.stored base).toNat i && !(clears base span).any fun f => decide (f.lo ≤ i) && decide (i ≤ f.hi)) := by
  have hv : ∀ f ∈ clears base span, f.addr = base ∧ f.lo ≤ f.hi ∧ f.hi < 64 :=
    fun f hf => fieldsAt_valid (List.mem_of_mem_filter hf)
  have hstep : ∀ (u : State) (f : Field) (i : Nat), f.addr = base → f.lo ≤ f.hi → f.hi < 64 →
      bit ((u.wr f 0).stored base).toNat i =
        if (f.part (63, 0)).lo ≤ i ∧ i ≤ (f.part (63, 0)).hi then (fun _ _ => false) i (bit (u.stored base).toNat i)
        else bit (u.stored base).toNat i := by
    intro u f i ha h1 h2
    have hw := State.wr_bit u f 0 i h1 h2
    rw [ha] at hw
    have e : ((f.part (63, 0)).lo ≤ i ∧ i ≤ (f.part (63, 0)).hi) ↔ (f.lo ≤ i ∧ i ≤ f.hi) := by
      rw [Field.part_lo, Field.part_hi]; dsimp only; omega
    rw [hw, if_congr e rfl rfl]
    simp [bit]
  rw [fold_bit base (fun s f => s.wr f 0) (fun _ _ => false) (fun _ _ => rfl) (63, 0) hstep i _ _ hv]
  have e : ((clears base span).any fun f => decide ((f.part (63, 0)).lo ≤ i) && decide (i ≤ (f.part (63, 0)).hi)) =
      (clears base span).any fun f => decide (f.lo ≤ i) && decide (i ≤ f.hi) := by
    rw [Bool.eq_iff_iff, List.any_eq_true, List.any_eq_true]
    refine exists_congr fun f => and_congr_right fun hf => ?_
    obtain ⟨_, h1, h2⟩ := hv f hf
    rw [Field.part_lo, Field.part_hi]
    simp only [Bool.and_eq_true, decide_eq_true_eq]
    omega
  rw [e]
  generalize (List.any _ _) = x
  cases x <;> simp

theorem clears_ne (s : State) (base b : Nat) (span : Nat × Nat) (hb : b ≠ base) :
    ((clears base span).foldl (fun s f => s.wr f 0) s).stored b = s.stored b :=
  fold_stored_ne _ base b (fun u f hf => State.stored_wr_of_ne _ _ _ (by rw [hf]; exact hb)) _ _
    fun f hf => (fieldsAt_valid (List.mem_of_mem_filter hf)).1

/-- A field of the row after a read: an RC field that the read returns whole is clear, every other is as it was (R14). -/
theorem clears_rd (s : State) (base : Nat) (span : Nat × Nat) (r : RegSpec) (hr : findReg base = some r) (f : FieldSpec)
    (hf : f ∈ r.fields) :
    ((clears base span).foldl (fun s f => s.wr f 0) s).rd ⟨base, f.hi, f.lo⟩ =
      if f.acc = .rc ∧ span.2 ≤ f.lo ∧ f.hi ≤ span.1 then 0 else s.rd ⟨base, f.hi, f.lo⟩ := by
  have hv := RegSpec.field_valid (findReg_ok hr) hf
  have hany : ∀ i, f.lo ≤ i → i ≤ f.hi →
      ((clears base span).any fun g => decide (g.lo ≤ i) && decide (i ≤ g.hi)) =
        decide (f.acc = .rc ∧ span.2 ≤ f.lo ∧ f.hi ≤ span.1) := by
    intro i h1 h2
    rw [Bool.eq_iff_iff, List.any_eq_true]
    simp only [clears, List.mem_filter, mem_fieldsAt, Field.within, Bool.and_eq_true, decide_eq_true_eq]
    constructor
    · rintro ⟨x, ⟨⟨r', hr', g, hg, hacc, rfl⟩, h3, h4⟩, h5, h6⟩
      rw [hr] at hr'; cases hr'
      have : g = f := by
        by_contra hne
        have := RegSpec.fields_apart (findReg_ok hr) hg hf hne
        dsimp only at h5 h6
        omega
      subst this
      exact ⟨hacc, h3, h4⟩
    · rintro ⟨hacc, h3, h4⟩
      exact ⟨⟨base, f.hi, f.lo⟩, ⟨⟨r, hr, f, hf, hacc, rfl⟩, h3, h4⟩, h1, h2⟩
  unfold State.rd
  dsimp only
  split
  · next hc =>
    rw [bits_congr (y := 0)]
    · simp [bits]
    · intro i h1 h2
      rw [clears_bit, hany i h1 h2, decide_eq_true hc]
      simp [bit]
  · next hc =>
    apply bits_congr
    intro i h1 h2
    rw [clears_bit, hany i h1 h2, decide_eq_false hc]
    simp

theorem setBits_zeros (l : List Field) (i : Nat) (hl : ∀ f ∈ l, f.lo ≤ f.hi) : ∀ n : Nat,
    bit (l.foldl (fun w f => setBits w f.hi f.lo 0) n) i =
      (bit n i && !l.any fun f => decide (f.lo ≤ i) && decide (i ≤ f.hi)) := by
  induction l with
  | nil => simp
  | cons f l ih =>
    intro n
    rw [List.foldl_cons, ih (fun g hg => hl g (by simp [hg])), bit_setBits _ _ _ _ _ (hl f (by simp)), List.any_cons]
    by_cases h : f.lo ≤ i ∧ i ≤ f.hi
    · rw [if_pos h]; simp [bit, h]
    · rw [if_neg h]
      have : (decide (f.lo ≤ i) && decide (i ≤ f.hi)) = false := by
        simp only [Bool.and_eq_false_iff, decide_eq_false_iff_not]; omega
      rw [this, Bool.false_or]

/-- What a read of a register returns, bit by bit: the bits of the part it covers, zero for those of WO fields (R13). -/
theorem readAccess_bit (s : State) (a size i : Nat) (r : RegSpec) (hr : findReg (a / 8 * 8) = some r)
    (hok : accessOk a size = true) (hi : i < 8 * size) :
    bit ((s.readAccess a size).1).toNat i =
      (bit (s.readReg (a / 8 * 8)).toNat (i + a % 8 * 8) &&
        !r.fields.any fun f => decide (f.acc = .wo) && decide (f.lo ≤ i + a % 8 * 8) && decide (i + a % 8 * 8 ≤ f.hi)) := by
  unfold State.readAccess
  dsimp only
  have h64 : i < 64 := by rw [accessOk_iff] at hok; omega
  rw [bit_toWord _ _ h64, span_eq hok]
  dsimp only
  rw [bit_bits _ _ _ _ (by rw [accessOk_iff] at hok; omega), setBits_zeros _ _ fun f hf => (fieldsAt_valid hf).2.1]
  congr 2
  unfold fieldsAt
  rw [hr]
  simp only [List.any_map, List.any_filter, Bool.and_assoc]
  rfl

theorem State.readAccess_state (s : State) (a size : Nat) (h : ¬ (a / 8 * 8 = Reg.TIME.NOWNS.NS.addr ∧ size = 8)) :
    (s.readAccess a size).2 = (clears (a / 8 * 8) (accessSpan a size)).foldl (fun s f => s.wr f 0) s := by
  unfold State.readAccess clears
  dsimp only
  rw [if_neg h]

theorem clears_power (s : State) (base : Nat) (span : Nat × Nat) :
    ((clears base span).foldl (fun s f => s.wr f 0) s).power = s.power := by
  by_cases hb : base = 0x60000
  · subst hb
    have h1 : fieldsAt 0x60000 .rc = [] := by decide
    simp [clears, h1]
  · unfold State.power State.rd
    rw [clears_ne s base _ span (show Reg.PWR.STATE.STATE.addr ≠ base from Ne.symm hb)]

end Sys2Proof.Machine
end

