-- ==== Sys2Proof/Laws/Keeper.lean ====
section
/-! SUPPORT. Laws of Keeper's command paths: a command row issues the command of its opcode, and a packet of the service port is
read back as the command that it spells. -/

namespace Sys2Proof.Machine

/-- A command row issues the command of its opcode (R492). -/
theorem exec_asCommand {i : Instr} {dt op : Nat} {h : CmdHdr} {ws : List Word} (hi : i.asCommand = some (dt, op, h, ws))
    (s : State) : exec i s = s.event dt fun s => s.issueCmd (commandOf op) h ws := by
  cases i <;> simp only [Instr.asCommand, Option.some.injEq, Prod.mk.injEq, reduceCtorEq] at hi <;>
    (obtain ⟨rfl, rfl, rfl, rfl⟩ := hi; simp only [exec]; rfl)

/-- The opcodes of the table are 16 bits wide, and each selects a command of that opcode (R492). -/
theorem asCommand_op {i : Instr} {dt op : Nat} {h : CmdHdr} {ws : List Word} (hi : i.asCommand = some (dt, op, h, ws)) :
    op < 2 ^ 16 ∧ (commandOf op).op = op := by
  cases i <;> simp only [Instr.asCommand, Option.some.injEq, Prod.mk.injEq, reduceCtorEq] at hi <;>
    (obtain ⟨rfl, rfl, rfl, rfl⟩ := hi; exact ⟨by decide, rfl⟩)

/-! ### Packets -/

theorem header_arith (op seq epoch b f : Nat) (ho : op < 65536) (hs : seq < 65536) (he : epoch < 256) (hb : b < 2) (hf : f < 2)
    (n : Nat) (hn : n = op + seq * 65536 + epoch * 4294967296 + b * 2199023255552 + f * 4398046511104) :
    n < 8796093022208 ∧ n % 65536 = op ∧ n / 65536 % 65536 = seq ∧ n / 4294967296 % 256 = epoch ∧ n / 1099511627776 % 2 = 0 ∧
      n / 2199023255552 % 2 = b ∧ n / 4398046511104 % 2 = f := by
  subst hn
  refine ⟨by omega, by omega, by omega, by omega, by omega, by omega, by omega⟩

theorem b2n_lt (b : Bool) : b2n b < 2 := by cases b <;> decide
theorem b2n_eq_one (b : Bool) : (b2n b == 1) = b := by cases b <;> rfl

theorem badBits_low (n k : Nat) (h : n < 2 ^ (k + 1)) : badBits n [(k, 0)] = false := by
  simp [badBits, bits, Nat.mod_eq_of_lt h]

/-- The fields of a command packet's first header word (R482). -/
theorem header_fields (op seq epoch : Nat) (b f : Bool) (ho : op < 2 ^ 16) (hs : seq < 2 ^ 16) (he : epoch < 2 ^ 8) :
    let w := toWord (op + seq * 2 ^ 16 + epoch * 2 ^ 32 + b2n b * 2 ^ 41 + b2n f * 2 ^ 42)
    fieldOf w 15 0 = op ∧ fieldOf w 31 16 = seq ∧ fieldOf w 39 32 = epoch ∧ flagOf w 40 = false ∧ flagOf w 41 = b ∧
      flagOf w 42 = f ∧ badBits w.toNat [(42, 0)] = false := by
  intro w
  obtain ⟨a0, a1, a2, a3, a4, a5, a6⟩ := header_arith op seq epoch (b2n b) (b2n f) ho hs he (b2n_lt b) (b2n_lt f) _ rfl
  have hw : w.toNat = op + seq * 65536 + epoch * 4294967296 + b2n b * 2199023255552 + b2n f * 4398046511104 := by
    refine (BitVec.toNat_ofNat _ _).trans (Nat.mod_eq_of_lt ?_)
    exact lt_trans a0 (show (8796093022208 : Nat) < 2 ^ 64 by decide)
  generalize op + seq * 65536 + epoch * 4294967296 + b2n b * 2199023255552 + b2n f * 4398046511104 = n at *
  simp only [fieldOf, flagOf, bits, bit, hw]
  refine ⟨by simpa using a1, a2, a3, by rw [show (2:Nat) ^ 40 = 1099511627776 from rfl, a4]; rfl,
    by rw [show (2:Nat) ^ 41 = 2199023255552 from rfl, a5]; exact b2n_eq_one b,
    by rw [show (2:Nat) ^ 42 = 4398046511104 from rfl, a6]; exact b2n_eq_one f, badBits_low _ _ a0⟩

theorem small_word (n : Nat) (h : n < 2 ^ 20) : fieldOf (toWord n) 19 0 = n ∧ badBits (toWord n).toNat [(19, 0)] = false := by
  have hw : (toWord n).toNat = n := by
    rw [toWord, BitVec.toNat_ofNat, Nat.mod_eq_of_lt (lt_trans h (show (2 : Nat) ^ 20 < 2 ^ 64 by decide))]
  refine ⟨?_, badBits_low _ _ (by rw [hw]; exact h)⟩
  rw [fieldOf, bits, hw]
  simpa using Nat.mod_eq_of_lt h

/-- The packet of a command, read back through the service port, is the command (R482, R484). -/
theorem parse_packetWords (s : State) (op : Nat) (h : CmdHdr) (ws : List Word) (desc : HostRead) (ho : op < 2 ^ 16)
    (hf : h.fits = true) (hp : h.path = .service) (hl : ws.length + 2 ≤ 8192) :
    s.parse .service ((packetWords op h ws).getD 0 0) ((packetWords op h ws).getD 1 0) ((packetWords op h ws).drop 2) desc =
      packetOf s op h ws := by
  obtain ⟨path, seq, epoch, fence, rbuf⟩ := h
  simp only at hp
  subst hp
  simp only [CmdHdr.fits, Bool.and_eq_true, decide_eq_true_eq] at hf
  obtain ⟨⟨h1, h2⟩, h3⟩ := hf
  obtain ⟨e1, e2, e3, e4, e5, e6, e7⟩ := header_fields op seq epoch rbuf.isSome fence ho h1 h2
  generalize hw : toWord (op + seq * 2 ^ 16 + epoch * 2 ^ 32 + b2n rbuf.isSome * 2 ^ 41 + b2n fence * 2 ^ 42) = w at e1 e2 e3 e4 e5 e6 e7
  unfold packetWords
  simp only [hw]
  clear hw
  cases rbuf with
  | none =>
    have hn := small_word ws.length (lt_of_le_of_lt (Nat.le_of_add_right_le hl) (by decide))
    simp only [Option.isSome_none] at e5
    simp [State.parse, e1, e2, e3, e4, e5, e6, e7, hn.2, packetOf, badRbuf]
  | some b =>
    obtain ⟨ad, cap⟩ := b
    simp only [Bool.and_eq_true, decide_eq_true_eq] at h3
    have hn := small_word (1 + 1 + ws.length) (lt_of_le_of_lt (show _ ≤ 8192 by omega) (by decide))
    have hc := small_word cap h3.2
    have ha : (toWord ad).toNat = ad := by rw [toWord, BitVec.toNat_ofNat, Nat.mod_eq_of_lt h3.1]
    have hc' : bits (toWord cap).toNat 19 0 = cap := hc.1
    have hcap : ¬ 2 ^ 20 ≤ cap := Nat.not_le.mpr h3.2
    have hl2 : ¬ ws.length + 1 + 1 < 2 := by omega
    simp only [Option.isSome_some] at e5
    simp only [List.cons_append, List.nil_append, List.getD_cons_zero, List.length_cons, List.length_nil,
      List.getD_cons_succ, List.drop_succ_cons, List.drop_zero, Nat.zero_add, State.parse, e1, e2, e3, e4, e5, e6, e7, hn.2,
      packetOf, badRbuf, badDesc, ha, hc', hc.2, hcap, hl2, Bool.true_and, Bool.false_and, Bool.or_false,
      if_true, decide_false, Bool.not_false, Bool.and_true, reduceCtorEq, false_and, if_false]
    simp

end Sys2Proof.Machine
end

