-- ==== Sys2Proof/Laws/Commands.lean ====
section
/-! SUPPORT. From a row of the table to its meaning: an event outside reset, a command of Keeper that is accepted, the fields of
its payload. -/

namespace Sys2Proof.Machine

/-- An event outside reset leaves what its effect leaves. -/
theorem State.event_eq {s : State} (h : s.inReset = false) (dt : Nat) (f g : State → State)
    (hfg : f (s.elapse dt) = g (s.elapse dt)) : s.event dt f = .next (s.after dt g) := by
  rw [State.event_outside h]; simp only [State.after, hfg]

theorem State.accepts_length {s : State} {dt : Nat} {h : CmdHdr} {l b r : Bool} (ha : s.accepts dt h l b r = true) :
    l = true := by
  unfold State.accepts State.takes at ha
  simp only [Bool.and_eq_true] at ha
  exact ha.2.1.1.1.2

theorem State.accepts_outside {s : State} {dt : Nat} {h : CmdHdr} {l b r : Bool} (ha : s.accepts dt h l b r = true) :
    s.inReset = false := by
  unfold State.accepts at ha
  simp only [Bool.and_eq_true, Bool.not_eq_true'] at ha
  exact ha.1

/-- A command row whose command is accepted leaves what the command's meaning leaves. -/
theorem State.command_row {s : State} (k : Command) (dt : Nat) (h : CmdHdr) (ws : List Word) {l b r : Bool}
    (ha : s.accepts dt h l b r = true) (hl : l = true → k.len ws = true) (hb : k.svcOnly = b) (hr : k.inRom = r)
    (op : Nat) (ho : k.op = op) (effect : Cmd → State → State)
    (he : ∀ (c : Cmd) (u : State), c.fail = none → c.payload = ws → c = (s.elapse dt).cmdOf op h ws →
      u = (s.elapse dt).begun op h ws → k.body c u = effect c u) :
    s.event dt (fun u => u.issueCmd k h ws) = .next (s.afterCmd dt op h ws effect) := by
  have h0 := State.accepts_length ha
  have hl' := hl h0
  subst hb hr ho
  have ha : s.accepts dt h (k.len ws) k.svcOnly k.inRom = true := by rw [hl']; rw [h0] at ha; exact ha
  rw [State.cmd_accepted k dt h ws ha]
  unfold State.afterCmd State.after
  simp only [he _ _ rfl rfl rfl rfl]

/-! ### Payload fields -/

section
variable {c : Cmd} {ws : List Word} (h : c.payload = ws)
include h
theorem Cmd.w_of (i : Nat) : c.w i = (ws.getD i 0).toNat := by subst h; rfl
theorem Cmd.b_of (i k : Nat) : c.b i k = flagOf (ws.getD i 0) k := by subst h; rfl
theorem Cmd.f_of (i a b : Nat) : c.f i a b = fieldOf (ws.getD i 0) a b := by subst h; rfl
end

theorem onlyBits_iff (ws : List Word) (i : Nat) (f : List (Nat × Nat)) :
    onlyBits ws i f = true ↔ badBits (ws.getD i 0).toNat f = false := by simp [onlyBits]

theorem Cmd.reserved_one {c : Cmd} {ws : List Word} (h : c.payload = ws) {f : List (Nat × Nat)}
    (hf : onlyBits ws 0 f = true) : c.reserved [f] = false := by
  rw [onlyBits_iff] at hf
  simp only [Cmd.reserved, Cmd.w_of h, List.zipIdx_cons, List.zipIdx_nil, List.any_cons, List.any_nil, hf, Bool.or_false]

theorem Cmd.reserved_two {c : Cmd} {ws : List Word} (h : c.payload = ws) {f g : List (Nat × Nat)}
    (hf : onlyBits ws 0 f = true) (hg : onlyBits ws 1 g = true) : c.reserved [f, g] = false := by
  rw [onlyBits_iff] at hf hg
  simp only [Cmd.reserved, Cmd.w_of h, List.zipIdx_cons, List.zipIdx_nil, List.any_cons, List.any_nil, hf, hg, Bool.or_false]

/-! ### The state a command starts in -/

variable (s : State) (op : Nat) (h : CmdHdr) (ws : List Word)

/-- A command that starts changes only the commands in progress, and BUSY of its mailbox. -/
theorem State.begun_eq : ∃ r, s.begun op h ws = { s with
    regs := r, hif := { s.hif with nextId := s.hif.nextId + 1, running := s.hif.running ++ [s.cmdOf op h ws] } } := by
  unfold State.begun; split
  · exact ⟨_, rfl⟩
  · exact ⟨s.regs, rfl⟩

theorem State.begun_stored {a : Nat} (ha : a ≠ Reg.HIF.MBOXCTL.BUSY.addr) : (s.begun op h ws).stored a = s.stored a := by
  unfold State.begun; split
  · exact s.stored_wr_of_ne _ _ ha
  · rfl

theorem State.begun_rd {f : Field} (hf : f.addr ≠ Reg.HIF.MBOXCTL.BUSY.addr) : (s.begun op h ws).rd f = s.rd f := by
  simp only [State.rd, s.begun_stored op h ws hf]

theorem State.begun_rdb {f : Field} (hf : f.addr ≠ Reg.HIF.MBOXCTL.BUSY.addr) : (s.begun op h ws).rdb f = s.rdb f := by
  simp only [State.rdb, s.begun_rd op h ws hf]

theorem State.begun_running : (s.begun op h ws).hif.running = s.hif.running ++ [s.cmdOf op h ws] := by
  obtain ⟨r, e⟩ := s.begun_eq op h ws; rw [e]

/-- A command with a fresh identity is the one that its identity names. -/
theorem State.begun_find (hf : s.freshId) : (s.begun op h ws).running s.hif.nextId = some (s.cmdOf op h ws) := by
  unfold State.running
  rw [State.begun_running, List.find?_append, List.find?_eq_none.mpr fun d hd => by simpa using hf.1 d hd]
  simp [State.cmdOf]

end Sys2Proof.Machine
end

