-- ==== Sys2Proof/Laws/Host.lean ====
section
/-! SUPPORT. What Keeper's posts and replies change: the registers of the host link, its queues, and what the device sends.
Everything else stays. -/

namespace Sys2Proof.Machine

/-- `t` is `s` but for the registers of the host link, its queues and what the device has sent. -/
def HostOnly (s t : State) : Prop :=
  (∃ r o h, t = { s with regs := r, out := o, hif := h }) ∧ ∀ a, a < 0x10000 ∨ 0x20000 ≤ a → t.stored a = s.stored a

theorem HostOnly.refl (s : State) : HostOnly s s := ⟨⟨s.regs, s.out, s.hif, rfl⟩, fun _ _ => rfl⟩

theorem HostOnly.trans {s t u : State} (h1 : HostOnly s t) (h2 : HostOnly t u) : HostOnly s u := by
  obtain ⟨⟨r, o, h, rfl⟩, e1⟩ := h1
  obtain ⟨⟨r', o', h', rfl⟩, e2⟩ := h2
  exact ⟨⟨r', o', h', rfl⟩, fun a ha => (e2 a ha).trans (e1 a ha)⟩

section
variable {s t : State} (h : HostOnly s t)
include h
theorem HostOnly.now : t.now = s.now := by obtain ⟨⟨r, o, x, rfl⟩, _⟩ := h; rfl
theorem HostOnly.free : t.free = s.free := by obtain ⟨⟨r, o, x, rfl⟩, _⟩ := h; rfl
theorem HostOnly.inReset : t.inReset = s.inReset := by obtain ⟨⟨r, o, x, rfl⟩, _⟩ := h; rfl
theorem HostOnly.step : t.step = s.step := by obtain ⟨⟨r, o, x, rfl⟩, _⟩ := h; rfl
theorem HostOnly.fab : t.fab = s.fab := by obtain ⟨⟨r, o, x, rfl⟩, _⟩ := h; rfl
theorem HostOnly.cfg : t.cfg = s.cfg := by obtain ⟨⟨r, o, x, rfl⟩, _⟩ := h; rfl
theorem HostOnly.attic : t.attic = s.attic := by obtain ⟨⟨r, o, x, rfl⟩, _⟩ := h; rfl
theorem HostOnly.corr : t.corr = s.corr := by obtain ⟨⟨r, o, x, rfl⟩, _⟩ := h; rfl
theorem HostOnly.noc : t.noc = s.noc := by obtain ⟨⟨r, o, x, rfl⟩, _⟩ := h; rfl
theorem HostOnly.g6 : t.g6 = s.g6 := by obtain ⟨⟨r, o, x, rfl⟩, _⟩ := h; rfl
theorem HostOnly.crypt : t.crypt = s.crypt := by obtain ⟨⟨r, o, x, rfl⟩, _⟩ := h; rfl
theorem HostOnly.groups : t.groups = s.groups := by obtain ⟨⟨r, o, x, rfl⟩, _⟩ := h; rfl
theorem HostOnly.time : t.time = s.time := by obtain ⟨⟨r, o, x, rfl⟩, _⟩ := h; rfl
theorem HostOnly.ledger : t.ledger = s.ledger := by obtain ⟨⟨r, o, x, rfl⟩, _⟩ := h; rfl
theorem HostOnly.clk : t.clk = s.clk := by obtain ⟨⟨r, o, x, rfl⟩, _⟩ := h; rfl
theorem HostOnly.pwr : t.pwr = s.pwr := by obtain ⟨⟨r, o, x, rfl⟩, _⟩ := h; rfl
theorem HostOnly.fw : t.fw = s.fw := by obtain ⟨⟨r, o, x, rfl⟩, _⟩ := h; rfl
theorem HostOnly.dev : t.dev = s.dev := by obtain ⟨⟨r, o, x, rfl⟩, _⟩ := h; rfl
theorem HostOnly.dbg : t.dbg = s.dbg := by obtain ⟨⟨r, o, x, rfl⟩, _⟩ := h; rfl
theorem HostOnly.pins : t.pins = s.pins := by obtain ⟨⟨r, o, x, rfl⟩, _⟩ := h; rfl
theorem HostOnly.pending : t.pending = s.pending := by obtain ⟨⟨r, o, x, rfl⟩, _⟩ := h; rfl
theorem HostOnly.stored {a : Nat} (ha : a < 0x10000 ∨ 0x20000 ≤ a) : t.stored a = s.stored a := h.2 a ha
theorem HostOnly.rd {f : Field} (hf : f.addr < 0x10000 ∨ 0x20000 ≤ f.addr) : t.rd f = s.rd f := by
  simp only [State.rd, h.2 _ hf]
theorem HostOnly.rdb {f : Field} (hf : f.addr < 0x10000 ∨ 0x20000 ≤ f.addr) : t.rdb f = s.rdb f := by
  simp only [State.rdb, h.rd hf]
end

variable (s : State)

/-! ### Single changes -/

theorem State.hostOnly_store (a : Nat) (w : Word) (ha : 0x10000 ≤ a ∧ a < 0x20000) : HostOnly s (s.store a w) :=
  ⟨⟨_, s.out, s.hif, rfl⟩, fun b hb => s.stored_store_of_ne w (by omega)⟩

theorem State.hostOnly_wr (f : Field) (v : Nat) (hf : 0x10000 ≤ f.addr ∧ f.addr < 0x20000) : HostOnly s (s.wr f v) :=
  s.hostOnly_store _ _ hf

theorem State.hostOnly_count (f : Field) (n : Nat) (hf : 0x10000 ≤ f.addr ∧ f.addr < 0x20000) : HostOnly s (s.count f n) :=
  s.hostOnly_store _ _ hf

theorem State.hostOnly_send (m : PcieMsg) : HostOnly s (s.send m) := ⟨⟨s.regs, _, s.hif, rfl⟩, fun _ _ => rfl⟩

theorem State.hostOnly_hif (h : Hif) : HostOnly s { s with hif := h } := ⟨⟨s.regs, s.out, h, rfl⟩, fun _ _ => rfl⟩

theorem hostOnly_foldl {α : Type} (f : State → α → State) (hf : ∀ u x, HostOnly u (f u x)) (l : List α) :
    ∀ s : State, HostOnly s (l.foldl f s) := by
  induction l with
  | nil => exact HostOnly.refl
  | cons x l ih => exact fun s => (hf s x).trans (ih _)

/-! ### Writes to host memory and interrupts -/

theorem State.hostOnly_writeHost (a : Nat) (ws : List Word) : HostOnly s (s.writeHost a ws) :=
  hostOnly_foldl _ (fun u _ => u.hostOnly_send _) _ s

theorem State.hostOnly_writeBack : HostOnly s s.writeBack := s.hostOnly_writeHost _ _

theorem State.hostOnly_sendMsix (v : Nat) : HostOnly s (s.sendMsix v) := by
  unfold State.sendMsix; split
  · exact s.hostOnly_send _
  · exact HostOnly.refl s

theorem State.hostOnly_msix (v : Nat) : HostOnly s (s.msix v) := by
  unfold State.msix; dsimp only
  split
  · exact s.hostOnly_sendMsix v
  · split
    · split
      · exact s.hostOnly_hif _
      · exact (s.hostOnly_sendMsix v).trans (State.hostOnly_hif _ _)
    · exact (s.hostOnly_sendMsix v).trans (State.hostOnly_hif _ _)

/-! ### Events -/

theorem State.hostOnly_postNow (code sev src detail : Nat) : HostOnly s (s.postNow code sev src detail) := by
  unfold State.postNow; dsimp only
  split
  · exact ((((s.hostOnly_writeHost _ _).trans (State.hostOnly_wr _ _ _ (by decide))).trans
      (State.hostOnly_hif _ _)).trans (State.hostOnly_writeBack _)).trans (State.hostOnly_msix _ _)
  · exact (s.hostOnly_count _ _ (by decide)).trans (State.hostOnly_hif _ _)

theorem State.hostOnly_post (code sev src detail : Nat) : HostOnly s (s.post code sev src detail) := by
  unfold State.post
  split
  · exact HostOnly.refl s
  · split
    · exact s.hostOnly_hif _
    · exact s.hostOnly_postNow _ _ _ _

theorem State.hostOnly_postLimited (code key sev src detail : Nat) : HostOnly s (s.postLimited code key sev src detail) := by
  unfold State.postLimited
  split
  · exact s.hostOnly_hif _
  · exact (s.hostOnly_post _ _ _ _).trans (State.hostOnly_hif _ _)

/-! ### Replies -/

theorem State.hostOnly_writeRbuf (r : Reply) : HostOnly s (s.writeRbuf r) := by
  unfold State.writeRbuf; split
  · exact s.hostOnly_writeHost _ _
  · exact HostOnly.refl s

/-- At most eight words of a reply go to the mailbox's registers. -/
theorem mailboxWords (r : Reply) : (r.packet 6).length ≤ 8 := by
  unfold Reply.packet
  cases h : r.rbuf with
  | none => simp; omega
  | some b => simp

theorem State.hostOnly_mailboxReply (r : Reply) : HostOnly s (s.mailboxReply r) := by
  unfold State.mailboxReply; dsimp only
  refine (((s.hostOnly_writeRbuf r).trans ?_).trans ((State.hostOnly_wr _ _ _ (by decide)).trans
    (State.hostOnly_wr _ _ _ (by decide)))).trans (State.hostOnly_msix _ _)
  have hl := mailboxWords r
  generalize s.writeRbuf r = u
  have hi : ∀ x ∈ (r.packet 6).zipIdx, x.2 < 8 := fun x hx => by
    have := (List.mem_zipIdx hx).2.1; omega
  generalize (r.packet 6).zipIdx = l at hi
  induction l generalizing u with
  | nil => exact HostOnly.refl u
  | cons x l ih =>
    refine (u.hostOnly_store _ _ ?_).trans (ih _ fun y hy => hi y (by simp [hy]))
    have := hi x (by simp)
    simp only [Reg.HIF.MBOXR.WORD]; omega

theorem State.hostOnly_deliver (r : Reply) : HostOnly s (s.deliver r) := by
  unfold State.deliver
  split
  · exact s.hostOnly_hif _
  · split
    · exact s.hostOnly_hif _
    · exact s.hostOnly_mailboxReply r
  · exact s.hostOnly_hif _

theorem State.hostOnly_answer (c : Cmd) (status detail : Nat) (payload : List Word) :
    HostOnly s (s.answer c status detail payload) :=
  (s.hostOnly_hif _).trans (State.hostOnly_deliver _ _)

theorem State.hostOnly_ok (c : Cmd) (payload : List Word) : HostOnly s (s.ok c payload) := s.hostOnly_answer _ _ _ _

theorem State.hostOnly_complete (id status detail : Nat) (payload : List Word) :
    HostOnly s (s.complete id status detail payload) := by
  unfold State.complete
  split
  · exact s.hostOnly_answer _ _ _ _
  · exact HostOnly.refl s

end Sys2Proof.Machine
end

