-- ==== Sys2Proof/Laws/Images.lean ====
section
/-! SUPPORT. What reading a state image does (R111): which registers its accesses touch, and when all of it is delivered. -/

namespace Sys2Proof.Laws

open Sys2Proof.Machine


/-- Controllers that are not in self-refresh have none to leave. -/
theorem awake_stay (s : State) (l : List Nat) (h : ∀ k ∈ l, s.ctrl k ≠ 3) :
    l.foldl (fun s k => s.leaveRefresh k false) s = s := by
  induction l with
  | nil => rfl
  | cons k l ih =>
    rw [List.foldl_cons, State.leaveRefresh, if_pos (h k (by simp))]
    exact ih fun j hj => h j (by simp [hj])

/-- The accesses to the channels for an image change no register but the counts of units. -/
theorem access_keeps (a : Nat) (w : Bool) (l : List Nat) (hl : ∀ ch ∈ l, ch < 16) (s : State) (x : Nat)
    (hx : x % 0x1000 = 0 ∨ 0xD0000 ≤ x) :
    (l.foldl (fun (s : State) ch => { s.countUnits ch w (s.imageUnits a ch) with
      g6 := { s.g6 with lastAccess := s.g6.lastAccess.upd 0 ch s.now } }) s).stored x = s.stored x := by
  induction l generalizing s with
  | nil => rfl
  | cons ch l ih =>
    have hc := hl ch (by simp)
    refine (ih (fun c hc => hl c (by simp [hc])) _).trans (State.stored_wr_of_ne (s := s) _ _ ?_)
    cases w <;> simp [Reg.MEM.WRLINES.COUNT, Reg.MEM.RDLINES.COUNT] <;> omega

/-- They leave the flipped bits of words as they are. -/
theorem access_flips (a : Nat) (w : Bool) (l : List Nat) (s : State) :
    (l.foldl (fun (s : State) ch => { s.countUnits ch w (s.imageUnits a ch) with
      g6 := { s.g6 with lastAccess := s.g6.lastAccess.upd 0 ch s.now } }) s).g6.flips = s.g6.flips := by
  induction l generalizing s with
  | nil => rfl
  | cons ch l ih => exact ih _

/-- Where no unit is protected, no bit has flipped and no controller sleeps, an image is delivered unless a channel is down. -/
theorem image_read (s : State) (a : Nat) (hu : ∀ u < 64, s.unitMode u = 0) (hf : s.g6.flips = []) (hc : ∀ k < 8, s.ctrl k ≠ 3) :
    (s.readImage a).2 = (List.range 16).all fun ch => !s.chanDown ch := by
  have h0 : (List.range 8).foldl (fun s k => State.leaveRefresh s k false) s = s :=
    awake_stay s _ fun k hk => hc k (by simpa using hk)
  have hs : ∀ x, x % 0x1000 = 0 ∨ 0xD0000 ≤ x → (s.imageAccess a false).stored x = s.stored x := by
    intro x hx
    rw [State.imageAccess, h0]
    exact access_keeps a false _ (fun ch hc => by simpa using hc) s x hx
  have hfl : (s.imageAccess a false).g6.flips = [] := by
    rw [State.imageAccess, h0]
    exact (access_flips a false _ s).trans hf
  have hm : ∀ u, (s.imageAccess a false).unitMode u = s.unitMode u := by
    intro u
    simp only [State.unitMode, State.rd]
    rw [hs _ (.inr (by simp [Reg.CRYPT.UNITS.MODES]; omega))]
  have hp : (s.imageAccess a false).protectedUnits = [] := by
    rw [State.protectedUnits, List.filter_eq_nil_iff]
    intro u hu'
    simp [hm, hu u (by simpa using hu')]
  have hd : ∀ ch < 16, (s.imageAccess a false).chanDown ch = s.chanDown ch := by
    intro ch h
    simp only [State.chanDown, State.rd]
    rw [hs _ (.inl (by simp [cstatF, Reg.MEM.CSTAT.DOWN]; omega))]
  simp only [State.readImage, hfl, List.filter_nil, List.map_nil, State.g6ReadAll, List.foldl_nil, State.imageSealed, hp]
  simp only [List.any_nil, Bool.false_eq_true, if_false, List.foldl_nil, List.isEmpty_nil, Bool.true_and]
  rw [Bool.eq_iff_iff, List.all_eq_true, List.all_eq_true]
  refine forall_congr' fun ch => imp_congr_right fun h => ?_
  rw [hd ch (by simpa using h)]

end Sys2Proof.Laws
end

