-- ==== Sys2Proof/Tests/Slice0.lean ====
section
/-! SUPPORT. Tests: well-formedness, single steps checked against numbers worked out from the manual, and for every
obligation with hypotheses a concrete state and operands that meet them. -/

namespace Sys2Proof.Tests

open Sys2Proof Sys2Proof.Machine

set_option Elab.async false

/-! ### States -/

/-- Out of DEV_RST_N, with nothing started. -/
def out : State := { State.reset with inReset := false }

/-- A device at work: an image runs, the towers are ready, every router is in service, and the ledger has a cap of 1000 BU. -/
def up : State :=
  ((((out.wr Reg.DEV.BOOT.IMAGE 1).wr Reg.HIF.QSTAT.IMAGE 1).wr Reg.DEV.READY.TOWER 255).wr Reg.NOC.STAT.INSERVICE 65535).wr
    Reg.PWR.LEDGER.CAP 1000

/-- A packet through the service port. -/
def svc : CmdHdr := { path := .service, seq := 7, epoch := 0, fence := false, rbuf := none }

/-- A packet through the mailbox. -/
def mbx : CmdHdr := { svc with path := .mailbox }

/-- The state that a command leaves. -/
def stepped (c : Instr) (s : State) : State :=
  match Machine.exec c s with
  | .next t => t
  | _ => s

/-! ### Witnesses: the machine and its registers -/

theorem wit_StepRunsTheFrontCommand :
    ({ up with pending := [.svcRead 1, .svcStat 2] } : State).pending = .svcRead 1 :: [.svcStat 2] ∧ up.pending = [] := by
  decide +kernel

theorem wit_StepKeepsHeldInReset :
    (State.reset.regs = [] ∧ State.reset.dev = { Dev.reset with ledger := State.reset.dev.ledger }) ∧
      ∃ t, Machine.step State.reset = .next t := by
  exact ⟨by decide +kernel, _, rfl⟩

theorem wit_NothingActsDuringDevRstN :
    State.reset.inReset = true ∧ (Instr.svcRead 1).actsInReset = false := by
  decide +kernel

theorem wit_ServicePacketActsAsItsRow :
    (Instr.echo 3 svc [5]).asCommand = some (3, 0x0004, svc, [5]) ∧ svc.path = .service ∧ svc.fits = true ∧
      ([5] : List Word).length + 2 ≤ 8192 := by
  decide +kernel

theorem wit_DevRstNAndTapAct : State.reset.inReset = true ∧ up.inReset = false := by decide +kernel

/-- An offset of the HIF block that no table defines, and the reserved bit 63 of `HIF.QSTAT`. -/
theorem wit_ReservedBitsReadZero :
    findReg 0x1FFF8 = none ∧ (∃ r ∈ findReg Reg.HIF.QSTAT.EPOCH.addr, ∀ f ∈ r.fields, ¬ (f.lo ≤ 63 ∧ 63 ≤ f.hi)) ∧
      (up.inReset = false ∧ up.hif.perst = false ∧ up.power < 2 ∧ up.pwr.target = none ∧ up.bar0Status 0x1FFF8 = hsOk ∧
        findReg (0x1FFF8 / 8 * 8) = none) := by
  decide +kernel

theorem wit_FieldWriteIsLocal :
    let f := Reg.HIF.QSTAT.EPOCH
    let g := Reg.HIF.QSTAT.STALLED
    f.lo ≤ f.hi ∧ f.hi < 64 ∧ g.addr = f.addr ∧ (g.hi < f.lo ∨ f.hi < g.lo) := by
  decide +kernel

theorem wit_BadAccessSetsBadacc :
    up.inReset = false ∧ up.hif.perst = false ∧ ¬ (2 = 8 ∧ 0x10000 % 8 = 0) ∧ ¬ (2 = 4 ∧ 0x10000 % 4 = 0) ∧
      ¬ (8 = 8 ∧ 0x10004 % 8 = 0) ∧ ¬ (8 = 4 ∧ 0x10004 % 4 = 0) := by
  decide +kernel

/-- A write of the register of `HIF.ERR`, whose fields are W1C, and one of its upper half. -/
theorem wit_RegisterWriteFollowsAccessCodes :
    let a := Reg.HIF.ERR.BADACC.addr
    up.inReset = false ∧ up.hif.perst = false ∧ up.power < 2 ∧ up.pwr.target = none ∧ up.bar0Status a = hsOk ∧
      (findReg (a / 8 * 8)).isSome = true ∧
      a / 8 * 8 ∉ [Reg.HIF.CMDBASE.BASE.addr, Reg.HIF.RPLBASE.BASE.addr, Reg.HIF.EVTBASE.BASE.addr,
        Reg.HIF.RINGSIZE.CMDLOG.addr, Reg.HIF.WBADDR.ADDR.addr, Reg.HIF.CMDTAIL.COUNT.addr, Reg.HIF.RPLHEAD.COUNT.addr,
        Reg.HIF.EVTHEAD.COUNT.addr, Reg.HIF.QCTRL.ENABLE.addr, Reg.HIF.MBOXCTL.GO.addr, Reg.STEP.SINGLE.NSTEP.addr,
        Reg.STEP.CTRL.RUN.addr] ∧ a % 8 = 0 ∧ (a + 4) % 4 = 0 ∧ up.bar0Status (a + 4) = hsOk ∧ (a + 4) / 8 * 8 = a ∧
      ∀ i < 8, a / 8 * 8 ≠ (Reg.TIME.CAP.HI.POP i).addr := by
  decide +kernel

/-- `STEP.OVRCNT`, whose count is an RC field. -/
theorem wit_RcReadClearsWholeFields :
    let a := Reg.STEP.OVRCNT.COUNT.addr
    a % 8 = 0 ∧ (a + 4) % 4 = 0 ∧ up.bar0Status (a + 4) = hsOk ∧ up.power < 2 ∧ up.pwr.target = none ∧ up.bar0Status a = hsOk ∧
      (∃ r ∈ findReg (a / 8 * 8), ∃ f ∈ r.fields, f.acc = .rc) ∧ ¬ (a = Reg.TIME.NOWNS.NS.addr ∧ 8 = 8) := by
  decide +kernel

/-! ### Witnesses: rings, mailbox, service port -/

/-- Rings of 2^14 command words and 2^14 reply words and 2^6 events, enabled, bus mastering on. -/
def ringed : State :=
  let s := (((up.wr Reg.HIF.RINGSIZE.CMDLOG 14).wr Reg.HIF.RINGSIZE.RPLLOG 14).wr Reg.HIF.RINGSIZE.EVTLOG 6).wr
    Reg.HIF.QCTRL.ENABLE 1
  { s with hif := { s.hif with bme := true } }

/-- An ECHO of no words with sequence number 9, as Keeper holds it. -/
def echo9 : Cmd :=
  { id := 0, gen := 0, path := .ring, opcode := 0x0004, seq := 9, epoch := 0, fence := false, rbuf := none, payload := [],
    fail := none }

theorem wit_DoorbellsMoveForwardOnly : ringed.inReset = false ∧ ringed.hif.perst = false := by decide +kernel

/-- Rings disabled: sizes at the ends of their ranges, and a size below; rings enabled; a queue reset. -/
theorem wit_RingSetupAndQueueReset :
    (let s := ((up.wr Reg.HIF.RINGSIZE.CMDLOG 14).wr Reg.HIF.RINGSIZE.RPLLOG 20).wr Reg.HIF.RINGSIZE.EVTLOG 16
     s.rd Reg.HIF.QCTRL.ENABLE = 0 ∧ 14 ≤ s.rd Reg.HIF.RINGSIZE.CMDLOG ∧ s.rd Reg.HIF.RINGSIZE.CMDLOG ≤ 20 ∧
      14 ≤ s.rd Reg.HIF.RINGSIZE.RPLLOG ∧ s.rd Reg.HIF.RINGSIZE.RPLLOG ≤ 20 ∧ 6 ≤ s.rd Reg.HIF.RINGSIZE.EVTLOG ∧
      s.rd Reg.HIF.RINGSIZE.EVTLOG ≤ 16) ∧
    (up.rd Reg.HIF.QCTRL.ENABLE = 0 ∧ ¬ 14 ≤ (up.wr Reg.HIF.RINGSIZE.CMDLOG 13).rd Reg.HIF.RINGSIZE.CMDLOG) ∧
    (ringed.rd Reg.HIF.QCTRL.ENABLE = 1 ∧ ringed.power < 2 ∧ ringed.pwr.target = none) := by
  decide +kernel

theorem wit_TimeReadLatchesAndPopRemoves :
    up.power < 2 ∧ up.pwr.target = none ∧ up.bar0Status Reg.TIME.NOWNS.NS.addr = hsOk ∧
      (∀ i ∈ [0, 7], up.bar0Status (Reg.TIME.CAP.HI.POP i).addr = hsOk) := by
  decide +kernel

/-- A device that is HALTED with a card of one entry in each segment: every condition of a run holds. -/
def ready : State :=
  let s := [0, 1, 2, 3].foldl (fun (s : State) k => (s.wr (Reg.STEP.CARDSEG.BASE k) k).wr (Reg.STEP.CARDSEG.LEN k) 1) up
  (s.wr Reg.STEP.STAT.STATE seHalted).wr Reg.CFG.STAT.ACTIVE 1

/-- A run whose first tick has fallen. -/
def aRun : Run :=
  { waitCue := false, cueHit := false, left := none, nextFall := 0, lastFall := 0, tick := 0, fallen := 1, began := 0, pacedPosted := false }

/-- The engine runs, between steps. -/
def running : State :=
  let s := ready.wr Reg.STEP.STAT.STATE seRunning
  { s with step := { s.step with run := some aRun } }

/-- The wings return to context 0. -/
def aRet : Ret := { ctx := 0, cause := 1, st := seHalted, ahead := false }

/-- RUNNING with no step, while the wings return, and in mode REEL; HUNG; and not running. -/
theorem wit_RegisterControlsOfTheStepEngine :
    (ready.rdb Reg.DEV.BOOT.IMAGE = true ∧ (ready.wr Reg.STEP.CTRL.MODE 2).rd Reg.STEP.CTRL.MODE = 2) ∧
    (∃ r ∈ (up.elapse 0).runRefusals, r.1 = true) ∧ 5 % 2 ^ 32 ≠ 0 ∧ 2 ^ 32 % 2 ^ 32 = 0 ∧
    (ready.power = 0 ∧ ready.pwr.target = none ∧ ready.step.closingOwed = false ∧
      (∀ r ∈ (ready.elapse 0).runRefusals, r.1 = false) ∧ ready.rd Reg.STEP.CTRL.MODE ≠ 2) ∧
    (running.engine = seRunning ∧ running.step.startWait = none ∧ running.step.ret = none ∧ running.step.cur = none ∧
      running.rd Reg.STEP.CTRL.MODE ≠ 3 ∧ (running.wr Reg.STEP.CTRL.MODE 3).rd Reg.STEP.CTRL.MODE = 3) ∧
    ready.stepping = false ∧
    ({ running with step := { running.step with ret := some aRet } } : State).step.ret.isSome = true ∧
    (ready.wr Reg.STEP.STAT.STATE seHung).engine = seHung := by
  decide +kernel

/-- Free with LENGTH 0 and 7, and busy. -/
theorem wit_MailboxTakesOneCommand :
    (up.rdb Reg.HIF.MBOXCTL.BUSY = false ∧
      fieldOf ((up.elapse 0).readReg (Reg.HIF.MBOXW.WORD 1).addr) 19 0 ≤ 6) ∧
    (let s := up.store (Reg.HIF.MBOXW.WORD 1).addr 7
     s.rdb Reg.HIF.MBOXCTL.BUSY = false ∧ 6 < fieldOf ((s.elapse 0).readReg (Reg.HIF.MBOXW.WORD 1).addr) 19 0) ∧
    (up.wr Reg.HIF.MBOXCTL.BUSY 1).rdb Reg.HIF.MBOXCTL.BUSY = true := by
  decide +kernel

/-- LENGTH 0 and 8,192 (the packet that fits), 8,193, a packet one word longer than the ring holds, a tail one word ahead, and one
that waits. -/
theorem wit_CommandRingIsFetchedInOrder :
    (let s := ringed.wr Reg.HIF.CMDTAIL.COUNT 8194
     (s.elapse 0).mayFetch = true ∧ s.rd Reg.HIF.CMDTAIL.COUNT ≠ s.rd Reg.HIF.CMDHEAD.COUNT ∧ s.hif.tailWait = none ∧
      (let n := fieldOf (([0x0004, 8192] : List Word).getD 1 0) 19 0
       n ≤ 8192 ∧ 2 + n ≤ 8194) ∧
      8192 < fieldOf (([0x0004, 8193] : List Word).getD 1 0) 19 0) ∧
    (let s := ringed.wr Reg.HIF.CMDTAIL.COUNT 2
     let held := (s.rd Reg.HIF.CMDTAIL.COUNT + 2 ^ 32 - s.rd Reg.HIF.CMDHEAD.COUNT) % 2 ^ 32
     (s.elapse 0).mayFetch = true ∧ 2 ≤ held ∧ held < 2 + fieldOf (([0x0004, 1] : List Word).getD 1 0) 19 0 ∧
      (let t := ringed.wr Reg.HIF.CMDTAIL.COUNT 1
       (t.elapse 0).mayFetch = true ∧ (t.rd Reg.HIF.CMDTAIL.COUNT + 2 ^ 32 - t.rd Reg.HIF.CMDHEAD.COUNT) % 2 ^ 32 < 2) ∧
      (let t := { s with hif := { s.hif with tailWait := some (0, 0x0004, 3) } }
       t.rdb Reg.HIF.QCTRL.ENABLE = true ∧ t.rdb Reg.HIF.QSTAT.STALLED = false ∧ held < 3 ∧
        0 + 10 * fsMs ≤ t.now + 10 * fsMs)) := by
  decide +kernel

/-- A command of the ring, one of the mailbox alone, and one of the mailbox behind a fence that waits for a command in progress. -/
theorem wit_RingCommandsStartInOrder :
    let m : Cmd := { echo9 with path := .mailbox }
    let f : Cmd := { echo9 with fence := true }
    let waits := fun (l : List Cmd) => ({ ringed with hif := { ringed.hif with fetched := l, running := [echo9] } } : State)
    (let s := { ringed with hif := { ringed.hif with fetched := [echo9] } }
     s.hif.fetched = [echo9] ∧ echo9.path = .ring ∧ (s.elapse 0).keeperDown = false ∧ s.inProgress < 64 ∧
      echo9.fence = false ∧ ¬ ((∃ d ∈ s.hif.running, d.path = .ring) ∨ ∃ r ∈ s.hif.replies, r.path = .ring)) ∧
    (({ ringed with hif := { ringed.hif with fetched := [m] } } : State).hif.fetched = [m] ∧ m.path ≠ .ring) ∧
    (∀ l ∈ [[f, m], [f]], ((waits l).elapse 0).keeperDown = false ∧ (waits l).inProgress < 64 ∧ (waits l).hif.fetched = l ∧
      f.path = .ring ∧ f.fence = true ∧ ∃ d ∈ (waits l).hif.running, d.path = .ring) := by
  decide +kernel

/-- A reply of two words behind one of the service port: the ring is empty, is full but for two words, and is full but for one; and
a reply of an earlier queue whose EPOCH has come round. -/
theorem wit_ReplyIsWrittenWhenItFits :
    let r := echo9.reply stOk 0 []
    let q := { r with path := .service }
    let s : State := { ringed with hif := { ringed.hif with replies := [q, r] } }
    s.inReset = false ∧ s.hif.replies = [q] ++ r :: [] ∧ q.path ≠ .ring ∧ r.path = .ring ∧ r.gen = s.hif.gen ∧
      ¬ (r.opcode = 0x0003 ∧ r.status = stOk) ∧ r.rbuf = none ∧ s.rdb Reg.HIF.QCTRL.ENABLE = true ∧ s.hif.bme = true ∧
      s.hif.d3hot = false ∧ s.hif.perst = false ∧ ¬ (s.rdb Reg.HIF.QSTAT.STALLED = true ∧ s.rd Reg.HIF.QSTAT.STALLCAUSE = 3) ∧
      s.fw.romAt = none ∧
      (∀ n ∈ [0, 16382],
        ((s.wr Reg.HIF.RPLTAIL.COUNT n).rd Reg.HIF.RPLTAIL.COUNT + 2 ^ 32 - s.rd Reg.HIF.RPLHEAD.COUNT) % 2 ^ 32 +
          (r.packet 8192).length ≤ 2 ^ s.rd Reg.HIF.RINGSIZE.RPLLOG) ∧
      2 ^ s.rd Reg.HIF.RINGSIZE.RPLLOG <
        ((s.wr Reg.HIF.RPLTAIL.COUNT 16383).rd Reg.HIF.RPLTAIL.COUNT + 2 ^ 32 - s.rd Reg.HIF.RPLHEAD.COUNT) % 2 ^ 32 +
          (r.packet 8192).length ∧
      ({ s with hif := { s.hif with gen := 256 } } : State).hif.gen ≠ r.gen ∧ r.epoch % 256 = s.rd Reg.HIF.QSTAT.EPOCH := by
  decide +kernel

/-- No reply waits, and four do. -/
theorem wit_ServicePortTransactions :
    let r := { echo9 with path := .service }.reply stOk 0 []
    let s := { up with hif := { up.hif with svcReplies := [r, r, r, r] } }
    up.hif.svcReplies = [] ∧ 4 ≤ s.hif.svcReplies.length ∧ s.hif.svcReplies = r :: [r, r, r] ∧
      ([0x0004, 1] : List Word).length ≠ 2 + fieldOf (([0x0004, 1] : List Word).getD 1 0) 19 0 ∧
      ([0x0004, 0] : List Word).length = 2 + fieldOf (([0x0004, 0] : List Word).getD 1 0) 19 0 := by
  decide +kernel

theorem wit_WindowsAndModerationEnd :
    let w : Window := { code := 0x0301, key := 5, opened := 0, held := 0, sev := 0, src := 0, detail := 0 }
    (∀ h ∈ [0, 3], ({ up with hif := { up.hif with windows := [{ w with held := h }] } } : State).hif.windows.find?
      (fun x => x.code = w.code ∧ x.key = w.key) = some { w with held := h }) ∧ w.opened + fsMs ≤ up.now + fsMs ∧
    (let s := { up with hif := { up.hif with irqLast := [some 0, none], irqWant := [true, false] } }
     s.hif.irqLast.getD 0 none = some 0 ∧ s.hif.irqWant.getD 0 false = true ∧
      0 + s.rd Reg.HIF.IRQMOD.INTERVAL * fsUs ≤ s.now + 2 ^ 40) ∧
    (let s := { up with hif := { up.hif with irqLast := [none, some 0] } }
     s.hif.irqLast.getD 1 none = some 0 ∧ s.hif.irqWant.getD 1 false = false) := by
  decide +kernel

theorem wit_PerstResetsTheHostLink :
    (up.inReset = false ∧ up.hif.perst = false ∧ up.cfg.stream = none ∧ up.cfg.jobs = [] ∧ up.cfg.staging = none) ∧
      (let s := { up with hif := { up.hif with perst := true } }
       s.hif.perst = true ∧ s.hif.replies = []) := by
  decide +kernel

/-- An offset at each end of each part of BAR2, and a stream that the window feeds. -/
theorem wit_Bar2AccessesAndTheWindow :
    up.rdb Reg.DEV.BOOT.IMAGE = true ∧
      ([0, 0xE_FFFF_FFF8, 0xF_0000_0000, 0xF_17FF_FFF8, 0xF_1800_0000, 0xF_3FFF_FFF8, 0xF_4000_0000, 0xF_40FF_FFF8,
        0xF_BFFF_FFF8, 0xF_C000_0000, 0xF_FFFF_FFF8].all fun o => decide (o % 8 = 0 ∧ o + 8 * 1 ≤ 2 ^ 36)) = true ∧
      (0x1F8 % 8 = 0 ∧ 0x1F8 + 8 * 64 ≤ 2 ^ 36) ∧ out.rdb Reg.DEV.BOOT.IMAGE = false ∧
      up.cfg.stream = none ∧
      (let x : Stream := { bytes := [], parsed := 0, next := 0, kept := [], headerOk := false, selected := false, streamKey := [], failed := none, descs := [], descAddr := 0, descDone := false, lastByte := 0, timeoutMs := 100 }
       let s := { up.wr Reg.CFG.STAT.SRC 1 with cfg := { up.cfg with stream := some x } }
       s.cfg.stream = some x ∧ s.rdb Reg.CFG.STAT.SRC = true ∧ x.failed = none ∧ ({ x with failed := some (12, 0) } : Stream).failed.isSome = true ∧ 0 % 8 = 0 ∧
        (List.replicate 8 (0 : Byte)).length % 8 = 0 ∧ 0 = x.bytes.length % 2 ^ 24 ∧
        0 + (List.replicate 8 (0 : Byte)).length ≤ 2 ^ 24) := by
  decide +kernel

/-! ### Witnesses: queries -/

theorem wit_DeviceQueriesReply :
    up.accepts 0 svc (decide (([] : List Word).length = 0)) false true = true ∧
      up.accepts 0 mbx (decide (([1] : List Word).length = 1)) false true = true ∧ onlyBits [1] 0 [(0, 0)] = true ∧
      ringed.accepts 0 { svc with path := .ring } (decide (([3, 4] : List Word).length ≤ 8192)) false false = true := by
  decide +kernel

/-- Tower 7 with CLEAR, initiators 0 to 1,023 and initiator 1,027 alone. -/
theorem wit_LogsReplyAndClear :
    up.accepts 0 svc (decide (([0x107] : List Word).length = 1)) false false = true ∧
      onlyBits [0x107] 0 [(2, 0), (8, 8)] = true ∧ onlyBits [0x101] 0 [(0, 0), (8, 8)] = true ∧
      ([toWord (1024 * 2 ^ 16), toWord (1027 + 2 ^ 16)].all fun (w : Word) =>
        onlyBits [w] 0 [(10, 0), (26, 16), (32, 32)] && decide (1 ≤ fieldOf w 26 16) && decide (fieldOf w 26 16 ≤ 1024) &&
          decide (fieldOf w 10 0 + fieldOf w 26 16 ≤ 1028)) = true := by
  decide +kernel

/-- A trace that holds one record, done. -/
def traced : Trace :=
  { qual := false, trigsel := 0, cue := 0, tval := false, bfirst := 0, blast := 1, post := 0, tstep := 0, trigTap := 0,
    qualTap := 0, wings := [5], base := 0, size := 0, recs := [{ step := 3, taps := [7], gap := false }], trigAt := none,
    postLeft := none, buffered := 0, cueHit := false, gap := false, count := 1, held := false }

theorem wit_StatusCommandsReply :
    up.accepts 0 svc (decide (([] : List Word).length = 0)) false false = true ∧
      (up.accepts 0 svc (decide (([13] : List Word).length = 1)) false false = true ∧ onlyBits [13] 0 [(3, 0)] = true ∧
        fieldOf (([13] : List Word).getD 0 0) 3 0 ≤ 13) ∧
      (onlyBits [0x143] 0 [(6, 0), (14, 8)] = true ∧ 1 ≤ fieldOf (0x143 : Word) 14 8 ∧
        fieldOf (0x143 : Word) 6 0 + fieldOf (0x143 : Word) 14 8 ≤ 68) ∧
      (up.accepts 0 svc (decide (([0] : List Word).length = 1 ∨ ([0] : List Word).length = 2)) false false = true ∧
        onlyBits [0] 0 [(1, 0), (8, 8)] = true ∧ fieldOf (([0] : List Word).getD 0 0) 1 0 = 0 ∧ ([0] : List Word).getD 1 0 = 0) ∧
      up.accepts 0 svc (decide (([] : List Word).length = 0)) false true = true ∧
      (let s := { up.wr Reg.DBG.TRSTAT.STATE trDone with dbg := { up.dbg with trace := some traced } }
       let ws : List Word := [toWord (2 ^ 32), 5 * 256]
       s.accepts 0 svc (decide (ws.length = 2)) false false = true ∧ onlyBits ws 0 [(31, 0), (62, 32)] = true ∧
        fieldOf (([0, 5 * 256] : List Word).getD 0 0) 62 32 = 0 ∧
        onlyBits ws 1 (if (s.elapse 0).traceG6 then [] else [(2, 0), (13, 8)]) = true ∧ s.dbg.trace = some traced ∧
        s.rd Reg.DBG.TRSTAT.STATE = trDone ∧
        traced.wings.contains (fieldOf (ws.getD 1 0) 2 0 * 64 + fieldOf (ws.getD 1 0) 13 8) = true) := by
  decide +kernel

/-! ### Witnesses: the step engine -/

/-- A paced configuration at the least period, with the STEP cue and STRICT, and a partial grant; a card of three entries, over the
range of another segment or apart from all; a run; halts of an engine that does not run, between steps, and while the wings return. -/
theorem wit_StepCommandsAct :
    (let ws : List Word := [toWord (1 + 2 ^ 4 + 2 ^ 6 + 15 * 2 ^ 8), 20]
     let u := (ready.elapse 0).begun 0x0101 svc ws
     ready.accepts 0 svc (decide (ws.length = 2)) false false = true ∧
      onlyBits ws 0 [(1, 0), (4, 4), (5, 5), (6, 6), (11, 8)] = true ∧ onlyBits ws 1 [(19, 0)] = true ∧
      fieldOf (ws.getD 1 0) 19 0 = 20 ∧ maxList (u.promises u.ctxMode u.ctxsInUse) ≤ 20 ∧ ready.engine = seHalted ∧
      u.engineBusy = false ∧ u.cueFree (fieldOf (ws.getD 0 0) 11 8) fnStep = true ∧
      u.demandOf 1 u.ctxMode 20 u.ctxsInUse ≤ u.holds 0x0A + u.freeBu ∧ flagOf (([0, 0] : List Word).getD 0 0) 4 = false ∧
      u.holds 0x0A + u.freeBu ≠ 0) ∧
    (let ws : List Word := [toWord (1 + 4 * 2 ^ 16 + 3 * 2 ^ 32), 5, 6]
     let base := fieldOf (ws.getD 0 0) 27 16
     let len := fieldOf (ws.getD 0 0) 44 32
     let entry := fun (i : Nat) => fieldOf (ws.getD (1 + i / 2) 0) (32 * (i % 2) + 31) (32 * (i % 2))
     ready.accepts 0 svc (decide (ws.length = 1 + (len + 1) / 2)) false false = true ∧
      onlyBits ws 0 [(1, 0), (27, 16), (44, 32)] = true ∧ (∀ i < len, entry i < 2 ^ 17) ∧
      fieldOf (ws.getD ((len + 1) / 2) 0) 63 32 = 0 ∧ base + len ≤ 4096 ∧
      (let s := (ready.wr (Reg.STEP.CARDSEG.BASE 0) base).wr (Reg.STEP.CARDSEG.LEN 0) len
       s.rd (Reg.STEP.CARDSEG.BASE 0) = base ∧ s.rd (Reg.STEP.CARDSEG.LEN 0) = len) ∧
      (∀ k < 4, k ≠ fieldOf (ws.getD 0 0) 1 0 →
        rangesMeet base len (ready.rd (Reg.STEP.CARDSEG.BASE k)) (ready.rd (Reg.STEP.CARDSEG.LEN k)) = false) ∧
      ready.step.startWait = none) ∧
    (ready.freshId ∧ ready.power = 0 ∧ ready.pwr.target = none ∧ ready.step.closingOwed = false ∧
      (∀ r ∈ ((ready.elapse 0).begun 0x0103 svc []).runRefusals, r.1 = false) ∧ ready.rd Reg.STEP.CTRL.MODE ≠ 2 ∧
      ready.accepts 0 svc (decide (([] : List Word).length = 0)) false false = true ∧ ready.stepping = false) ∧
    ((∀ r ∈ ((ready.elapse 0).begun 0x0105 svc [5]).runRefusals, r.1 = false) ∧ onlyBits [5] 0 [(31, 0)] = true ∧
      fieldOf (([5] : List Word).getD 0 0) 31 0 ≠ 0 ∧
      ready.accepts 0 svc (decide (([5] : List Word).length = 1)) false false = true) ∧
    (running.engine = seRunning ∧ running.rd Reg.STEP.CTRL.MODE ≠ 3 ∧ running.step.startWait = none ∧ running.step.ret = none ∧
      running.accepts 0 svc (decide (([] : List Word).length = 0)) false false = true) := by
  decide +kernel

/-- An image of nothing. -/
def anImage : Image := { ff := [], landing := [], mac := [], bsel := [], count := 5, pos := [0, 1, 2, 3], digest := 0 }

/-- A command in progress. -/
def aCmd : Cmd := { echo9 with path := .service }

/-- GDDR6 is initialised: a map is active and 16 GB answers. -/
def g6Ready : State :=
  let s := (List.range 8).foldl (fun (s : State) k => s.setCtrl k 2) ready
  { (s.wr Reg.MEM.CAP.BYTES (2 ^ 34)) with g6 := { s.g6 with active := some .plain } }

theorem wit_StateImagesSaveAndRestore :
    (g6Ready.accepts 0 svc (decide (([0] : List Word).length = 1)) false false = true ∧ g6Ready.engine = seHalted ∧
      ([0] : List Word).getD 0 0 = 0 ∧ g6Ready.g6.save = none ∧ g6Ready.allocRefusal 0 imageSize = none) ∧
    (let s := { g6Ready with g6 := { g6Ready.g6 with images := [(0, anImage)] } }
     s.accepts 0 svc (decide (([0] : List Word).length = 1)) false false = true ∧ s.engine = seHalted ∧
      s.g6.images.find? (fun g => g.1 = 0 ∧ g.2.digest = s.cfg.sha) = some (0, anImage) ∧ s.step.startWait = none) ∧
    (let s := { g6Ready with g6 := { g6Ready.g6 with save := some (0, 4096, anImage) }, hif := { g6Ready.hif with running := [aCmd] } }
     s.inReset = false ∧ s.g6.save = some (0, 4096, anImage)) := by
  decide +kernel

/-- An image is delivered, and one whose memory has a channel down is not. -/
theorem wit_StateImagesSaveAndRestore_read :
    let s := { g6Ready with g6 := { g6Ready.g6 with images := [(0, anImage)] } }
    (((s.elapse 0).begun 0x0108 svc [0]).readImage 0).2 = true ∧
      ((((s.wr (cstatF Reg.MEM.CSTAT.DOWN 7) 2).elapse 0).begun 0x0108 svc [0]).readImage 0).2 = false :=
  ⟨(Laws.image_read _ _ (by decide +kernel) rfl (by decide +kernel)).trans (by decide +kernel),
    (Laws.image_read _ _ (by decide +kernel) rfl (by decide +kernel)).trans (by decide +kernel)⟩

/-- The engine runs at the pace of its ticks. -/
def paced : State := running.wr Reg.STEP.CTRL.MODE 1

theorem wit_LaunchesAndTicks :
    (running.step.run = some aRun ∧ (running.elapse 0).launchDue aRun = true ∧ running.dbg.trace = none) ∧
    (let s := { running with dbg := { running.dbg with trace := some traced } }
     (s.elapse 0).launchDue aRun = true ∧ s.dbg.trace = some traced ∧ (s.elapse 0).traceStalls = false) ∧
    (let t := { traced with buffered := 4096 }
     let s := { (running.wr Reg.DBG.TRSTAT.STATE trArmed).wr Reg.DBG.TRSTAT.MODE 1 with dbg := { running.dbg with trace := some t } }
     (s.elapse 0).launchDue aRun = true ∧ s.dbg.trace = some t ∧ (s.elapse 0).traceStalls = true ∧ t.held = false ∧
      ((({ s with dbg := { s.dbg with trace := some { t with held := true } } } : State).elapse 0).launchDue aRun = true ∧
        (({ s with dbg := { s.dbg with trace := some { t with held := true } } } : State).elapse 0).traceStalls = true)) ∧
    (paced.rd Reg.STEP.CTRL.MODE = 1 ∧ aRun.waitCue = false ∧ aRun.nextFall ≤ paced.now + 0 ∧
      paced.coastsTruly 2 = false) := by
  decide +kernel

/-- Wing 3 with one output port to porch 0, and one input port that hears wing 4. -/
def wing3 : WingCfg :=
  { n := 2, act := 1, cells := [], macs := [], attic := [],
    outs := [{ idx := 0, rank := 1, nets := [], dest := .porch 0 2, route := [] }],
    inps := [{ idx := 1, rank := 1, width := 1, src := .wing 4 0, isoFixed := false, initval := 0 }], nocs := [],
    poisonClr := .zero }

/-- A context of wing 3, with a porch output. -/
def ctx3 : CtxCfg :=
  { CtxCfg.empty with
    wings := [(3, wing3)]
    porchOuts := [{ porch := 0, chan := 2, src := .wing 3 0, isoFixed := false, initval := 0, cross := none }] }

/-- Wing 3 in its last round. -/
def wing3Run (done : Bool) : WingRun :=
  { wing := 3, round := 1, active := true, began := 0, got := [1], sent := [], acked := [], done := done, ended := done }

/-- A step of that context in EVALUATE. -/
def aStep (done : Bool) : StepRun :=
  { ctx := 0, phase := 0, phases := 1, launchAt := 0, evalAt := 0, stage := .evaluate, wings := [wing3Run done], tokens := [],
    inputs := [], nocIn := [], doneTowers := [], donePorches := [], porchGot := [], lastDone := 0, commitAt := 0, commits := 0,
    ownEnd := 0, remoteLast := 0, excess := 0, hungPosted := false, closeFailed := false }

/-- A step in progress. -/
def during (r : StepRun) : State :=
  { running with step := { running.step with cur := some r }, cfg := { running.cfg with ctxs := [{ ctx3 with device := true }, .empty, .empty, .empty] } }

/-- A token for porch 0. -/
def aToken : Token := { src := .wing 3 0, dest := .porch 0 2, value := 1, hops := [], ready := 0, sentAt := 0, isAck := false }

theorem wit_RoundsTokensAndDones :
    (let r := aStep false
     let s := { during r with fab := { (during r).fab with su := [(3, 38000)] } }
     s.step.cur = some r ∧ r.wings.find? (fun y => y.wing = 3) = some (wing3Run false) ∧
      s.wing (s.phaseCtx r) 3 = some wing3 ∧ r.stage = .evaluate ∧ (wing3Run false).active = true ∧
      (wing3Run false).began + s.roundTime wing3 3 ≤ s.now + 76000) ∧
    (let r := { aStep false with tokens := [aToken] }
     let s := during r
     s.step.cur = some r ∧
      r.tokens.find? (fun t => !t.isAck && t.dest == endPeer (.porch 0 2) && (t.hops.isEmpty || s.routeCut t.hops) &&
        decide (t.ready ≤ s.now + 0)) = some aToken) ∧
    (let t := { aToken with dest := .wing 3 0, isAck := true }
     let r := { aStep false with tokens := [t] }
     r.tokens.find? (fun t => t.isAck && t.dest == Peer.wing 3 0) = some t) ∧
    (let r := aStep true
     let s := during r
     s.deviceScope r.ctx = true ∧ r.stage = .evaluate ∧ 0 ∈ r.towers ∧ r.towerDone 0 = true ∧ 0 ∉ r.doneTowers) ∧
    (let r := { aStep true with porchGot := [(0, 2)] }
     let s := during r
     s.deviceScope r.ctx = true ∧ 0 ∈ s.phasePorches r ∧ s.porchDone r 0 = true ∧ 0 ∉ r.donePorches) := by
  decide +kernel

/-- A refill of wing 3. -/
def aRefill : Refill := { wing := 3, ctx := 0, main := true, retry := [], serves := 1 }

theorem wit_CommitSwitchAndRefill :
    (let r := { aStep true with doneTowers := [0], donePorches := [0] }
     let s := during r
     s.step.cur = some r ∧ r.stage = .evaluate ∧ s.allDone r = true ∧ s.commitFrom r ≤ s.now + 0) ∧
    (let r := { aStep true with stage := .switch }
     let s := during r
     s.step.cur = some r ∧ s.refilled 0 = true ∧ r.evalAt + 2 * fsNs ≤ s.now + 2 * fsNs) ∧
    (let s := { running with fab := { running.fab with refills := [aRefill] } }
     s.fab.refills.find? (fun y => y.wing = 3) = some aRefill ∧ aRefill.main = true ∧ aRefill.retry = [] ∧
      s.framesBad aRefill.ctx 3 = false ∧
      ({ s with cfg := { s.cfg with planes := [(frameKey 0 3 5, { bytes := [], sig := 1 })] } } : State).framesBad 0 3 = true ∧ 1023 ∉ aRefill.retry ∧ 1023 ∈ ({ aRefill with retry := [1023] } : Refill).retry) := by
  decide +kernel

/-- A bank that a design uses. -/
def banked : State := up.wr (Reg.IOB.CFG.ACTIVE 15) 1

theorem wit_HangsSuAndBankFifos :
    (let r := aStep false
     let s := during r
     s.step.cur = some r ∧ s.engine = seRunning ∧ s.step.haltReq = false ∧
      r.launchAt + max 10 (s.rd Reg.STEP.HANGLIM.LIMIT) * fsUs ≤ s.now + 2 ^ 62) ∧
    (up.power = 0 ∧ up.clk.sampledAt.at 0 0 + fsMs ≤ up.now + fsMs) ∧
    ((banked.elapse 0).bankInReset 15 = false ∧ banked.rdb (Reg.IOB.CFG.ACTIVE 15) = true ∧
      (banked.fifo 15 3 false).entries.length < 64 ∧
      (let s := { banked with pins := { banked.pins with fifos := [{ bank := 15, fifo := 3, output := false, entries := List.replicate 64 (0, 0), ovf := false }] } }
       64 ≤ (s.fifo 15 3 false).entries.length) ∧
      (let s := { banked with pins := { banked.pins with fifos := [{ bank := 15, fifo := 3, output := true, entries := [(9, 0)], ovf := false }] } }
       (s.fifo 15 3 true).entries = (9, 0) :: [] ∧ 0 ≤ s.now + 0)) := by
  decide +kernel

/-! ### Witnesses: configuration -/

/-- A stream that nothing has been read of. -/
def opened : Stream :=
  { bytes := [], parsed := 0, next := 0, kept := [], headerOk := false, selected := false, streamKey := [], failed := none,
    descs := [], descAddr := 0, descDone := false, lastByte := 0, timeoutMs := 100 }

/-- An unsigned container of a header of 64 bytes and a trailer, whole; `kept` are its sections. -/
def arrived (kept : List (Nat × Section)) (sel : Bool) : Stream :=
  { opened with
    bytes := List.replicate 16 0 ++ leBytes 8 320 ++ List.replicate 40 0 ++ [0x43, 0x46, 0x42, 0x54] ++ List.replicate 252 0
    kept := kept, headerOk := true, selected := sel }

/-- MODE: context 0 alone; CTXINFO of context 0. -/
def plain : List (Nat × Section) :=
  [(0, { type := 10, param := 0, body := List.replicate 16 0 }), (1, { type := 4, param := 0, body := List.replicate 16 0 }),
    (2, { type := 6, param := 0, body := [] })]

/-- A device whose configuration stream is open. -/
def withStream (s : State) (x : Stream) : State := { s with cfg := { s.cfg with stream := some x } }

/-- TIMEOUT at both ends; a stream that has failed, one whose list is still read, one of the window, one that is whole. -/
theorem wit_ConfigurationStreamsOpenAndEnd :
    (∀ t ∈ [100, 600000],
      let ws : List Word := [1, 0, toWord t]
      ready.accepts 0 svc (decide (ws.length = 3)) false false = true ∧ onlyBits ws 0 [(0, 0)] = true ∧
      onlyBits ws 2 [(19, 0)] = true ∧ 100 ≤ fieldOf (ws.getD 2 0) 19 0 ∧ fieldOf (ws.getD 2 0) 19 0 ≤ 600000) ∧
    (ready.stepping = false ∧ ready.tripped = false ∧ ready.streamOpen = false ∧ ready.cfg.staging = none ∧
      ready.cfg.jobs = [] ∧ ready.allReady = true ∧ 6 ≤ ready.freeBu) ∧
    (let s := withStream ready opened
     s.accepts 0 svc (decide (([] : List Word).length = 0)) false false = true ∧ s.cfg.endCmd = none ∧
      ({ opened with failed := some (9, 4) } : Stream).failed = some (9, 4) ∧ opened.failed = none ∧ opened.whole = false ∧
      s.rdb Reg.CFG.STAT.SRC = false ∧ (s.wr Reg.CFG.STAT.SRC 1).rdb Reg.CFG.STAT.SRC = true ∧
      (arrived plain true).whole = true ∧ (arrived plain true).failed = none ∧
      s.accepts 0 svc (decide (([0] : List Word).length = 1)) false false = true ∧
      onlyBits [0] 0 [(0, 0), (31, 16)] = true ∧ s.rd Reg.CFG.STAT.STREAM ≠ 4 ∧
      opened.lastByte + opened.timeoutMs * fsMs ≤ s.now + 100 * fsMs) ∧
    (let j : Job := { id := 3, slot := 0, wing := 3, ctx := 0, act := 0, psp := 0, bu := 0, gddr := false, stream := opened, isolated := false, verified := false, loaded := false }
     ([j].find? fun j => j.id = fieldOf (([toWord (1 + 3 * 2 ^ 16)] : List Word).getD 0 0) 31 16) = some j) := by
  decide +kernel

/-- IOBANK of bank 0 whose output cue is 2, and a LANESET of one lane at RATE 2. -/
def banks : List (Nat × Section) :=
  plain ++ [(3, { type := 8, param := 0, body := leBytes 8 (2 ^ 12 + 2 * 2 ^ 8) ++ List.replicate (48 * 8) 0 })]

/-- A LANESET of one group of one lane. -/
def lanes : List (Nat × Section) :=
  plain ++ [(3, { type := 9, param := 1, body := leBytes 8 (2 ^ 16 + 2 * 2 ^ 12) ++ List.replicate 16 0 })]

theorem wit_CfgEndChecksBeforeItActivates :
    (let x := { arrived plain true with bytes := List.replicate 320 0 }
     ready.trailerOk x = false) ∧
    (ready.trailerOk (arrived plain false) = true ∧ (arrived plain false).selected = false) ∧
    (ready.trailerOk (arrived [] true) = true ∧ (arrived [] true).selected = true ∧
      ready.inconsistent (arrived [] true) = some (15, 0)) ∧
    (let s := (ready.wr (Reg.IOB.VMEAS.MV 0) 1000).claimCue 2 fnTrace
     let x := arrived banks true
     s.trailerOk x = true ∧ s.inconsistent x = none ∧ (x.outCues.any fun k => !s.cueFree k fnOutput) = true) ∧
    (let s := ready.wr Reg.PWR.LEDGER.CAP 0
     let x := arrived lanes true
     s.trailerOk x = true ∧ s.inconsistent x = none ∧ (x.outCues.any fun k => !s.cueFree k fnOutput) = false ∧
      s.lanesConflict x.laneGroups = false ∧ s.freeBu < s.lanesBu x.laneGroups) ∧
    (let s := { withStream ready (arrived lanes true) with cfg := { ready.cfg with stream := some (arrived lanes true), endCmd := some 0 } }
     let x := arrived lanes true
     s.cfg.stream = some x ∧ s.cfg.endCmd = some 0 ∧ s.trailerOk x = true ∧ x.selected = true ∧ s.inconsistent x = none ∧
      s.lanesConflict x.laneGroups = false ∧ (x.carried.flatMap x.planeWings).eraseDups.length = 0 ∧
      s.lanesBu x.laneGroups ≤ s.freeBu) := by
  decide +kernel

/-- Context 0 is in use, with wing 3. -/
def used : State :=
  { ready.wr (planeStateF 0) 3 with cfg := { ready.cfg with ctxs := [ctx3, .empty, .empty, .empty] } }

/-- PLANE, SIGTAB and SETTLE of wing 3 of context 0. -/
def wing3Secs : List (Nat × Section) :=
  let p := 3 * 2 ^ 16 + 3 * 2 ^ 24
  [(0, { type := 1, param := p, body := [] }), (1, { type := 2, param := p, body := [] }), (2, { type := 3, param := p, body := [] })]

/-- A job for that wing. -/
def aJob (x : Stream) : Job :=
  { id := 3, slot := 0, wing := 3, ctx := 0, act := 0, psp := 0, bu := 0, gddr := false, stream := x, isolated := false, verified := false, loaded := false }

theorem wit_PartialReconfiguration :
    (let ws : List Word := [toWord (3 * 2 ^ 8 + 2 ^ 24), 8, 1, 0]
     let v := (used.elapse 0).begun 0x0904 svc ws
     used.accepts 0 svc (decide (ws.length = 4)) false false = true ∧
      onlyBits ws 0 [(2, 0), (13, 8), (17, 16), (24, 24)] = true ∧ onlyBits ws 2 [(31, 0)] = true ∧
      onlyBits ws 3 [(19, 0)] = true ∧ fieldOf (ws.getD 3 0) 19 0 = 0 ∧ (ws.getD 1 0).toNat % 8 = 0 ∧
      used.rdb Reg.CFG.STAT.ACTIVE = true ∧ v.plane 0 = 3 ∧ v.wingBad 3 = false ∧ (v.wing 0 3).isSome = true ∧
      v.streamOpen = false ∧ used.cfg.jobs.length < 8 ∧ (∀ j ∈ used.cfg.jobs, ¬ (j.wing = 3 ∧ j.ctx = 0)) ∧
      2 + v.jobRise 3 0 1 ≤ v.freeBu) ∧
    (∀ x ∈ [{ arrived wing3Secs true with bytes := (arrived [] true).bytes.set 70 1 }, arrived wing3Secs false,
        arrived wing3Secs true],
      let s := { used with cfg := { used.cfg with jobs := [aJob x] } }
      s.cfg.jobs.find? (fun j => j.id = 3) = some (aJob x) ∧ x.whole = true ∧ x.failed = none ∧ (aJob x).verified = false) ∧
    used.trailerOk { arrived wing3Secs true with bytes := (arrived [] true).bytes.set 70 1 } = false ∧
    (used.trailerOk (arrived wing3Secs false) = true ∧ (arrived wing3Secs false).selected = false) ∧
    (let x := arrived wing3Secs true
     used.trailerOk x = true ∧ x.selected = true ∧ (x.covering 1 0 3).isSome = true ∧ (x.covering 2 0 3).isSome = true ∧
      x.settleOk 0 = true) := by
  decide +kernel

/-- A staging of context 2. -/
def aStaging (x : Stream) (status : Option Nat) : Staging :=
  { cmd := 0, ctx := 2, prev := 0, prevFresh := false, gddr := false, length := 320, stream := x, status := status }

/-- The sections that a staging of context 2 needs. -/
def ctx2Secs : List (Nat × Section) :=
  [(0, { type := 4, param := 2, body := List.replicate 16 0 }), (1, { type := 6, param := 2, body := [] })]

theorem wit_ContextStaging :
    (let ws : List Word := [toWord (2 + 2 ^ 8), 16, 64]
     let v := (ready.elapse 0).begun 0x0201 svc ws
     ready.accepts 0 svc (decide (ws.length = 3)) false false = true ∧ onlyBits ws 0 [(1, 0), (8, 8)] = true ∧
      onlyBits ws 2 [(39, 0)] = true ∧ 64 ≤ (ws.getD 2 0).toNat ∧ (ws.getD 1 0).toNat % 8 = 0 ∧ v.tripped = false ∧
      v.plane 2 ≠ 3 ∧ v.plane 2 ≠ 1 ∧ ready.cfg.staging = none ∧ v.streamOpen = false ∧ 6 ≤ v.freeBu) ∧
    (let x := arrived ctx2Secs true
     let s := { ready with cfg := { ready.cfg with staging := some (aStaging x none) } }
     s.cfg.staging = some (aStaging x none) ∧ (aStaging x (some stAborted)).status = some stAborted ∧
      ({ x with failed := some (12, 1) } : Stream).failed = some (12, 1) ∧ x.failed = none ∧ x.whole = true ∧
      s.stageStatus (aStaging x none) = none ∧ x.selected = true ∧
      s.stageStatus (aStaging (arrived ctx2Secs false) none) = none ∧
      s.stageStatus (aStaging (arrived [] true) none) = some stBadParam) := by
  decide +kernel

/-- Contexts 0 and 1 staged, as the two phases of a fold. -/
def staged : State :=
  { (ready.wr (planeStateF 0) 2).wr (planeStateF 1) 2 with
    cfg := { ready.cfg with ctxs := [{ ctx3 with foldTag := 5, phase := 0, foldCount := 2 }, { ctx3 with foldTag := 5, phase := 1, foldCount := 2 }, .empty, .empty] } }

/-- SINGLE, a fold of two contexts, a rotation of 16 slots over contexts 0 and 1. -/
theorem wit_ContextsComeIntoUse :
    (∀ ws ∈ ([[0, 0], [toWord (1 + 2 * 2 ^ 8), 0], [toWord (2 + 16 * 2 ^ 16), 0x44444444]] : List (List Word)),
      let v := (staged.elapse 0).begun 0x0202 svc ws
      let mode := fieldOf (ws.getD 0 0) 1 0
      let q := fieldOf (ws.getD 0 0) 10 8
      let len := fieldOf (ws.getD 0 0) 20 16
      let cs := newSet mode (fieldOf (ws.getD 0 0) 5 4) q len (fieldOf (ws.getD 1 0) 31 0)
      staged.accepts 0 svc (decide (ws.length = 2)) false false = true ∧
        onlyBits ws 0 [(1, 0), (5, 4), (10, 8), (20, 16)] = true ∧ onlyBits ws 1 [(31, 0)] = true ∧ mode ≠ 3 ∧
        (mode = 1 → 2 ≤ q ∧ q ≤ 4 ∧ foldOk staged.cfg.ctxs q = true) ∧ (mode = 2 → 1 ≤ len ∧ len ≤ 16) ∧
        (∀ d ∈ cs, (v.ctx d).ownsSlice = false) ∧ (∀ r ∈ v.setRefusals false mode cs, r.1 = false) ∧
        (v.askSet mode cs).isSome = true) ∧
    (let v := (staged.elapse 0).begun 0x0203 svc [1]
     staged.accepts 0 svc (decide (([1] : List Word).length = 1)) false false = true ∧ onlyBits [1] 0 [(1, 0)] = true ∧
      v.ctxMode = 0 ∧ (∀ r ∈ v.setRefusals false 0 [1], r.1 = false) ∧ (v.askSet 0 [1]).isSome = true ∧
      (v.wr Reg.PWR.LEDGER.CAP 0).askSet 0 [1] = none) := by
  decide +kernel

/-- What Keeper takes does not depend on the lock ledger. -/
theorem accepts_with_lock (s : State) (l : List LockEntry) (h : CmdHdr) :
    ({ s with cfg := { s.cfg with lock := l } } : State).accepts 0 h true false false = s.accepts 0 h true false false :=
  rfl

/-- OWNER_UNLOCK meets its hypotheses wherever the signature of some key verifies. -/
theorem wit_OwnerLockAndUnlock (key sig : List Word) (hk : key.length = 12) (hs : sig.length = 12)
    (hv : Config.ecdsaVerify (wordBytes key) (Config.sha384 ([0x43, 0x46, 0x55, 0x4C] ++
      leBytes 8 Config.serial.toNat ++ leBytes 4 1)) (wordBytes sig) = true) :
    (ready.loading = false ∧ ready.cfg.lock.length < 16 ∧
      ready.accepts 0 svc (decide ((List.replicate 7 (15 : Word)).length = 7)) false false = true ∧ ready.locked = false ∧
      onlyBits (List.replicate 7 15) 0 [(3, 0)] = true) ∧
    (let e : LockEntry := { locked := true, policy := 15, keyHash := digestWords (Config.sha384 (wordBytes key)) }
     let s := { ready with cfg := { ready.cfg with lock := [e] } }
     let ws := key ++ sig
     ws.length = 24 ∧ s.loading = false ∧ s.cfg.lock.length < 16 ∧ s.accepts 0 svc true false false = true ∧
      s.locked = true ∧
      (s.lockEntry.any fun e => e.keyHash == digestWords (Config.sha384 (wordBytes (ws.take 12)))) = true ∧
      Config.ecdsaVerify (wordBytes (ws.take 12)) (Config.sha384 ([0x43, 0x46, 0x55, 0x4C] ++
        leBytes 8 Config.serial.toNat ++ leBytes 4 s.cfg.lock.length)) (wordBytes (ws.drop 12)) = true) := by
  have h1 : (key ++ sig).take 12 = key := by rw [← hk]; simp
  have h2 : (key ++ sig).drop 12 = sig := by rw [← hk]; simp
  refine ⟨by decide +kernel, by simp [hk, hs], rfl, by simp, ?_, rfl, ?_, ?_⟩
  · exact (accepts_with_lock ready _ svc).trans (by decide +kernel)
  · simp [State.lockEntry, h1]
  · rw [h1, h2]; exact hv

theorem wit_ContainerReadsGoToTheirConsumer :
    (let s := withStream ready opened
     s.cfg.stream = some opened ∧ s.rdb Reg.CFG.STAT.SRC = false ∧ s.nextRead opened false .failed = true) ∧
    (let st := aStaging opened none
     let s := { ready with cfg := { ready.cfg with staging := some st } }
     s.cfg.staging = some st ∧ st.status = none ∧ s.nextRead st.stream st.gddr .failed = true) ∧
    (let s := { ready with cfg := { ready.cfg with jobs := [aJob opened] } }
     s.cfg.jobs.find? (fun j => j.slot = 0) = some (aJob opened) ∧
      s.nextRead (aJob opened).stream (aJob opened).gddr .failed = true) := by
  decide +kernel

/-- MIRROR_ON, MIRROR_OFF, and SCAN on and off. -/
theorem wit_ScannerAndMirror_commands :
    let s := g6Ready
    let v := (s.elapse 0).begun 0x0905 svc [1, 0]
    (∀ ws ∈ ([[1, 0], [2], [toWord (3 + 2 ^ 8)], [3]] : List (List Word)),
      s.accepts 0 svc (sigStatusLen ws) false false = true ∧ onlyBits ws 0 [(1, 0), (8, 8)] = true ∧
        (ws.getD 1 0).toNat % 4096 = 0) ∧
    mirrorSize ≤ v.g6Cap ∧ v.rdb Reg.CFG.MIRROR.ENABLED = false ∧ v.rdb Reg.CFG.MIRROR.COPYING = false ∧
      v.allocRefusal 0 mirrorSize = none ∧ v.rdb Reg.CFG.SCAN.ENABLED = false ∧ 4 ≤ v.freeBu := by
  decide +kernel

/-- A sound frame: the CRC-32 of no bytes is 0; and one in error. -/
theorem wit_ScannerAndMirror :
    let good : Frame := { bytes := [], sig := 0 }
    let bad : Frame := { bytes := [], sig := 1 }
    let s := { (used.wr Reg.CFG.SCAN.ENABLED 1) with cfg := { used.cfg with planes := [(5, bad), (9, good)] } }
    (s.rdb Reg.CFG.SCAN.ENABLED = true ∧ s.power = 0 ∧ s.fab.refills = [] ∧
      (s.cfg.planes.filter fun kv => decide (s.cfg.scanAt ≤ kv.1) && s.scanned kv.1) = (5, bad) :: [(9, good)] ∧
      bad.bad = true) ∧
    (let t := { s with cfg := { s.cfg with scanAt := 6 } }
     (t.cfg.planes.filter fun kv => decide (t.cfg.scanAt ≤ kv.1) && t.scanned kv.1) = (9, good) :: [] ∧ good.bad = false) ∧
    (let t := { s with cfg := { s.cfg with scanAt := 10 } }
     (t.cfg.planes.filter fun kv => decide (t.cfg.scanAt ≤ kv.1) && t.scanned kv.1) = []) ∧
    (let t := { s with cfg := { s.cfg with toRepair := [(frameKey 0 0 5, true)] } }
     t.cfg.toRepair.find? (fun r => r.1 = frameKey 0 0 5) = some (5, true)) ∧
    ({ s with cfg := { s.cfg with mirrorCmd := some 4 } } : State).cfg.mirrorCmd = some 4 := by
  decide +kernel

/-! ### Witnesses: time, reels, lanes -/

/-- Lane group 8 of one lane, set up and UP. -/
def group8 : Group :=
  { first := 8, wlog := 0, pseat := 2, pfirst := 4, fresh := false, recount := false, txHeld := [], txQueue := [], goBacks := 0,
    ackedAt := 0, nackUntil := none, unacked := false, startAt := 0, landing := [], freed := 0, loop := none, syncNo := 0, syncAt := 0,
    syncTxs := [], syncRx := 0, partnerSync := 0, meas := none, wakeUntil := none, downAt := 0, sent := [],
    unsent := 0 }

/-- A device with that group. -/
def linked (g : Group) : State :=
  { (ready.wr (Reg.LANE.STAT.STATE 8) 2).wr (Reg.LANE.CFG.SYNCEN 8) 1 with groups := [g] }

/-- Domain A from nothing, the host, PTP on the last time lane, and the reel. -/
theorem wit_TimeDomainSetupSetsADomain :
    ∀ ws ∈ ([[0, 0], [2 ^ 2, 0, toWord (999999999 * 2 ^ 16), 5], [toWord (2 * 2 ^ 2 + 67 * 2 ^ 16 + 1 * 2 ^ 32 + 2 ^ 36), 0],
        [toWord (3 * 2 ^ 2 + 8 * 2 ^ 16 + 8 * 2 ^ 28), 0]] : List (List Word)),
      let s := (((linked group8).wr (Reg.ETH.CFG.MODE 0) 1).wr (Reg.ETH.CFG.MODE 3) 1)
      let src := fieldOf (ws.getD 0 0) 3 2
      let path := fieldOf (ws.getD 0 0) 4 4
      let lane := fieldOf (ws.getD 0 0) 22 16
      let serve := fieldOf (ws.getD 0 0) 35 32
      s.accepts 0 svc (decide (ws.length = if src = 1 then 4 else 2)) false false = true ∧
      onlyBits ws 0 [(0, 0), (3, 2), (4, 4), (15, 8), (22, 16), (24, 24), (26, 25), (31, 28), (35, 32), (36, 36)] = true ∧
      onlyBits ws 1 [(31, 0)] = true ∧ fieldOf (ws.getD 0 0) 26 25 ≠ 3 ∧
      fieldOf (ws.getD 0 0) 31 28 ≤ 8 ∧ (∀ t < 4, bit serve t = true → s.rd (Reg.ETH.CFG.MODE t) ≠ 0) ∧
      s.domSource (1 - 0) ≠ 2 ∧ path = 0 ∧
      (src = 1 → onlyBits ws 2 [(47, 0)] = true ∧ onlyBits ws 3 [(47, 0)] = true ∧
        fieldOf (ws.getD 2 0) 47 16 ≤ 999999999) ∧
      (src = 2 → 64 ≤ lane ∧ lane ≤ 67 ∧ bit serve (lane - 64) = false ∧ s.rd (Reg.ETH.CFG.MODE (lane - 64)) ≠ 0) ∧
      (src = 3 → path = 0 ∧ lane ≤ 63 ∧ (s.group lane).isSome = true ∧ s.rdb (Reg.LANE.CFG.SYNCEN lane) = true) ∧
      (flagOf (ws.getD 0 0) 36 = true → (serveLanes serve).length ≤
        ((List.range 16).filter fun k => s.cueFunc k = 0).length + (s.dom 0).frameCues.length) ∧
      s.rd Reg.STEP.CTRL.MODE ≠ 3 := by
  decide +kernel

/-- Domain A is LOCKED and selected. -/
def locked : State := (ready.wr (domStateF 0) dsLocked).wr (Reg.TIME.DOM.SOURCE 0) 1

theorem wit_TimeSelectAndCueSet :
    (locked.accepts 0 svc (decide (([4] : List Word).length = 1)) false false = true ∧
      onlyBits [4] 0 [(0, 0), (1, 1), (2, 2)] = true ∧ locked.domState 0 ≠ dsOff ∧ locked.anyArmed = false ∧
      locked.rd Reg.STEP.CTRL.MODE ≠ 3) ∧
    (∀ ws ∈ ([[toWord (15 * 2 ^ 4 + fnTrace * 2 ^ 8), 0, 5, 0], [toWord (fnNotify * 2 ^ 8 + 2 ^ 12), toWord (999999999 * 2 ^ 16), 5, 8],
        [toWord (1 * 2 ^ 4 + fnStep * 2 ^ 8), 0, 5, 0], [toWord (2 * 2 ^ 4 + fnOutput * 2 ^ 8), 0, 5, 0],
        [toWord (1 + 3 * 2 ^ 4), 0, 0, 0], [toWord (2 + 7 * 2 ^ 4 + 3 * 2 ^ 16), 0, 0, 0]] : List (List Word)),
      locked.accepts 0 svc (decide (ws.length = 4)) false false = true ∧
        onlyBits ws 0 [(1, 0), (7, 4), (11, 8), (12, 12), (17, 16)] = true ∧ onlyBits ws 1 [(47, 0)] = true ∧
        onlyBits ws 2 [(47, 0)] = true ∧ onlyBits ws 3 [(39, 0)] = true ∧
        (flagOf (ws.getD 0 0) 12 = true → fieldOf (ws.getD 3 0) 39 0 ≠ 0) ∧ fieldOf (ws.getD 1 0) 47 16 ≤ 999999999) ∧
    (locked.cueFree 15 fnTrace = true ∧ locked.cueFree 0 fnNotify = true ∧ (locked.claimCue 1 fnStep).cueFunc 1 = fnStep ∧
      locked.rdb Reg.TIME.REEL.JOINED = false ∧ (locked.claimCue 2 fnOutput).cueFunc 2 = fnOutput ∧ locked.cueFunc 3 = 0 ∧
      4 < (locked.claimCue 3 5).cueFunc 3) := by
  decide +kernel

theorem wit_TimeEventsAndPins :
    ((ready.wr (Reg.TIME.DOM.SOURCE 1) 2).domSource 1 = 2) ∧
    (let g := { group8 with meas := some (5, 6) }
     let s := { ((linked g).wr (Reg.TIME.DOM.SOURCE 0) 3) with time := { ready.time with domA := { ready.time.domA with lane := 8 } } }
     s.domSource 0 = 3 ∧ s.domGroup 0 = some g ∧ g.meas = some (5, 6)) ∧
    (let s := (ready.wr (Reg.TIME.DOM.SOURCE 1) 2).wr (domStateF 1) dsAcquiring
     2 ≤ s.domSource 1 ∧ s.domState 1 = dsAcquiring ∧ (s.wr (domStateF 1) dsLocked).domState 1 = dsLocked ∧ (s.dom 1).heardAt + 3 * s.domInterval 1 ≤ s.now + 2 ^ 60) ∧
    (let s := locked.wr Reg.TIME.STAT.SLEW 1
     let u := s.elapse 0
     s.rdb Reg.TIME.STAT.SLEW = true ∧ u.domState u.selected ≠ dsOff ∧ (u.dom u.selected).time ≤ u.time.out + 2 ^ 16 ∧
      u.time.out ≤ (u.dom u.selected).time + 2 ^ 16 ∧ ¬ 2 ^ 40 ≤ (u.dom u.selected).time + 2 ^ 16) ∧
    (let s := ready.wr Reg.TIME.STAT.SLEW 1
     s.rdb Reg.TIME.STAT.SLEW = true ∧ (s.elapse 0).domState (s.elapse 0).selected = dsOff) ∧
    (let s := (ready.claimCue 15 fnNotify).wr (Reg.TIME.CUE.THI.ARMED 15) 1
     (s.elapse 0).cueDue 15 = true) ∧
    (let s := ready.wr (Reg.TIME.CAP.HI.EDGESEL 7) 3
     bit (ready.rd (Reg.TIME.CAP.HI.EDGESEL 7)) 0 = false ∧ bit (s.rd (Reg.TIME.CAP.HI.EDGESEL 7)) 0 = true ∧ bit (s.rd (Reg.TIME.CAP.HI.EDGESEL 7)) 1 = true ∧
      s.time.capLast.getD 7 none = none ∧ (s.time.caps.getD 7 []).length < 4 ∧
      4 ≤ ((s.time.caps.set 7 (List.replicate 4 ⟨0, 0, 0, true⟩)).getD 7 []).length) ∧
    (let s := ready.wr (Reg.IOB.CFG.ACTIVE 15) 1
     s.clk.sampledAt.at 0 (16 + 15) + 100 * fsUs ≤ s.now + 100 * fsUs ∧ (s.rdb (Reg.IOB.CFG.ACTIVE 15) = true ∧ 899 * 100 < vccioMv (s.rd (Reg.IOB.CFG.VCCIO 15)) * 90) ∧
      ¬ (s.rdb (Reg.IOB.CFG.ACTIVE 15) = true ∧ 900 * 100 < vccioMv (s.rd (Reg.IOB.CFG.VCCIO 15)) * 90)) := by
  decide +kernel

/-- A reel of which step 0 has its promise window open. -/
def aReel : Reel :=
  { t0 := 0, period := 2000, guard := 800, m0 := 0, slip := 0, hold := -9, groups := [8], stopAt := none, closed := none,
    late := [] }

/-- A multi-device step whose porch input 1 takes its value from channel 6 of group 8. -/
def reeling (r : Reel) : State :=
  let c := { ctx3 with porchIns := [{ porch := 0, chan := 1, bits := [], dest := .wing 3 1, route := [], cross := some (6, 8) }] }
  let s := (linked group8).wr Reg.STEP.CTRL.MODE 3
  let s := (s.wr Reg.STEP.STAT.STATE seRunning).wr (planeStateF 0) 3
  { s with time := { s.time with reel := some r }, cfg := { s.cfg with ctxs := [c, .empty, .empty, .empty] } }

theorem wit_ReelsJoinAndWait :
    (let s := { locked with groups := [group8] }.wr (Reg.LANE.STAT.STATE 8) 2
     let ws : List Word := [toWord (5 + 15 * 2 ^ 12 + 2 ^ 16), 2000, 1000, toWord (1000000 * 2 ^ 16), 0, toWord (2 ^ 8)]
     let v := (s.elapse 0).begun 0x0804 svc ws
     let guard := fieldOf (ws.getD 2 0) 23 0
     let t0 := fieldOf (ws.getD 4 0) 47 0 * (1000000000 * 65536) + fieldOf (ws.getD 3 0) 47 16 * 65536 +
       fieldOf (ws.getD 3 0) 15 0
     let groups := (List.range 64).filter fun n => flagOf (ws.getD 5 0) n
     let hop := v.reelHop groups
     s.accepts 0 svc (decide (ws.length = 6)) false false = true ∧
      onlyBits ws 0 [(11, 0), (15, 12), (25, 16)] = true ∧ onlyBits ws 1 [(19, 0)] = true ∧ onlyBits ws 2 [(23, 0)] = true ∧
      onlyBits ws 3 [(47, 0)] = true ∧ onlyBits ws 4 [(47, 0)] = true ∧ fieldOf (ws.getD 0 0) 25 16 = 1 ∧ 100 ≤ guard ∧
      guard ≤ 10000000 ∧ fieldOf (ws.getD 3 0) 47 16 ≤ 999999999 ∧ v.outUnits + 1000000 * 65536 ≤ t0 ∧
      t0 ≤ v.outUnits + 1000000 * (1000000 * 65536) ∧
      maxList (v.promises v.ctxMode v.ctxsInUse) + hop ≤ 2000 ∧ 1 * (hop + 192) ≤ 8 * guard ∧ s.engine = seHalted ∧
      groups = [8] ∧ (∀ g ∈ groups, (v.group g).isSome = true ∧ v.laneUp g = true) ∧
      v.domState v.selected = dsLocked ∧ (∀ d ∈ v.runSegments, v.rd (Reg.STEP.CARDSEG.LEN d) ≠ 0) ∧ v.power < 2 ∧
      v.pwr.target = none ∧ v.engineBusy = false ∧ v.cueFree 15 fnStep = true ∧
      v.demandOf 3 v.ctxMode 2000 v.ctxsInUse ≤ v.holds 0x0A + v.freeBu ∧ v.badParts = false) ∧
    (let s := reeling aReel
     s.time.reel = some aReel ∧ s.rd Reg.STEP.CTRL.MODE = 3 ∧ s.stepping = true ∧
      (aReel.closed.all fun c => c.1 != s.rd Reg.STEP.COUNT.COUNT) = true ∧
      aReel.launchUnits (s.rd Reg.STEP.COUNT.COUNT) * 65536 ≤ (s.elapse 0).time.out ∧
      s.missing s.currentCtx 0 ≠ [] ∧ aReel.inShadow 0 = false) ∧
    (let s := { reeling aReel with groups := [{ group8 with landing := [(0, 6, [1])] }] }
     s.missing s.currentCtx 0 = []) ∧
    (let r := { aReel with closed := some (0, 0), late := [6] }
     let s := { reeling r with time := { (reeling r).time with out := 10 ^ 15 } }
     s.time.reel = some r ∧ s.stillLate = 6 :: [] ∧
      ((r.closed.map Prod.snd).getD 0 + r.guard * 8192) * 65536 ≤ (s.elapse 0).time.out) := by
  decide +kernel

/-- An Ethernet frame of 64 bytes for address 77, with the two bytes of its type and what follows them, and its right FCS. -/
def ethBytes (type : List Byte) : List Byte :=
  let head : List Byte := [0, 0, 0, 0, 0, 77] ++ List.replicate 6 0 ++ type ++ List.replicate (48 - type.length) 0
  head ++ leBytes 4 (crc32 head)

/-- A lane frame of a KIND. -/
def frameOf (kind : Nat) (word : Word) : LaneFrame := { start := 0x78 + kind * 2 ^ 24, word := word, payload := [], crc := 0, others := [] }

/-- The least and greatest KIND of no frame; HOLD, STOP and SYNC; a SYNC interval; a lane that hears Ethernet. -/
theorem wit_FramesArrive :
    ((linked group8).laneHears 8 = true ∧ rxKind (frameOf 0 0) ≤ 1 ∧ rxKind (frameOf 1 0) ≤ 1 ∧ 5 < rxKind (frameOf 6 0) ∧
      rxKind (frameOf kindHold (toWord (2 ^ 48))) = kindHold ∧ fieldOf (frameOf kindHold (toWord (2 ^ 48))).word 51 48 = 1 ∧
      fieldOf (frameOf kindHold (toWord (2 * 2 ^ 48))).word 51 48 = 2 ∧ rxKind (frameOf kindSync 0) = kindSync) ∧
    ((linked group8).group 8 = some group8 ∧ (linked group8).laneSends 8 = true ∧
      (linked group8).rdb (Reg.LANE.CFG.SYNCEN 8) = true ∧
      group8.syncAt + (linked group8).rd (Reg.LANE.CFG.SYNCINT 8) * fsUs ≤ (linked group8).now + 2 ^ 50) ∧
    ((ready.wr (Reg.ETH.STAT.LINK 3) 1).rdb (Reg.ETH.STAT.LINK 3) = true ∧
      (ready.wr (Reg.ETH.CFG.ADDR 3) 77).rd (Reg.ETH.CFG.ADDR 3) = 77 ∧ (ready.rd (Reg.ETH.CFG.ADDR 3) = 0)) ∧
    (ready.wr (Reg.TIME.DOM.SOURCE 1) 1).domSource 1 ≠ 0 := by
  decide +kernel

/-- A good frame for the lane; one for another address; a PAUSE frame; a bad FCS; a frame of 4 bytes. -/
theorem wit_FramesArrive_eth :
    (ethFcsOk (ethBytes [8, 0]) = true ∧ ethShapeOk (ethBytes [8, 0]) = true ∧ ethPause (ethBytes [8, 0]) = false ∧
      beNat ((ethBytes [8, 0]).take 6) = 77 ∧ BitVec.ofNat 48 (beNat ((ethBytes [8, 0]).take 6)) ∉ ptpAddresses) ∧
    (ethFcsOk (ethBytes [0x88, 0x08, 0, 1]) = true ∧ ethShapeOk (ethBytes [0x88, 0x08, 0, 1]) = true ∧
      ethPause (ethBytes [0x88, 0x08, 0, 1]) = true) ∧
    ethFcsOk (ethBytes [8, 0] ++ [1]) = false ∧ (ethFcsOk [0, 0, 0, 0] = true ∧ ethShapeOk [0, 0, 0, 0] = false) := by
  decide +kernel
/-! ### Witnesses: lane groups -/

/-- A time lane, a group of 16 lanes at the top of the range, its release, and the release of lanes without a group; the three
loops of a group; sleep and waking; the end of a loop. -/
theorem wit_LaneCommandsAct :
    (∀ ws ∈ ([[toWord (67 + 1 * 2 ^ 12 + 2 ^ 16), 0, 0, 5], [toWord (48 + 4 * 2 ^ 8 + 3 * 2 ^ 12 + 2 ^ 16), 0, 0],
        [toWord 8, 0, 0], [toWord 63, 0, 0]] : List (List Word)),
      let s := linked group8
      let v := (s.elapse 0).begun 0x0701 svc ws
      let first := fieldOf (ws.getD 0 0) 6 0
      let wlog := fieldOf (ws.getD 0 0) 10 8
      s.accepts 0 svc (laneSetupLen ws) false false = true ∧
        onlyBits ws 0 [(6, 0), (10, 8), (13, 12), (16, 16), (17, 17), (18, 18), (31, 24)] = true ∧
        onlyBits ws 1 [(15, 0), (31, 16), (35, 32)] = true ∧ onlyBits ws 2 [(9, 0), (21, 16)] = true ∧
        onlyBits ws 3 [(47, 0)] = true ∧ laneWordsBad (ws.getD 0 0).toNat = false ∧ group8.loop = none ∧
        2 ≤ v.freeBu ∧ (v.group first = none ∨ v.rdb (Reg.LANE.CFG.INUSE first) = false) ∧ v.lanesTaken first wlog = false ∧
        v.spreadBad = false ∧ laneBu wlog (fieldOf (ws.getD 0 0) 13 12) ≤ v.groupHolds first + v.freeBu) ∧
    ((linked group8).group 8 = some group8 ∧ (linked group8).group 63 = none) ∧
    (∀ ws ∈ ([[toWord (8 + 1 * 2 ^ 8), 0], [toWord (8 + 2 * 2 ^ 8 + 2 ^ 12), 10000000], [8, 0]] : List (List Word)),
      let s := linked group8
      s.accepts 0 svc (decide (ws.length = 2)) false false = true ∧
        onlyBits ws 0 [(5, 0), (9, 8), (12, 12)] = true ∧ onlyBits ws 1 [(31, 0)] = true ∧
        fieldOf (ws.getD 1 0) 31 0 ≤ 10000000 ∧ s.groupOf (fieldOf (ws.getD 0 0) 5 0) = some group8 ∧
        s.rdb (Reg.LANE.CFG.INUSE 8) = false ∧
        (flagOf (ws.getD 0 0) 12 = true → fieldOf (ws.getD 0 0) 9 8 ≠ 3 ∧ fieldOf (ws.getD 1 0) 31 0 ≠ 0)) ∧
    (let g := { group8 with loop := some (8, 2, some 4, 5) }
     (linked g).groupOf 8 = some g ∧ g.loop = some (8, 2, some 4, 5) ∧ 5 ≠ 0 ∧ 5 ≤ (linked g).now + 5) ∧
    (∀ ws ∈ ([[toWord (8 + 3 * 2 ^ 8 + 2 ^ 10)], [toWord (8 + 2 ^ 8)]] : List (List Word)),
      let s := linked group8
      let v := (s.elapse 0).begun 0x0704 svc ws
      s.accepts 0 svc (decide (ws.length = 1)) false false = true ∧
        onlyBits ws 0 [(5, 0), (8, 8), (9, 9), (10, 10), (12, 12)] = true ∧ v.group 8 = some group8 ∧
        v.rdb (Reg.LANE.CFG.INUSE 8) = false ∧ 2 ^ group8.wlog ≤ v.freeBu) := by
  decide +kernel

/-- Group 8, training. -/
def training : State := (linked group8).wr (Reg.LANE.STAT.STATE 8) 1

/-- A skew of 32 blocks, one of 33, another seat; a group that is down for a miswire; the link's timers. -/
theorem wit_GroupsComeUpAndGoDown :
    (training.group 8 = some group8 ∧ (training.elapse 0).tries group8 = true ∧
      (∀ k ∈ (List.range (2 ^ group8.wlog)).map fun i => ([32] : List Nat).getD i 0, k ≤ 32) ∧
      (∃ k ∈ (List.range (2 ^ group8.wlog)).map fun i => ([33] : List Nat).getD i 0, 32 < k) ∧ 3 ≠ group8.pseat) ∧
    ((linked group8).groupOf 8 = some group8 ∧ (linked group8).rdb (Reg.LANE.STAT.TXSLEEP 8) = false ∧
      (linked group8).rdb (Reg.LANE.STAT.RXSLEEP 8) = false) ∧
    (let s := ((linked group8).wr (Reg.LANE.STAT.STATE 8) 3).wr (Reg.LANE.STAT.CAUSE 8) 5
     s.group 8 = some group8 ∧ s.rd (Reg.LANE.STAT.STATE 8) = 3 ∧ s.rd (Reg.LANE.STAT.CAUSE 8) = 5 ∧
      group8.downAt + 10 * fsMs ≤ s.now + 10 * fsMs) ∧
    (let s := ready.wr (Reg.ETH.CFG.MODE 3) 1
     s.rd (Reg.ETH.CFG.MODE 3) ≠ 0 ∧ (s.elapse 0).coasts (7 + 3 / 2) = false ∧ s.power < 2) ∧
    ((linked group8).laneHears 8 = true ∧ rxKind (frameOf kindAck 0) = kindAck ∧ rxKind (frameOf kindNack 0) = kindNack ∧
      (linked group8).laneSends 8 = true) ∧
    (let g := { group8 with unacked := true, txHeld := [⟨1, 2, 3, 4, 5, [], 0, false⟩], nackUntil := some 0, wakeUntil := some 0 }
     (linked g).group 8 = some g ∧ (linked g).laneSends 8 = true ∧ g.unacked = true ∧
      g.startAt + fsUs ≤ (linked g).now + fsUs ∧ g.txHeld ≠ [] ∧
      g.ackedAt + 4 * fsUs ≤ (linked g).now + 4 * fsUs ∧ g.nackUntil = some 0 ∧ g.wakeUntil = some 0 ∧ 0 ≤ (linked g).now) ∧
    (let s := (linked group8).wr (Reg.LANE.STAT.RXSLEEP 8) 1
     s.rdb (Reg.LANE.STAT.RXSLEEP 8) = true ∧ (s.wr (Reg.LANE.CFG.WAKESRC 8) 1).rdb (Reg.LANE.CFG.WAKESRC 8) = true ∧
      s.rdb (Reg.LANE.CFG.WAKESRC 8) = false ∧ s.power < 2) := by
  decide +kernel

/-! ### Witnesses: attic maintenance, corridors -/

/-- A SCRUB of one line at the start of the attic, its line under way in tower 0. -/
def aScrub (k : Nat) : MaintJob :=
  { cmd := 0, fill := false, start := 0, length := 8, writeback := false, pattern := none, next := [(0, k, 0)], began := 0,
    read := 0, invalid := 0, corrected := 0, uncorrectable := 0, outer := 0, firstBad := none, towersLeft := [0] }

/-- Maintenance under way. -/
def maintained (j : MaintJob) : State := { ready with attic := { ready.attic with jobs := [j] } }

/-- A request for the steward of tower 0: a READ of one word, or a WRITE. -/
def toAttic (type addr be : Nat) : Packet :=
  { type := type, dest := 0, init := 1026, tag := 0, gen := 0, urg := 0, len := 0, firstbe := be, lastbe := be, status := 0,
    erridx := 0, addr := 0x10_0000_0000 + addr, entry := 0, alt := false, data := [], ready := 0, buf := 0 }

/-- That request, waiting at the steward. -/
def asked (p : Packet) : State := { ready with noc := { ready.noc with targets := [(0, p)] } }

/-- SCRUB and ATC_FILL of one line and of the attic's last word; a line and its end; a move, a retirement, a repetition; a check;
a steward that is off, one that refuses, one that reads and one that takes a write; a write that waits. -/
theorem wit_MaintenanceAndStewards :
    (∀ ws ∈ ([[0, 8, 1], [toWord (atticEnd - 8), 1, 0]] : List (List Word)),
      let v := (ready.elapse 0).begun 0x0301 svc ws
      let a := (ws.getD 0 0).toNat
      let n := (ws.getD 1 0).toNat
      ready.accepts 0 svc (decide (ws.length = 3)) false false = true ∧ rangeBad a n = false ∧
        onlyBits ws 2 [(0, 0)] = true ∧ v.maintBusy a n = false ∧ 4 * (rangeTowers a n).length ≤ v.freeBu ∧
        ∀ b ∈ rangeBlocks a n, v.attic.isRetired b.1 b.2 = false ∧ v.attic.ownerOf b.1 b.2 = none) ∧
    ready.accepts 0 svc (decide (([0, 8, 1, 5] : List Word).length = 4)) false false = true ∧
    (let s := maintained (aScrub 0)
     s.lineJob 0 = some (aScrub 0, 0, 0) ∧ 0 ≤ s.now ∧ s.atticUp = true ∧ s.towerReady 0 = true ∧
      s.lineRoom (aScrub 0) 0 0 = true ∧ s.lineRoom { aScrub 0 with fill := true } 0 0 = true) ∧
    (∀ fill ∈ [true, false],
      let j := { aScrub 1 with fill := fill }
      (maintained j).attic.jobs.find? (fun j => j.fill = fill ∧ j.towersLeft.contains 0 ∧ j.movedIn 0) = some j) ∧
    (maintained (aScrub 0)).atticUp = true := by
  decide +kernel

theorem wit_MaintenanceAndStewards_remap :
    (∀ ws ∈ ([[toWord (7 + 63 * 2 ^ 8 + 23 * 2 ^ 16)], [toWord (7 + 63 * 2 ^ 8 + 23 * 2 ^ 16 + 2 ^ 24)]] : List (List Word)),
      let v := (ready.elapse 0).begun 0x0304 svc ws
      let w := ws.getD 0 0
      ready.accepts 0 svc (decide (ws.length = 1)) false false = true ∧
        onlyBits ws 0 [(2, 0), (13, 8), (20, 16), (24, 24)] = true ∧ fieldOf w 20 16 ≤ 23 ∧
        (511, 23, flagOf w 24) ∉ v.attic.moves ∧ v.dev.ledger.length < 256 ∧ v.attic.spareOpen 511 = true) ∧
    ((511, 23, true) ∈ ({ ready.attic with moves := [(511, 23, true)] } : Attic).moves) ∧
    ({ ready.attic with spareFor := [(511, 5)] } : Attic).spareOpen 511 = false ∧
    256 ≤ (List.replicate 256 (Repair.mk 3 511 5 [])).length := by
  decide +kernel

theorem wit_MaintenanceAndStewards_stewards :
    (let x : OuterCheck := { wing := 70, block := 0, word := 9, fixed := 5, source := 0, writeback := true }
     ([x].find? fun c => c.wing / 64 = 1) = some x) ∧
    (let p := toAttic 1 0 255
     (asked p).noc.targets.find? (fun x => x.1 = 0) = some (0, p) ∧
      ((asked p).wr Reg.PWR.STATE.STATE 2).atticUp = false ∧ (asked p).atticUp = true ∧
      (asked p).expired p = false ∧ ({ asked p with time := { (asked p).time with out := 250001 * 2 ^ 32 } }).expired p = true ∧
      (asked p).stewardRefuses (toAttic 1 4 255) = true ∧ (asked p).stewardRefuses p = false ∧ p.type ≠ 2 ∧
      (asked p).stewardRefuses (toAttic 2 (atticEnd - 8) 255) = false ∧ (toAttic 2 (atticEnd - 8) 255).type = 2) ∧
    (let m : MaintWrite := { wing := 3, block := 0, word := 0, data := 5, inv := [], scrub := false, clear := false, crc := true }
     let s := { ready with attic := { ready.attic with waiting := [(m, some (0, toAttic 2 0 255))] } }
     s.attic.waiting.find? (fun x => x.1.wing = 3) = some (m, some (0, toAttic 2 0 255)) ∧ s.maintRoom 3 = true) := by
  decide +kernel

/-- A channel that crosses the first corridor. -/
def hop0 : Hop := { dir := 0, group := 31, slot := 15 }

/-- A token at that corridor. -/
def crossing : Token := { aToken with hops := [hop0] }

/-- A step of a context whose porch input crosses it too. -/
def crossed : State :=
  let s := during { aStep false with tokens := [crossing] }
  let c := { ctx3 with porchIns := [{ porch := 0, chan := 1, bits := [], dest := .wing 3 1, route := [hop0], cross := none }] }
  { s with cfg := { s.cfg with ctxs := [c, .empty, .empty, .empty] } }

/-- A token and an acknowledge at a corridor; a wire of each half and neither; the handshake; a group that has been idle for 20 ns and a
spare, of the last direction; a corridor whose groups are re-mapped. -/
theorem wit_CorridorsCarryAndRepair :
    (∀ ack ∈ [false, true],
      let t := { crossing with isAck := ack }
      let r := { aStep false with tokens := [t] }
      let s := { crossed with step := { crossed.step with cur := some r } }
      s.step.cur = some r ∧ s.corr.usable 0 31 = true ∧
      r.tokens.find? (fun t => (match t.hops with
        | h :: _ => h.dir == 0 && s.corr.place (s.phaseCtx r) h == (31, 15)
        | [] => false) && decide (t.ready ≤ s.now + 0) && !(s.elapse 0).routeCut t.hops) = some t ∧
      ∃ h ∈ s.dirHops (s.phaseCtx r) 0, (s.corr.place (s.phaseCtx r) h).1 = 31) ∧
    (27 < dirCount ∧ (ready.corr.usable 27 31 = true ∧ ready.corr.state 27 33 = 5) ∧ ready.step.cur = none ∧
      ready.corr.state 27 31 ≠ 3 ∧ ready.corr.state 27 31 ≠ 2 ∧
      ready.corr.lastXfer.at 0 (groupKey 27 31) + 20 * fsNs ≤ ready.now + 20 * fsNs) ∧
    (let s := { ready with corr := { ready.corr with remaps := [(0, 31, 0)] } }
     (∃ m ∈ s.corr.remaps, m.1 = 0) ∧ (8 ≤ (dirEnds 0).1 ∨ s.towerReady (dirEnds 0).1 = true) ∧
      (8 ≤ (dirEnds 0).2 ∨ s.towerReady (dirEnds 0).2 = true)) := by
  decide +kernel
/-! ### Witnesses: hallway, GDDR6, encryption -/

/-- A READ of one word for target `dest`, at router `r`. -/
def readTo (dest type : Nat) : Packet := { toAttic 1 0 255 with type := type, dest := dest, init := 1026 }

/-- A device with a packet at router 5. -/
def routed (p : Packet) : State := { ready with noc := { ready.noc with routers := [(5, p)] } }

/-- A tag in use since the start. -/
def aTag : TagUse :=
  { tag := 65535, init := 1027, gen := 3, write := false, words := 1, target := 0, entry := 0, purpose := .keeper,
    quarantine := none }

/-- Packets of no TYPE, of a tower that is not ready, at the goal, on the way, and where no router leads on. -/
theorem wit_PacketsAndTagsMove :
    (∀ p ∈ [readTo 0x10 0, readTo 0x20 1, readTo 0x11 1],
      ((∃ output ∈ List.range 17, ((routed p).elapse 0).pump.routerFront 5 output false = some p) ∧ ((routed p).elapse 0).pump.routerUp 5 = true)) ∧
    [1, 2, 8, 9, 0xA].contains (readTo 0x10 0).type = false ∧
    ([1, 2, 8, 9, 0xA].contains (readTo 0 1).type = true ∧ (ready.wr Reg.DEV.READY.TOWER 254).towerReady 0 = false) ∧
    (ready.expired { readTo 0x20 1 with entry := 2 ^ 32 - 250001 } = true ∧
      ready.expired { readTo 0x20 1 with entry := 2 ^ 32 - 250000 } = false) ∧
    ((readTo 0x10 1).goal 1 = 1 ∧ (readTo 0x11 1).goal 1 ≠ 1 ∧
      (ready.nextRouter 1 ((readTo 0x11 1).goal 1)).isSome = true ∧
      ((ready.wr Reg.NOC.STAT.INSERVICE 2).nextRouter 1 ((readTo 0x11 1).goal 1)) = none) := by
  decide +kernel

theorem wit_PacketsAndTagsMove_tags :
    (let p := { readTo 0 8 with init := 1027, tag := 65535, gen := 3 }
     let s := { ready with noc := { ready.noc with arrived := [(1027, p)], tags := [aTag] } }
     s.noc.arrived.find? (fun x => x.1 = 1027) = some (1027, p) ∧ s.expired p = false ∧ s.expired { p with entry := 2 ^ 32 - 250001 } = true ∧
      s.portFull aTag = false ∧
      s.noc.tags.find? (fun t => t.tag = p.tag ∧ t.gen = p.gen ∧ t.init = 1027 ∧ t.quarantine = none) = some aTag ∧
      s.noc.tags.find? (fun t => t.tag = p.tag ∧ t.gen = 0 ∧ t.init = 1027 ∧ t.quarantine = none) = none) ∧
    (let s := { ready with noc := { ready.noc with tags := [aTag] } }
     s.noc.tags.find? (fun t => t.tag = 65535 ∧ t.quarantine = none) = some aTag ∧
      aTag.entry + s.tagLimit ≤ s.now + 200 * fsUs ∧ s.portFull aTag = false) ∧
    (let x := { aTag with quarantine := some 0 }
     ([x].find? fun t => t.tag = 65535 && t.quarantine.any fun q => decide (q + 64 * fsUs ≤ ready.now + 64 * fsUs)) =
      some x) ∧
    (let p := { readTo 0x20 1 with entry := 2 ^ 32 - 250001 }
     let s := routed p
     (s.elapse 0).noc.routers.find? (fun x => x.1 = 5 && (s.elapse 0).expired x.2) = some (5, p) ∧
      (let t := { ready with noc := { ready.noc with targets := [(0x10, p)] } }
       ((t.elapse 0).noc.routers.find? (fun x => x.1 = 0 && (t.elapse 0).expired x.2) = none ∧
        (t.elapse 0).noc.targets.find? (fun x => (t.elapse 0).responseRouter x.1 x.2 = (t.elapse 0).responseRouter 0x10 p &&
          (t.elapse 0).expired x.2 && !(t.elapse 0).g6.answered.contains x.2) = some (0x10, p))) ∧
      (let t := { ready with noc := { ready.noc with arrived := [(1024, p)] } }
       t.noc.arrived.find? (fun x => x.2.goal (p.goal 0) = p.goal 0 && (t.elapse 0).expired x.2) = some (1024, p))) ∧
    (let s := { ready with noc := { ready.noc with drains := [(7, 0, 0)] } }
     s.noc.drains.find? (fun d => d.1 = 7) = some (7, 0, 0) ∧ ∀ x ∈ s.noc.routers, x.1 ∉ towerRouters 7) := by
  decide +kernel

/-- Initiator 1,024 at its least quota, and Keeper named unchanged. -/
theorem wit_NocQuotaWaitsAndApplies :
    (let ws : List Word := [1, toWord (1024 + 256 * 2 ^ 16 + 7 * 2 ^ 40 + 10 * 2 ^ 48)]
     let v := (ready.elapse 0).begun 0x0402 svc ws
     let es := [(fieldOf (ws.getD 1 0) 10 0, fieldOf (ws.getD 1 0) 32 16, fieldOf (ws.getD 1 0) 42 40, fieldOf (ws.getD 1 0) 51 48)]
     ready.accepts 0 svc (decide (ws.length = 1 + 1)) false false = true ∧ onlyBits ws 0 [(10, 0)] = true ∧
      fieldOf (ws.getD 0 0) 10 0 = 1 ∧ onlyBits ws 1 [(10, 0), (32, 16), (42, 40), (51, 48)] = true ∧
      (es.map Prod.fst).Nodup ∧ es = [(1024, 256, 7, 10)] ∧ v.quotaTotal es ≤ 65536 ∧
      v.quotaRise es ≤ v.freeBu) ∧
    (let q : QuotaJob := { cmd := 0, entries := [(5, 16, 0, 0)], began := 0, bu := 0 }
     let s := { ready with noc := { ready.noc with quotas := [q] } }
     s.noc.quotas.find? (fun q => !(q.entries.any fun e => s.noc.tags.any fun t => t.init = e.1) &&
        decide (s.quotaTotal q.entries ≤ 65536)) = some q ∧
      s.noc.quotas.find? (fun q => decide (q.began + 10 * fsMs ≤ s.now + 10 * fsMs)) = some q) := by
  decide +kernel

/-- A G6_INIT that waits for its channels. -/
def g6Job (full : Bool) : G6Job :=
  { cmd := 0, map := .plain, older := [], full := full, word0 := 0, channels := 1, left := [0], failed := 0, sridle := 1,
    trainper := 1 }

/-- A request at controller 7. -/
def g6Asked : State := { g6Ready with noc := { g6Ready.noc with targets := [(0x27, readTo 0x27 1)] } }

/-- A full initialisation at both ends of RATE, a RETRAIN, a map written, read and a region released, a port's binding. -/
theorem wit_Gddr6Acts :
    (∀ ws ∈ ([[toWord (14 * 2 ^ 16), toWord (1 + 2 ^ 32)], [toWord (20 * 2 ^ 16), toWord (1000000 + 1000 * 2 ^ 32)],
        [toWord (1 + 14 * 2 ^ 16 + 2 ^ 47), toWord (1 + 2 ^ 32)]] : List (List Word)),
      let v := (ready.elapse 0).begun 0x0501 svc ws
      ready.accepts 0 svc (decide (ws.length = 2)) false false = true ∧
        onlyBits ws 0 [(0, 0), (9, 4), (23, 16), (47, 32)] = true ∧ onlyBits ws 1 [(19, 0), (41, 32)] = true ∧
        14 ≤ fieldOf (ws.getD 0 0) 23 16 ∧ fieldOf (ws.getD 0 0) 23 16 ≤ 20 ∧ 1 ≤ fieldOf (ws.getD 1 0) 19 0 ∧
        fieldOf (ws.getD 1 0) 19 0 ≤ 1000000 ∧ 1 ≤ fieldOf (ws.getD 1 0) 41 32 ∧ fieldOf (ws.getD 1 0) 41 32 ≤ 1000 ∧
        v.g6.job = none ∧ v.stepping = false ∧ v.g6.regions = [] ∧
        v.fits 0x0F (g6Bu (fieldOf (ws.getD 0 0) 23 16) (flagOf (ws.getD 0 0) 5) (flagOf (ws.getD 0 0) 6)) = true) ∧
    fieldOf (toWord (1 + 14 * 2 ^ 16 + 2 ^ 47)) 47 32 ≠ 0 ∧
    (∀ full ∈ [true, false], ({ ready with g6 := { ready.g6 with job := some (g6Job full) } } : State).g6.job = some (g6Job full) ∧
      (g6Job full).older = []) ∧
    (let set := [0] ++ G6Map.plain.toWords
     ready.accepts 0 svc (g6MapLen set) false false = true ∧ (ready.cmdOf 0x0502 svc set).g6mapBad = false) ∧
    (ready.accepts 0 svc (g6MapLen [1]) false false = true ∧ (ready.cmdOf 0x0502 svc [1]).g6mapBad = false ∧
      g6Ready.g6.active = some .plain ∧ ready.g6.active = none) ∧
    (let r : Region := { base := 0, size := imageSize, owner := .state }
     let s := { g6Ready with g6 := { g6Ready.g6 with regions := [(15, r)] } }
     s.accepts 0 svc (g6MapLen [2, 15]) false false = true ∧ (s.cmdOf 0x0502 svc [2, 15]).g6mapBad = false ∧
      s.regionAt 15 = some r ∧ r.owner = .state ∧ s.g6.save = none) := by
  decide +kernel

theorem wit_Gddr6Acts_served :
    (let ws : List Word := [toWord (7 + 3 * 2 ^ 4 + 2 ^ 8 + 9 * 2 ^ 16 + 8 * 2 ^ 32 + 1 * 2 ^ 48), 1027]
     ready.accepts 0 svc (decide (ws.length = 1 + fieldOf (ws.getD 0 0) 52 48)) false false = true ∧
      onlyBits ws 0 [(2, 0), (5, 4), (8, 8), (25, 16), (41, 32), (52, 48)] = true ∧
      fieldOf (ws.getD 0 0) 41 32 < fieldOf (ws.getD 0 0) 25 16 ∧ onlyBits ws 1 [(10, 0)] = true ∧
      fieldOf (ws.getD 1 0) 10 0 ≤ 1027 ∧ ready.g6.rt = []) ∧
    ((g6Asked.elapse 0).g6Turn 7 = some (readTo 0x27 1, none) ∧ g6Asked.g6.job = none) ∧
    (g6Ready.refreshes 15 = true ∧ g6Ready.g6Queue 7 = [] ∧
      ∀ c ∈ [14, 15], g6Ready.g6.lastAccess.at 0 c + g6Ready.g6.sridle * fsUs ≤ g6Ready.now + 2 ^ 50) ∧
    ((g6Job false).trains 0 = true ∧ g6Ready.chanDown 15 = false ∧ g6Ready.g6.job = none ∧
      g6Ready.g6.lastTrain.at 0 15 + g6Ready.g6.trainper * fsMs ≤ g6Ready.now + 2 ^ 60 ∧
      g6Ready.ctrl (15 / 2) = 2 ∧ (g6Ready.setCtrl 7 3).ctrl (15 / 2) = 3) := by
  decide +kernel

/-- A bank's refresh falls due. -/
theorem wit_Gddr6Acts_refresh :
    ∃ dt, g6Ready.g6.refreshAt.at 0 (16 * 15 + 15) + g6Ready.refreshPeriod ≤ g6Ready.now + dt :=
  ⟨_, Nat.le_add_left _ _⟩

/-- Unit 0 a TREE unit, and unit 1 CONF; then both protected. -/
theorem wit_EncryptionComesOnAndOff :
    (let s := g6Ready.wr Reg.CRYPT.STAT.KEY 1
     let ws : List Word := [0, toWord (1 + 2 * 2 ^ 2), 0]
     let v := (s.elapse 0).begun 0x0601 svc ws
     let c0 := s.cmdOf 0x0601 svc ws
     s.accepts 0 svc (cryptEnableLen ws) false false = true ∧ onlyBits ws 0 [(1, 0)] = true ∧ v.crypt.job = none ∧
      v.setBad c0 = false ∧ v.rdb Reg.CRYPT.STAT.KEY = true ∧ v.g6Cap ≠ 0 ∧ (∀ x < 64, v.unitMode x = 0) ∧
      v.stepping = false ∧ v.setTaken c0 = false ∧ cryptBu c0.setUnits.length c0.setTree.length ≤ v.freeBu) ∧
    (let s := (g6Ready.wr Reg.CRYPT.STAT.KEY 1).wr (Reg.CRYPT.UNITS.MODES 0) 9
     let c0 := s.cmdOf 0x0601 svc [2, 3]
     s.accepts 0 svc (cryptEnableLen [2, 3]) false false = true ∧
      (∀ x ∈ c0.reinitUnits, s.unitMode x ≠ 0 ∧ s.unitMode x ≠ 3) ∧ c0.reinitUnits = [0, 1] ∧
      (∃ x < 64, s.unitMode x ≠ 0) ∧ s.accepts 0 svc (cryptEnableLen [1]) false false = true ∧ s.stepping = false) ∧
    ({ g6Ready with crypt := { g6Ready.crypt with job := some (0, [63], true) } } : State).crypt.job = some (0, [63], true) := by
  decide +kernel

/-! ### Witnesses: clocks, power -/

/-- The board's clocks are there. -/
def clocked : State := (ready.wr Reg.CLK.STAT.REFOK 15).wr Reg.CLK.STAT.LOCKED 0xFFF

/-- A spread of 0.5% at 33 kHz; loop ML9 at the ends of its frequency range; an output; REFCLK_AUX. -/
theorem wit_ClocksSwitchAndMeasure :
    (∀ ws ∈ ([[toWord (10 * 2 ^ 16 + 33 * 2 ^ 24)], [1, 10000000, 800000000, 0, 0], [3, 0, 0, 0, 0], [4], [8, 3]] : List (List Word)),
      clocked.accepts 0 svc (clkSetupLen ws) false false = true ∧
        ((clocked.elapse 0).begun 0x0A01 svc ws).clkSetupBad (clocked.cmdOf 0x0A01 svc ws) = false) ∧
    (let v := (clocked.elapse 0).begun 0x0A01 svc [4]
     v.engine ≠ seRunning ∧ v.groups = [] ∧ v.loopSelected 9 = false ∧ v.loopSelected 11 = false ∧ 1 ≤ v.freeBu ∧
      (∀ d < 2, v.domState d = dsOff ∨ v.domPath d ≠ 1)) ∧
    (∀ ws ∈ ([[toWord (11 + 1 * 2 ^ 4)], [toWord (11 + 1 * 2 ^ 4 + 2 ^ 8)]] : List (List Word)),
      let v := (clocked.elapse 0).begun 0x0A02 svc ws
      let src := fieldOf (ws.getD 0 0) 5 4
      clocked.accepts 0 svc (decide (ws.length = 1)) false false = true ∧
        onlyBits ws 0 [(3, 0), (5, 4), (8, 8)] = true ∧ fieldOf (ws.getD 0 0) 3 0 = 11 ∧ srcListed 11 src = true ∧
        v.srcReady 11 src = true) ∧
    (let v := (clocked.wr (Reg.CLK.DOM.SRC 11) 1).elapse 0
     v.srcRuns 11 (v.rd (Reg.CLK.DOM.SRC 11)) = true ∧ v.rdb (Reg.CLK.DOM.PENDING 11) = false) := by
  decide +kernel

theorem wit_ClocksSwitchAndMeasure_events :
    (let s := { (clocked.wr (Reg.CLK.DOM.TARGET 11) 1).wr (Reg.CLK.DOM.SRC 11) 1 with clk := { clocked.clk with pend := [(11, 0, some 0, false)] } }
     s.clk.pend.find? (fun p => p.1 = 11) = some (11, 0, some 0, false) ∧ s.rd (Reg.CLK.DOM.TARGET 11) = 1 ∧
      s.srcRuns 11 1 = true ∧ s.srcRuns 11 (s.rd (Reg.CLK.DOM.SRC 11)) = true ∧ s.rdb (Reg.CLK.DOM.STUCK 11) = false ∧
      0 + fsMs ≤ s.now + fsMs) ∧
    (let ws : List Word := [toWord (36 + 1000 * 2 ^ 16)]
     clocked.accepts 0 svc (decide (ws.length = 1)) false false = true ∧ onlyBits ws 0 [(5, 0), (25, 16)] = true ∧
      fieldOf (ws.getD 0 0) 5 0 ≤ 36 ∧ 1 ≤ fieldOf (ws.getD 0 0) 25 16 ∧ fieldOf (ws.getD 0 0) 25 16 ≤ 1000 ∧
      clocked.clk.measures.length < 4) ∧
    (let m : Measuring := { cmd := 0, clock := 36, gate := 1, began := 0, relocked := false }
     [m].find? (fun m => m.clock = 36 ∧ m.began + m.gate * fsMs ≤ clocked.now + fsMs) = some m) ∧
    (bit (clocked.rd Reg.CLK.STAT.REFOK) 3 = true ∧ clocked.loopOn 0 = true ∧ clocked.coastsTruly 0 = false ∧
      bit ((clocked.wr Reg.CLK.STAT.GCLKOK 128).rd Reg.CLK.STAT.GCLKOK) (36 - 29) = true) ∧
    (let s := (clocked.wr Reg.CLK.STAT.COAST 1).wr Reg.CLK.STAT.LOCKED 0xFFE
     s.loopOn 0 = true ∧ s.coastsTruly 0 = true) ∧
    (let s := clocked.wr Reg.CLK.STAT.LOCKED 0xFFE
     s.loopOn 0 = true ∧ s.coastsTruly 0 = false ∧ bit (s.rd Reg.CLK.STAT.LOCKED) 0 = false ∧
      bit (s.rd Reg.CLK.STAT.REFOK) (s.loopRef 0) = true) ∧
    clocked.time.ml1 = false ∧ clocked.clk.sampledAt.at 0 1 + fsMs ≤ clocked.now + fsMs := by
  decide +kernel

/-- In PATROL. -/
def patrolling : State := ready.wr Reg.PWR.STATE.STATE 3

/-- From ACTIVE to HOLD, NAP and PATROL; where the device is; a change without a command; out of PATROL. -/
theorem wit_PowerStatesChange :
    (∀ ws ∈ ([[0], [1], [2], [3]] : List (List Word)),
      let v := (ready.elapse 0).begun 0x0B01 svc ws
      ready.accepts 0 svc (decide (ws.length = 1)) false false = true ∧ onlyBits ws 0 [(2, 0)] = true ∧
        fieldOf (ws.getD 0 0) 2 0 ≤ 3 ∧ v.tripped = false ∧ v.power = 0 ∧ v.pwr.target = none ∧ v.stepping = false ∧
        (∀ k < 16, v.cueFunc k ≠ fnStep ∧ v.cueFunc k ≠ fnFwact) ∧ v.napBusy = false) ∧
    (let s := { ready with pwr := { ready.pwr with target := some (3, none, 5) } }
     ((s.elapse 0).begun 0x0B01 svc [3]).pwr.target = some (3, none, 5) ∧ s.inReset = false ∧ s.pwr.napBack = false) ∧
    (ready.inReset = false ∧ ready.hif.perst = false) ∧
    (patrolling.accepts 0 svc (decide (([0] : List Word).length = 1)) false false = true ∧ patrolling.power = 3 ∧
      patrolling.pwr.target = none ∧ patrolling.dev.startup = [] ∧ patrolling.allReady = true) ∧
    (let s := { ready.wr Reg.PWR.STATE.STATE 1 with pwr := { ready.pwr with domIdle := [(15, 0)] } }
     s.power = 1 ∧ ∃ d ∈ s.pwr.domIdle, d.1 = 15 ∧ d.2 + fsMs ≤ s.now + fsMs) ∧
    (patrolling.pwr.sampled + patrolling.pwr.interval * fsMs / 100 * 98 ≤ patrolling.now + 1000 * fsMs ∧
      patrolling.sampleAlarms [(0, 100)] 0 = [] ∧ patrolling.sampleAlarms [(0, 101)] 0 ≠ []) := by
  decide +kernel

/-- The pool taken up to the free BU; a cap at each end; thresholds in order; a sampler interval at each end. -/
theorem wit_BudgetHeatAndCurrent :
    (∀ ws ∈ ([[toWord (1000 * 2 ^ 16)], [1], [toWord (2 + 400 * 2 ^ 16)], [toWord (2 + 1600 * 2 ^ 16)]] : List (List Word)),
      let v := (ready.elapse 0).begun 0x0B03 svc ws
      let n := fieldOf (ws.getD 0 0) 26 16
      ready.accepts 0 svc (decide (ws.length = 1)) false false = true ∧ onlyBits ws 0 [(1, 0), (26, 16)] = true ∧
        (fieldOf (ws.getD 0 0) 1 0 = 0 → n ≤ v.freeBu) ∧ (fieldOf (ws.getD 0 0) 1 0 = 1 → n ≤ v.ledger.pool) ∧
        (fieldOf (ws.getD 0 0) 1 0 = 2 → 400 ≤ n ∧ n ≤ 1600 ∧ v.ledger.granted + v.ledger.setAside ≤ n)) ∧
    (let ws : List Word := [0x000A_6964_3C69_643C, 0x08_0808]
     let t := fun (i : Nat) => fieldOf (ws.getD 0 0) (8 * i + 7) (8 * i)
     let m := fun (i : Nat) => fieldOf (ws.getD 1 0) (8 * i + 7) (8 * i)
     ready.accepts 0 svc (decide (ws.length = 2)) false false = true ∧ onlyBits ws 0 [(51, 0)] = true ∧
      onlyBits ws 1 [(23, 0)] = true ∧ (∀ i < 6, 60 ≤ t i ∧ t i ≤ 105) ∧ t 0 < t 1 ∧ t 1 < t 2 ∧ t 3 < t 4 ∧ t 4 < t 5 ∧
      fieldOf (ws.getD 0 0) 51 48 = 10 ∧ 8 ≤ m 0 ∧ m 0 ≤ m 1 ∧ m 1 ≤ m 2) ∧
    (∀ every ∈ [1, 60000],
      let ws : List Word := [toWord every, 0x1_0005_0005, 0, 0, 0, 0, 0xF0F]
      ready.accepts 0 svc (decide (ws.length = 7)) false false = true ∧ onlyBits ws 0 [(15, 0), (16, 16)] = true ∧
        (∀ i < 5, onlyBits ws (1 + i) [(15, 0), (31, 16), (32, 32)] = true) ∧ onlyBits ws 6 [(3, 0), (11, 8)] = true ∧
        (∀ i < 5, fieldOf (ws.getD (1 + i) 0) 15 0 ≤ fieldOf (ws.getD (1 + i) 0) 31 16)) ∧
    (ready.power ≠ 3 ∧ ready.clk.sampledAt.at 0 2 + 10 * fsUs ≤ ready.now + 10 * fsUs ∧
      ready.clk.sampledAt.at 0 3 + 100 * fsUs ≤ ready.now + 100 * fsUs ∧ ready.step.overdraw = 0 ∧
      ready.cap * 105 < 1313 * 80 ∧ ¬ ready.cap * 105 < 1312 * 80 ∧
      ({ ready with pwr := { ready.pwr with overCnt := 2 } } : State).pwr.overCnt + 1 = 3) ∧
    (let s := { ready with step := { ready.step with overdraw := 40 }, pwr := { ready.pwr with belowSince := some 0 } }
     s.step.overdraw ≠ 0 ∧ 1249 * 4 < s.cap * 5 ∧ s.pwr.belowSince.getD (s.now + fsMs) + fsMs ≤ s.now + fsMs ∧
      s.now + 0 < s.pwr.belowSince.getD 0 + fsMs) := by
  decide +kernel

/-! ### Witnesses: resets, firmware, debug -/

/-- Each scope at its last unit, by the ring and by the service port. -/
theorem wit_ResetsAndBoot :
    (∀ ws ∈ ([[0], [toWord (1 + 7 * 2 ^ 4)], [toWord (2 + 7 * 2 ^ 4 + 63 * 2 ^ 8)], [3], [4], [toWord (5 + 2 ^ 16)]] : List (List Word)),
      let v := (ready.elapse 0).begun 0x0003 svc ws
      ready.accepts 0 svc (decide (ws.length = 1)) false false = true ∧
        ringed.accepts 0 { svc with path := .ring } (decide (ws.length = 1)) false false = true ∧
        onlyBits ws 0 [(2, 0), (6, 4), (13, 8), (16, 16)] = true ∧ fieldOf (ws.getD 0 0) 2 0 ≤ 5 ∧ v.engine ≠ seRunning ∧
        v.stepping = false ∧ v.power < 2 ∧ v.tripped = false ∧ v.dev.resets = [] ∧ v.testBu 7 ≤ v.freeBu) ∧
    (let j : ResetJob := { scope := 4, unit := 0, bu := 0, begun := true, back := false }
     let s := { ready with dev := { ready.dev with resets := [j] } }
     s.dev.resets.find? (fun j => j.scope = 4 ∧ j.unit = 0 ∧ j.begun ∧ !j.back) = some j ∧ (s.elapse 0).resetReady j = true ∧
      ∀ k ∈ s.dev.resets, k.begun = true → k.covers j = false) ∧
    (let s := { clocked with dev := { clocked.dev with startup := [(7, 0, some 64)] } }
     (7, 0, some 64) ∈ (s.elapse 0).admitTowers.dev.startup ∧ (s.elapse 0).admitTowers.timeClockUp = true ∧
      (7, 0, some 64) ∈ s.dev.startup ∧ 0 + 387 * fsMs ≤ s.now + 387 * fsMs) ∧
    ready.keeperDown = false ∧
    (let s := { ready with fw := { ready.fw with trialFrom := some 0 } }
     s.fw.trialFrom = some 0 ∧ 0 + 30000 * fsMs ≤ s.now + 30000 * fsMs) := by
  decide +kernel

/-- A slot image of SECVER 5 and SETVER 0x505. -/
def anImg : List Byte := List.replicate 200 5

/-- Keeper in ROM: with blank flash, and with an image in slot B, which loads wherever its signature verifies. -/
theorem wit_ResetsAndBoot_boot (hv : imageSigned anImg = true) :
    let started := fun (u : State) => let t := u.bootWrites; { t with fw := { t.fw with romAt := none } }
    (let s := { ready with fw := { ready.fw with romAt := some 0 } }
     s.fw.romAt.isSome = true ∧ s.bootPlan.1.find? (started (s.elapse 0)).slotLoads = none) ∧
    (let s := { ready with fw := { ready.fw with romAt := some 0, slots := [none, some ⟨anImg, false⟩] } }
     s.fw.romAt.isSome = true ∧ s.bootPlan.1.find? (started (s.elapse 0)).slotLoads = some 1) := by
  refine ⟨by decide +kernel, rfl, ?_⟩
  simp [State.bootPlan, State.bootWrites, State.elapse, Fw.boots, State.slotLoads, State.slotImg, ready, up, out, State.reset,
    Fw.blank, State.wr, State.store, hv]

/-! ### Witnesses: firmware, debug -/

/-- The board's supply is good, slot A runs. -/
def supplied : State :=
  { (ready.wr Reg.IOB.CTLPINS.HOLDUP_N 1).wr Reg.IOB.CTLPINS.PGOOD_IN 1 with
    fw := { ready.fw with slots := [some ⟨anImg, false⟩, some ⟨anImg, true⟩], boot := [some ⟨1, 0, 0, 0⟩, none] } }

/-- The header of a FULL package of 8 bytes. -/
def fullHeader : List Byte :=
  let h : List Byte := [0x43, 0x46, 0x46, 0x44] ++ leBytes 2 1 ++ leBytes 2 1 ++ leBytes 4 8 ++ leBytes 4 8 ++ List.replicate 108 0
  h ++ leBytes 4 (crc32c h)

/-- A staging of that package. -/
def aStage (body : List Byte) : FwStage :=
  { full := true, targetLen := 8, bodyLen := 8, digest := 0, body := body, built := body }

/-- A FULL header; a body that ends at BODYLEN, one that passes TARGETLEN; the cue and the restart; a cancel of each kind. -/
theorem wit_FirmwareUpdates :
    (let ws := bytesWords fullHeader
     let p := wordBytes ws
     let v := (supplied.elapse 0).begun 0x0C02 svc ws
     supplied.accepts 0 svc (decide (ws.length = 16)) true true = true ∧ v.lockPolicy 2 = false ∧ badPackage p = false ∧
      byteField p 6 2 = 1 ∧ v.stepping = false ∧ v.supplyGood = true ∧ v.fw.stage = none) ∧
    (∀ t ∈ [8, 4],
      let g := { aStage [] with targetLen := t }
      let s := { supplied with fw := { supplied.fw with stage := some g } }
      let ws : List Word := [0, 5]
      s.accepts 0 svc (decide (2 ≤ ws.length ∧ ws.length ≤ 8192)) true true = true ∧ s.fw.stage = some g ∧
        onlyBits ws 0 [(31, 0)] = true ∧ fieldOf (ws.getD 0 0) 31 0 = g.body.length ∧
        g.body.length + 8 * (ws.length - 1) ≤ g.bodyLen ∧ (g.build [] (g.body ++ wordBytes (ws.drop 1))).2 = decide (t = 4)) ∧
    (let ws : List Word := [toWord (10000000 * 2 ^ 16), 0, 15]
     let v := (supplied.elapse 0).begun 0x0C05 svc ws
     supplied.accepts 0 svc (decide (ws.length = 3)) true true = true ∧ onlyBits ws 0 [(47, 0)] = true ∧
      onlyBits ws 1 [(47, 0)] = true ∧ onlyBits ws 2 [(3, 0)] = true ∧ v.slotStaged v.fwTarget = true ∧ v.fw.pending = none ∧
      v.fw.restart = none ∧ v.rdb Reg.DEV.BOOT.IMAGE = true ∧ timeBad (ws.getD 0 0).toNat = false ∧
      v.time.out + 10000000 * 2 ^ 32 ≤ timeUnits (ws.getD 0 0).toNat (ws.getD 1 0).toNat * 65536 ∧
      timeUnits (ws.getD 0 0).toNat (ws.getD 1 0).toNat * 65536 ≤ v.time.out + 1000 * unitsPerSec ∧
      v.cueFree (fieldOf (ws.getD 2 0) 3 0) fnFwact = true ∧
      (supplied.wr Reg.DEV.BOOT.IMAGE 0).accepts 0 svc (decide (ws.length = 3)) true true = true) ∧
    (supplied.accepts 0 svc (decide (([1] : List Word).length = 1)) true true = true ∧ onlyBits [1] 0 [(0, 0)] = true ∧
      ({ supplied with fw := { supplied.fw with pending := some 3 } } : State).fw.pending.isSome = true) := by
  decide +kernel

/-- The restart, the first start in slot B and the confirmation. -/
theorem wit_FirmwareUpdates_restart :
    (let s := { supplied with fw := { supplied.fw with restart := some 0 } }
     s.fw.restart = some 0 ∧ 0 ≤ s.now + 0 ∧ s.hif.running = [] ∧
      (s.elapse 0).abortCommands.fwRelease.slotImg s.fwTarget = some ⟨anImg, true⟩) ∧
    (let s := { supplied with fw := { supplied.fw with restart := some 0, slots := [some ⟨anImg, false⟩, none] } }
     s.fw.restart = some 0 ∧ s.hif.running = [] ∧ (s.elapse 0).abortCommands.fwRelease.slotImg s.fwTarget = none) ∧
    (let s := { supplied.wr Reg.DEV.BOOT.SLOT 1 with fw := { supplied.fw with firstStart := true } }
     s.fw.firstStart = true ∧ s.fw.romAt = none ∧ s.rdb Reg.DEV.BOOT.IMAGE = true ∧ s.flashOk = true ∧
      (s.fw.boots.map fun r => r.2.prev).getD 1 ≠ s.rd Reg.DEV.BOOT.SLOT ∧ s.rd Reg.DEV.BOOT.SLOT < s.fw.stores.length) ∧
    (let s := { supplied with fw := { supplied.fw with trialFrom := some 0, routersBefore := 0xFFFF } }
     s.fw.trialFrom = some 0 ∧ s.now + 0 < 0 + 30000 * fsMs ∧ s.fw.firstStart = false ∧ s.flashOk = true ∧
      Nat.land s.fw.routersBefore (s.rd Reg.NOC.STAT.INSERVICE) = s.fw.routersBefore) := by
  decide +kernel

/-- FW_STAGE_END: short of the target; a digest that differs; one that agrees, with SECVER 5 at the floor and one below it.
The signature's verdict is open either way. -/
theorem wit_FirmwareUpdates_end :
    (let g := aStage []
     ({ supplied with fw := { supplied.fw with stage := some g } } : State).accepts 0 svc (decide (([] : List Word).length = 0)) true true
        = true ∧ ¬ (g.bodyLen ≤ g.body.length ∧ g.targetLen ≤ g.built.length)) ∧
    (let g := { aStage anImg with digest := Config.sha384 anImg }
     (g.bodyLen ≤ g.body.length ∧ g.targetLen ≤ g.built.length) ∧ Config.sha384 g.built = g.digest ∧
      (imageSigned g.built = true ∨ imageSigned g.built = false) ∧ imageSecver g.built < 6 ∧ 5 ≤ imageSecver g.built) ∧
    (let g := { aStage anImg with digest := ~~~ Config.sha384 anImg }
     (g.bodyLen ≤ g.body.length ∧ g.targetLen ≤ g.built.length) ∧ Config.sha384 g.built ≠ g.digest) := by
  refine ⟨by decide +kernel, ⟨by decide +kernel, rfl, (Bool.eq_false_or_eq_true _).elim .inl .inr, by decide +kernel,
    by decide +kernel⟩, by decide +kernel, ?_⟩
  intro h
  have h' := congrArg (fun x : BitVec 384 => x.getLsbD 0) h
  simp [aStage] at h'

/-- A tap that is selected. -/
def aTap : Tap := { tapOf { aCmd with payload := [toWord (3 * 2 ^ 8 + 63 * 2 ^ 14)] } 63 with live := false }

/-- A perturbation of kind 2. -/
def aPert : Pert := { slot := 31, kind := 2, w1 := 27, w2 := 5, w3 := 0, acts := false, ending := false }

/-- Tap 63 of wing 3 selected for no pin, released and listed; any tap; traces of both kinds. -/
theorem wit_DebugCommandsAct_probes :
    (∀ ws ∈ ([[2], [toWord (1 + 3 * 2 ^ 8 + 63 * 2 ^ 14)], [toWord (3 * 2 ^ 8 + 63 * 2 ^ 14)], [toWord (3 * 2 ^ 8 + 127 * 2 ^ 14)]] :
        List (List Word)),
      ready.accepts 0 svc (decide (ws.length = 1)) false false = true ∧ onlyBits ws 0 [(53, 0)] = true) ∧
    (ready.tapTraced 3 63 = false ∧ aTap.output ≤ 4 ∧ aTap.dest = 0 ∧ aTap.pinKey = none ∧
      (firstFree 64 fun n => !(ready.dbg.taps.any fun t => t.tap = n) && !ready.tapTraced 3 n) = some 0) ∧
    (∀ ws ∈ ([[1], [2]] : List (List Word)),
      ready.accepts 0 svc (traceSetupLen ws) false false = true ∧
        onlyBits ws 0 [(6, 0), (12, 8), (20, 16), (28, 24)] = true) ∧
    (let ws : List Word := [toWord (23 * 2 ^ 24), 5, 0, 0, 0, 1, 0, 0, 0, 0, 0, 0, 0]
     let v := (ready.elapse 0).begun 0x0D02 svc ws
     let t := traceOf (ready.cmdOf 0x0D02 svc ws) false
     ready.accepts 0 svc (traceSetupLen ws) false false = true ∧ onlyBits ws 0 [(6, 0), (12, 8), (20, 16), (28, 24)] = true ∧
      onlyBits ws 1 [(31, 0)] = true ∧ onlyBits ws 3 [(20, 0)] = true ∧ onlyBits ws 4 [(20, 0)] = true ∧
      t.bfirst ≤ t.blast ∧ t.blast = 23 ∧ t.qual = false ∧
      (∀ n ∈ t.blocks, v.attic.isRetired (n / 24) (n % 24) = false ∧ ∀ o ∈ v.traceRelease.attic.owner, o.1 ≠ n) ∧
      t.trigsel ≠ 1 ∧ t.trigsel ≠ 3 ∧ traceBu false t.wings.length ≤ v.traceRelease.freeBu) ∧
    (let ws : List Word := [4, 5, 0, 0, 0, 0] ++ List.replicate 7 0 ++ [4096] ++ List.replicate 7 0
     let v := (g6Ready.elapse 0).begun 0x0D02 svc ws
     let t := traceOf (g6Ready.cmdOf 0x0D02 svc ws) true
     g6Ready.accepts 0 svc (traceSetupLen ws) false false = true ∧
      (∀ i < 7, onlyBits ws (6 + i) [] = true ∧ onlyBits ws (14 + i) [(2, 0), (13, 8), (16, 16)] = true) ∧
      v.traceRelease.allocRefusal t.base t.size = none ∧ traceBu true t.wings.length ≤ v.traceRelease.freeBu) := by
  decide +kernel

/-- A challenge, its response right and wrong, at the last instant, and the end of the unlock; a perturbation set, set again and
ended. -/
theorem wit_DebugCommandsAct_unlock :
    (∀ ws ∈ ([[0], [1, 4294967290], [2]] : List (List Word)),
      let s := { ready with now := 1000 * fsMs, dbg := { ready.dbg with challenge := some (5, 0) } }
      let v := (s.elapse 0).begun 0x0D11 svc ws
      s.accepts 0 svc (testUnlockLen ws) false false = true ∧ v.lockPolicy 3 = false ∧ onlyBits ws 0 [(1, 0)] = true ∧
        (fieldOf (ws.getD 0 0) 1 0 = 1 → onlyBits ws 1 [(31, 0)] = true ∧ v.dbg.challenge = some (5, 0) ∧
          v.now ≤ 0 + 1000 * fsMs ∧ fieldOf (ws.getD 1 0) 31 0 + (5 : Half).toNat = 2 ^ 32 - 1) ∧
        (fieldOf (ws.getD 0 0) 1 0 ≠ 1 → onlyBits ws 1 [] = true) ∧ v.rdb Reg.PERT.STAT.UNLOCKED = false ∧
        (s.wr Reg.PERT.STAT.UNLOCKED 1).rdb Reg.PERT.STAT.UNLOCKED = true) ∧
    (∀ c, ready.dbg.challenge ≠ some c) ∧
    (let s := { ready.wr Reg.PERT.STAT.UNLOCKED 1 with dbg := { ready.dbg with perts := [aPert] } }
     s.accepts 0 svc (perturbLen [toWord (2 ^ 8 + 31 * 2 ^ 16)]) false false = true ∧
      onlyBits [toWord (2 ^ 8 + 31 * 2 ^ 16)] 0 [(8, 0), (20, 16)] = true ∧ (∃ q ∈ s.dbg.perts, q.slot = 31) ∧
      (let ws : List Word := [2, 27, 5, 0]
       s.accepts 0 svc (perturbLen ws) false false = true ∧ pertBad (s.cmdOf 0x0D10 svc ws) s.g6Cap = false ∧
        (s.dbg.perts.find? fun q => q.kind = 2 ∧ q.target = (Pert.mk 0 2 27 5 0 false false).target).map Pert.slot = some 31) ∧
      (let ws : List Word := [2, 0, 5, 0]
       pertBad (s.cmdOf 0x0D10 svc ws) s.g6Cap = false ∧
        (s.dbg.perts.find? fun q => q.kind = 2 ∧ q.target = (Pert.mk 0 2 0 5 0 false false).target) = none ∧
        firstFree 32 (fun i => !s.dbg.perts.any fun q => q.slot = i) = some 0)) := by
  refine ⟨by decide +kernel, fun c h => ?_, by decide +kernel⟩
  exact nomatch h

/-! ### Well-formedness: an ill-formed term for each check, which the check refuses -/

/-- A header that does not fit, and one that does: SEQ, EPOCH, the reply buffer's address, its capacity. -/
theorem test_wf_header :
    (Instr.stepHalt 0 { svc with seq := 65536 } []).wf = false ∧ (Instr.stepHalt 0 { svc with epoch := 256 } []).wf = false ∧
      (Instr.stepHalt 0 { svc with rbuf := some (2 ^ 64, 8) } []).wf = false ∧
      (Instr.stepHalt 0 { svc with rbuf := some (4096, 2 ^ 20) } []).wf = false ∧
      (Instr.stepHalt 0 { svc with seq := 65535, epoch := 255, rbuf := some (4096, 8) } []).wf = true := by
  decide +kernel

/-- A payload of 8,191 words with the two of a reply buffer is a word too long, and one of 8,190 fits. -/
theorem test_wf_payload :
    (Instr.echo 0 svc (List.replicate 8191 0)).wf = false ∧ (Instr.echo 0 svc (List.replicate 8190 0)).wf = true := by
  constructor
  · change (svc.fits && decide ((List.replicate 8191 (0 : Word)).length + 2 ≤ 8192)) = false
    rw [List.length_replicate]
    decide
  · change (svc.fits && decide ((List.replicate 8190 (0 : Word)).length + 2 ≤ 8192)) = true
    rw [List.length_replicate]
    decide

/-- Accesses outside their BAR, and operands of the doorbells and rows of the interface out of range. -/
theorem test_wf_interface :
    (Instr.rcRead 0 0x1000000 4).wf = false ∧ (Instr.registerWrite 0 0x1000000 8 0).wf = false ∧
      (Instr.badAccess 0 0x1000000 2 true).wf = false ∧ (Instr.stepSingleNstep 0 (2 ^ 32)).wf = false ∧
      (Instr.cmdtailWrite 0 (2 ^ 32)).wf = false ∧ (Instr.capturePop 0 8).wf = false ∧
      (Instr.irqModerationExpiry 0 16).wf = false ∧ (Instr.limitedEventWindowEnd 0 65536 0).wf = false ∧
      (Instr.bar2Access 0 (2 ^ 36) false 1 255 255 []).wf = false ∧ (Instr.bar2Access 0 0 false 0 255 255 []).wf = false ∧
      (Instr.bar2Access 0 0 false 1 256 255 []).wf = false ∧ (Instr.bar2Access 0 0 false 1 255 256 []).wf = false ∧
      (Instr.multicastWrite 0 0 0 []).wf = false ∧ (Instr.cfgDataWrite 0 (2 ^ 24) []).wf = false ∧
      (Instr.svcWrite 0 [] .failed).wf = false := by
  decide +kernel

/-- Units of the fabric that do not exist: wings, ports, rooms, porches, towers, banks, pins. -/
theorem test_wf_fabric :
    (Instr.wingRoundEnd 0 512).wf = false ∧ (Instr.scrubComplete 0 8).wf = false ∧
      (Instr.tokenArrival 0 (.wing 512 0)).wf = false ∧ (Instr.tokenArrival 0 (.wing 0 64)).wf = false ∧
      (Instr.tokenArrival 0 (.porch 2 0)).wf = false ∧ (Instr.tokenAckArrival 0 0 64).wf = false ∧
      (Instr.doneAtStepMaster 0 true 2).wf = false ∧ (Instr.doneAtStepMaster 0 false 8).wf = false ∧
      (Instr.refillBurstDone 0 0 1024 .ack [] []).wf = false ∧ (Instr.mirrorRepair 0 0 0 4 true).wf = false ∧
      (Instr.refillBurstDone 0 0 0 .ack [1040] []).wf = false ∧ (Instr.refillBurstDone 0 0 0 .ack [] [32]).wf = false ∧
      (Instr.suMonitorInterval 0 [(512, 1)]).wf = false ∧ (Instr.stepLaunch 0 [(768, true)]).wf = false ∧
      (Instr.bankFifoRead 0 16 0).wf = false ∧ (Instr.bankFifoRead 0 15 4).wf = false ∧
      (Instr.tokenArrival 0 (.wing 511 63)).wf = true ∧ (Instr.bankFifoRead 0 15 3).wf = true := by
  decide +kernel

/-- Corridors, routers, initiators, tags, controllers and channels that do not exist. -/
theorem test_wf_memory :
    (Instr.handshakeTimeout 0 28 0).wf = false ∧ (Instr.handshakeTimeout 0 27 34).wf = false ∧
      (Instr.corridorTransfer 0 27 33 16 []).wf = false ∧ (Instr.corridorTransfer 0 27 33 15 [72]).wf = false ∧
      (Instr.packetAtRouter 0 15 ⟨17, true, []⟩).wf = false ∧ (Instr.packetAtRouter 0 15 ⟨16, true, [256]⟩).wf = false ∧
      (Instr.g6Request 0 7 (.clean 4) ⟨[], false⟩).wf = false ∧ (Instr.g6Request 0 7 (.clean 3) ⟨[(0, [72])], false⟩).wf = false ∧
      (Instr.maintenanceLine 0 512).wf = false ∧ (Instr.packetExpiry 0 16).wf = false ∧
      (Instr.responseArrival 0 1028).wf = false ∧ (Instr.tagTimeout 0 65536).wf = false ∧
      (Instr.selfRefreshEntry 0 8).wf = false ∧ (Instr.refreshDue 0 16 0).wf = false ∧
      (Instr.refreshDue 0 15 16).wf = false ∧ (Instr.g6InitComplete 0 65536).wf = false ∧
      (Instr.handshakeTimeout 0 27 33).wf = true ∧ (Instr.responseArrival 0 1027).wf = true := by
  decide +kernel

/-- Lanes, frames, domains, clocks, cues, measurements and resets out of range. -/
theorem test_wf_others :
    (Instr.syncInterval 0 64).wf = false ∧ (Instr.groupUp 0 0 1024 0 0 []).wf = false ∧
      (Instr.ackNackReceive 0 64 0 ⟨0, []⟩ ⟨0, []⟩).wf = false ∧ (Instr.valueFrameReceive 0 0 0 0 (2 ^ 32) 0 [] 0 []).wf = false ∧
      (Instr.valueFrameReceive 0 0 0 0 0 0 (List.replicate 32 0) 0 []).wf = false ∧
      (Instr.syncFrameReceive 0 0 0 0 0 0 [] ⟨2 ^ 32, []⟩).wf = false ∧ (Instr.groupGoesDown 0 0 ⟨.los, [⟨0, 4, 0⟩]⟩).wf = false ∧
      (Instr.ethLinkChange 0 4 true).wf = false ∧ (Instr.ptpSyncInterval 0 2).wf = false ∧
      (Instr.muxSwitchComplete 0 12).wf = false ∧ (Instr.referenceLoss 0 37).wf = false ∧ (Instr.cueMatch 0 16).wf = false ∧
      (Instr.holdDomainIdle 0 16).wf = false ∧ (Instr.patrolSample 0 [(5, 0)] 0).wf = false ∧
      (Instr.patrolSample 0 [] 16).wf = false ∧ (Instr.thermalSensorRead 0 [] [] [] []).wf = false ∧
      (Instr.vccioMeasure 0 16 0).wf = false ∧ (Instr.devRstNRelease 0 1024).wf = false ∧
      (Instr.resetComplete 0 1 ⟨8, []⟩).wf = false ∧ (Instr.resetComplete 0 2 ⟨512, []⟩).wf = false ∧
      (Instr.resetComplete 0 5 ⟨2, []⟩).wf = false ∧ (Instr.resetComplete 0 0 ⟨1, []⟩).wf = false ∧ (Instr.resetComplete 0 0 ⟨0, [(28, 0, none)]⟩).wf = false ∧
      (Instr.resetComplete 0 2 ⟨511, [(27, 33, none)]⟩).wf = true := by
  decide +kernel

/-- What a start-up may not report: another tower's crossing, a tap, a bond, a block, a checker, a trim code out of range. -/
theorem test_wf_tower :
    let ok := fun (x : TowerTest) => (Instr.towerStartupComplete 0 7 x).wf
    let e : TowerTest := { windows := [], badBonds := [], badBlocks := [], badCheckers := [], su := [], badWires := [], ms := 0 }
    ok e = true ∧ ok { e with windows := [(.memory 447, 0, 0, 63)] } = false ∧ ok { e with windows := [(.memory 511, 0, 0, 64)] } = false ∧
      ok { e with badBonds := [(.bonds 511 1024, 0)] } = false ∧ ok { e with badBlocks := [(63, 24)] } = false ∧
      ok { e with badCheckers := [64] } = false ∧ ok { e with su := [(63, 1, some 64)] } = false ∧
      ok { e with windows := [(.channel 511, 76, 0, 63)], badBonds := [(.tsvs 448 1023, 4895)], su := [(63, 1, some 63)] } = true := by
  decide +kernel

/-! ### Numbers from the manual -/

/-- STEP_SINGLE in the example under R490: the packet at ring position 16,382 is refused while the engine is RUNNING, and
the reply's words are those of the example. -/
theorem test_step_single_example :
    let s := (((running.wr Reg.HIF.RINGSIZE.CMDLOG 14).wr Reg.HIF.RINGSIZE.RPLLOG 14).wr Reg.HIF.RINGSIZE.EVTLOG 6).wr
      Reg.HIF.QCTRL.ENABLE 1
    let s := ((s.wr Reg.HIF.QSTAT.EPOCH 3).wr Reg.HIF.CMDHEAD.COUNT 49150).wr Reg.HIF.CMDTAIL.COUNT 49150
    let s := { s with hif := { s.hif with bme := true } }
    let t := stepped (.commandStart 0) (stepped (.commandFetch 0 (.words [0x0000000300420105, 1, 1000]) .failed)
      (stepped (.cmdtailWrite 0 49153) s))
    t.rd Reg.HIF.CMDHEAD.COUNT = 49153 ∧
      t.hif.replies.map (fun r => r.packet 8192) = [[0x0000050300420105, 0]] := by
  decide +kernel

/-- A tail doorbell that moves backward is ignored and sets DOORBELL (R480). -/
theorem test_doorbell_backward :
    let t := stepped (.cmdtailWrite 0 5) ((ringed.wr Reg.HIF.CMDHEAD.COUNT 6).wr Reg.HIF.CMDTAIL.COUNT 6)
    t.rd Reg.HIF.CMDTAIL.COUNT = 6 ∧ t.rd Reg.HIF.ERR.DOORBELL = 1 := by
  decide +kernel

/-- The result table of the output path (05_mac_slices.md, after R195): signed lanes, RPOS 4, OWIDTH 16, SIGNED. -/
theorem test_rounding_and_saturation :
    ([40, 24, -40, -41, 9000000, -9000000] : List Int).map (fun x => saturate .signed 16 (roundHalfUp 4 x)) =
      [(3, false), (2, false), (-2, false), (-3, false), (32767, true), (-32768, true)] := by
  decide +kernel

/-- 1,000,003 divided by 1,000 with DIVITER 16 (05_mac_slices.md, after R197): counts 16, 32, 48 and 64, then 1,000 and 3. -/
theorem test_division :
    let step (d : DivState) := DivState.run 1000 16 d
    let d0 : DivState := { rem := 0, q := 1000003, cnt := 0 }
    (step d0).cnt = 16 ∧ (step (step d0)).cnt = 32 ∧ step (step (step (step d0))) = { rem := 3, q := 1000, cnt := 64 } := by
  decide +kernel

/-- Word 1,000 of T5.W17.AB05 is at 0x0FCE_9F40, in tower block 413 (06_attic_memory.md, after R213). -/
theorem test_attic_address : atticPlace 0x0FCE9F40 = (5 * 64 + 17, 5, 1000) ∧ towerBlock (5 * 64 + 17) 5 = 413 := by
  decide +kernel

/-- The address map example that follows R314 (08_gddr6.md): channel 8, bank 7, column 50, row 0x468A. -/
theorem test_gddr6_decode :
    let m : G6Map :=
      { cp := [9, 10, 11, 12]
        bp := [13, 14, 15, 16]
        colpos := 5
        cm := [2 ^ 9 + 2 ^ 20, 2 ^ 10 + 2 ^ 21, 2 ^ 11 + 2 ^ 22, 2 ^ 12 + 2 ^ 23]
        bm := List.replicate 16 [2 ^ 13 + 2 ^ 24, 2 ^ 14 + 2 ^ 25, 2 ^ 15 + 2 ^ 26, 2 ^ 16 + 2 ^ 27] }
    let a := 0x234567A40
    m.channel a = 8 ∧ m.bank a = 7 ∧ m.column a = 50 ∧ m.row a = 0x468A := by
  decide +kernel

/-- The metadata window for 12 units of which 4 are TREE is 2 units (09_encryption.md, under *The metadata window*). -/
theorem test_metadata_window : windowUnits 12 4 = 2 := by decide +kernel

/-- Demands of the examples: 640 nC per 19.875 ns is 258 BU (02_steps.md), 516 nC per 20 ns is 207 BU (05_mac_slices.md);
charges in fC, intervals in fs. -/
theorem test_demands : demandBu (640 * 10 ^ 6) 19875000 = 258 ∧ demandBu (516 * 10 ^ 6) 20000000 = 207 := by decide +kernel

/-- The measurement example after R434, in tenths of a nanosecond: seat 1 is 8.1 ns ahead. -/
theorem test_sync_offset : syncOffset 1000000 1000395 1005000 1005233 = 81 := by decide +kernel

/-- Check values of the two CRC-32s over the nine digits "123456789", from their published definitions. -/
theorem test_crc32 :
    let digits : List Byte := [0x31, 0x32, 0x33, 0x34, 0x35, 0x36, 0x37, 0x38, 0x39]
    crc32 digits = 0xCBF43926 ∧ crc32c digits = 0xE3069283 := by
  decide +kernel

/-- An RC field is cleared by a read of the register and not by a read of half of it that leaves the field out (R14). -/
theorem test_rc_read :
    let s := up.wr Reg.STEP.OVRCNT.COUNT 9
    (stepped (.rcRead 0 Reg.STEP.OVRCNT.COUNT.addr 8) s).rd Reg.STEP.OVRCNT.COUNT = 0 ∧
      (stepped (.rcRead 0 (Reg.STEP.OVRCNT.COUNT.addr + 4) 4) s).rd Reg.STEP.OVRCNT.COUNT = 9 := by
  decide +kernel

/-- An access of 2 bytes sets BADACC and nothing else of the register file (R12). -/
theorem test_bad_access : (stepped (.badAccess 0 0x10000 2 false) up).rd Reg.HIF.ERR.BADACC = 1 := by decide +kernel

/-- A GO written while BUSY is 1 is discarded and sets SETUP (R491). -/
theorem test_mailbox_busy :
    let s := up.wr Reg.HIF.MBOXCTL.BUSY 1
    let t := stepped (.mboxGo 0 .failed) s
    t.hif.fetched = [] ∧ t.rd Reg.HIF.ERR.SETUP = 1 := by
  decide +kernel

end Sys2Proof.Tests
end

section
/-! The machine's scope: what DEV_RST_N holds, and accesses to registers by size, alignment and access code. -/

namespace Sys2Proof.Machine

/-! ### What DEV_RST_N holds -/

/-- Outside DEV_RST_N nothing is held. -/
theorem State.heldInReset_of_outside {s : State} (h : s.inReset = false) : s.heldInReset :=
  fun hr => absurd (h.symm.trans hr) Bool.false_ne_true

/-- What DEV_RST_N holds speaks neither of the instant nor of the queue. -/
theorem State.heldInReset_retime {s : State} (h : s.heldInReset) (now : Nat) (q : List Instr) :
    ({ s with now := now, pending := q } : State).heldInReset := h

/-- The instruction of boundary scan is none of it. -/
theorem State.heldInReset_tap {s : State} (h : s.heldInReset) (ins : TapInstr) :
    ({ s with pins := { s.pins with tap := ins } } : State).heldInReset := by
  intro hr
  obtain ⟨hregs, hhif, hstep, hfab, hcfg, hattic, hcorr, hnoc, hg6, hcrypt, hgroups, htime, hledger, hclk, hpwr, hfw, hdev,
    hdbg, hpins⟩ := h hr
  exact ⟨hregs, hhif, hstep, hfab, hcfg, hattic, hcorr, hnoc, hg6, hcrypt, hgroups, htime, hledger, hclk, hpwr, hfw, hdev,
    hdbg, congrArg (fun p : Pins => { p with tap := ins }) hpins⟩

/-- An event that happens outside reset cannot move what DEV_RST_N holds. -/
theorem State.event_keeps_heldInReset {s t : State} {dt : Nat} {f : State → State} (h : s.heldInReset)
    (ht : s.event dt f = .next t) : t.heldInReset := by
  by_cases hr : s.inReset = true
  · rw [State.event_inReset hr] at ht
    cases ht
    exact h
  · rw [State.event_outside (Bool.eq_false_iff.mpr hr)] at ht
    cases ht
    exact State.heldInReset_of_outside rfl

/-- The commands that act while DEV_RST_N is low. -/
theorem Instr.actsInReset_cases {c : Instr} (h : c.actsInReset = true) :
    (∃ dt, c = .devRstNAssert dt) ∨ (∃ dt seat, c = .devRstNRelease dt seat) ∨
      ∃ dt ins, c = .tapInstruction dt ins := by
  cases c
  case devRstNAssert dt => exact .inl ⟨dt, rfl⟩
  case devRstNRelease dt seat => exact .inr (.inl ⟨dt, seat, rfl⟩)
  case tapInstruction dt ins => exact .inr (.inr ⟨dt, ins, rfl⟩)
  all_goals cases h

/-! ### DEV_RST_N asserted -/

/-- The device once DEV_RST_N is asserted: the state after reset, but for what flash, the OTP ledgers and the board hold. -/
def State.asserted (s : State) (now : Nat) (epochs : Cells Nat) : State :=
  { State.reset with
    now := now
    free := s.free
    out := s.out
    hif := { Hif.reset with perst := s.hif.perst }
    cfg := { Cfg.reset with lock := s.cfg.lock }
    g6 := { G6.reset with epochs := epochs }
    crypt := { Crypt.reset with keys := s.crypt.keys }
    fw := { Fw.blank with slots := s.fw.slots, boot := s.fw.boot, stores := s.fw.stores, floor := s.fw.floor }
    dev := { Dev.reset with made := s.dev.made, ledger := s.dev.ledger }
    pins := { Pins.reset with input := s.pins.input, driven := s.pins.driven, tap := s.pins.tap }
    pending := s.pending }

theorem exec_devRstNAssert (s : State) (dt : Nat) :
    ∃ e, exec (.devRstNAssert dt) s = .next (s.asserted (s.now + dt) e) := by
  simp only [exec, execDevRstNAssert]
  cases hr : s.inReset
  · rw [State.always_outside hr]
    exact ⟨_, rfl⟩
  · rw [State.always_inReset hr]
    exact ⟨_, rfl⟩

theorem State.asserted_heldInReset (s : State) (now : Nat) (e : Cells Nat) : (s.asserted now e).heldInReset := by
  intro _
  and_intros <;> rfl

/-! ### DEV_RST_N released -/

/-- What the ledgers repair is in the fabric and the attic. -/
theorem State.loadLedgers_frame (made ledger : List Repair) (s : State) :
    ∃ f a, ledger.foldl (State.loadRepair true) (made.foldl (State.loadRepair false) s) = { s with fab := f, attic := a } := by
  obtain ⟨f, a, hmade⟩ := State.loadRepairs_frame false made s
  obtain ⟨f', a', hledger⟩ := State.loadRepairs_frame true ledger { s with fab := f, attic := a }
  exact ⟨f', a', by rw [hmade, hledger]⟩

/-- A release leaves reset: the seat is latched and Keeper's ROM starts; of the rest only registers change, and what the
ledgers repair. -/
theorem exec_devRstNRelease {s : State} (h : s.inReset = true) (dt seat : Nat) :
    ∃ r f a, exec (.devRstNRelease dt seat) s = .next { s with
      now := s.now + dt, inReset := false, regs := r, fab := f, attic := a
      dev := { s.dev with seat := seat % 1024, releasedAt := s.now + dt, cold := true, towersOwed := true }
      fw := { s.fw with romAt := some (s.now + dt) } } := by
  simp only [exec, execDevRstNRelease]
  rw [State.always_inReset h, State.whenever_true _ _ _ h, (State.loadLedgers_frame _ _ _).choose_spec.choose_spec]
  exact ⟨_, _, _, rfl⟩

/-- Outside reset a release is the passing of its time. -/
theorem exec_devRstNRelease_outside {s : State} (h : s.inReset = false) (dt seat : Nat) :
    exec (.devRstNRelease dt seat) s = .next (s.elapse dt) := by
  simp only [exec, execDevRstNRelease]
  rw [State.always_outside h, (s.elapse dt).whenever_false (s.elapse dt).inReset _ h]
  rfl

/-! ### Boundary scan -/

theorem exec_tapInstruction_inReset {s : State} (h : s.inReset = true) (dt : Nat) (ins : TapInstr) :
    exec (.tapInstruction dt ins) s = .next { s with now := s.now + dt, pins := { s.pins with tap := ins } } := by
  simp only [exec, execTapInstruction]
  rw [State.always_inReset h]
  simp only [h, Bool.true_or, if_true]

/-- Outside reset an instruction that drives pins acts only while the step engine is UNCONFIGURED (R670). -/
theorem exec_tapInstruction_outside {s : State} (h : s.inReset = false) (dt : Nat) (ins : TapInstr) :
    exec (.tapInstruction dt ins) s = .next (s.after dt fun u => { u with pins := { u.pins with
      tap := if tapDrives ins = true ∧ u.engine ≠ seUnconfigured then .bypass else ins } }) := by
  have htap (u : State) : (if (!tapDrives ins || u.engine == seUnconfigured) = true then ins else TapInstr.bypass) =
      if tapDrives ins = true ∧ u.engine ≠ seUnconfigured then .bypass else ins := by
    by_cases hd : tapDrives ins = true <;> by_cases he : u.engine = seUnconfigured <;> simp [hd, he]
  simp only [exec, execTapInstruction]
  rw [State.always_outside h]
  simp only [State.after, State.elapse_inReset, h, Bool.false_or, htap]

/-! ### Every command -/

/-- No command moves what DEV_RST_N holds. -/
theorem exec_keeps_heldInReset {c : Instr} {s t : State} (h : s.heldInReset) (ht : exec c s = .next t) : t.heldInReset := by
  rcases exec_shape c s with ⟨_, f, he⟩ | ⟨hc, _⟩
  · exact State.event_keeps_heldInReset h (he ▸ ht)
  · rcases Instr.actsInReset_cases hc with ⟨dt, rfl⟩ | ⟨dt, seat, rfl⟩ | ⟨dt, ins, rfl⟩
    · obtain ⟨e, he⟩ := exec_devRstNAssert s dt
      cases he.symm.trans ht
      exact s.asserted_heldInReset _ e
    · cases hr : s.inReset
      · cases (exec_devRstNRelease_outside hr dt seat).symm.trans ht
        exact State.heldInReset_of_outside hr
      · obtain ⟨r, f, a, he⟩ := exec_devRstNRelease hr dt seat
        cases he.symm.trans ht
        exact State.heldInReset_of_outside rfl
    · cases hr : s.inReset
      · cases (exec_tapInstruction_outside hr dt ins).symm.trans ht
        exact State.heldInReset_of_outside rfl
      · cases (exec_tapInstruction_inReset hr dt ins).symm.trans ht
        exact State.heldInReset_tap h ins

/-- Settles O3, by the two shapes of a meaning: an event does not happen in reset; the three commands that do are looked at one
by one. -/
theorem stepKeepsHeldInReset : Obligations.StepKeepsHeldInReset := by
  intro s t h ht
  unfold step at ht
  split at ht
  · cases ht
    exact h
  · next c rest _ => exact exec_keeps_heldInReset (State.heldInReset_retime h s.now rest) ht

/-- Settles O2: the state after reset is written out in the model. -/
theorem resetIsHeldInReset : Obligations.ResetIsHeldInReset := by
  refine ⟨fun _ => ?_, rfl, rfl, rfl, fun _ => rfl⟩
  and_intros <;> rfl

/-- Settles O7: what each of the three commands that act in reset leaves. -/
theorem devRstNAndTapAct : Obligations.DevRstNAndTapAct := by
  refine ⟨fun s dt => ?_, fun s dt seat hr => ?_, fun s dt ins hr => exec_tapInstruction_inReset hr dt ins,
    fun s dt ins hr => exec_tapInstruction_outside hr dt ins⟩
  · obtain ⟨e, he⟩ := exec_devRstNAssert s dt
    refine ⟨_, he, rfl, s.asserted_heldInReset _ e, fun _ => rfl, ?_⟩
    and_intros <;> rfl
  · obtain ⟨r, f, a, he⟩ := exec_devRstNRelease hr dt seat
    refine ⟨_, he, ?_⟩
    and_intros <;> rfl

/-! ### Fields -/

/-- Settles O9, by the laws of the register file: a field is a range of the bits of one register. -/
theorem fieldWriteIsLocal : Obligations.FieldWriteIsLocal := by
  intro s f v hlo hhi
  have hf : f.valid := ⟨hlo, hhi⟩
  exact ⟨s.rd_wr_self f v hf, fun g => s.rd_wr_of_disjoint f g v hf, fun a => s.stored_wr_of_ne f v, rfl, rfl, rfl, rfl⟩

/-! ### The rows that access BAR0 -/

theorem exec_registerWrite (s : State) (dt a size : Nat) (data : Word) :
    exec (.registerWrite dt a size data) s = s.event dt fun u => u.bar0Write a size data := rfl

theorem exec_badAccess (s : State) (dt a size : Nat) (write : Bool) :
    exec (.badAccess dt a size write) s =
      s.event dt fun u => u.whenever (!accessOk a size) fun u => u.badBar0 a size write := rfl

theorem exec_rcRead (s : State) (dt a size : Nat) :
    exec (.rcRead dt a size) s = s.event dt fun u => u.bar0Read a size := rfl

/-! ### Accesses that are not performed -/

theorem accessOk_eq_false {a size : Nat} (h8 : ¬ (size = 8 ∧ a % 8 = 0)) (h4 : ¬ (size = 4 ∧ a % 4 = 0)) :
    accessOk a size = false :=
  Bool.eq_false_iff.mpr fun h => ((accessOk_iff a size).mp h).elim h8 h4

theorem State.badBar0_write {s : State} (h : s.hif.perst = false) (a size : Nat) :
    s.badBar0 a size true = (s.wr Reg.HIF.ERR.BADACC 1).wakeLogic 1 := by
  simp [State.badBar0, h]

theorem State.badBar0_read {s : State} (h : s.hif.perst = false) (a size : Nat) :
    s.badBar0 a size false =
      ((s.wr Reg.HIF.ERR.BADACC 1).send (.readBytes a (List.replicate size 0xFF))).wakeLogic 1 := by
  simp [State.badBar0, h, onesBytes]

/-- Settles O10: the three rows that access BAR0 turn such an access into the same error (R11). -/
theorem badAccessSetsBadacc : Obligations.BadAccessSetsBadacc := by
  intro s dt a size data hr hp h8 h4
  have hbad : accessOk a size = false := accessOk_eq_false h8 h4
  have hp' : (s.elapse dt).hif.perst = false := hp
  have hwrite := State.badBar0_write hp' a size
  have hread := State.badBar0_read hp' a size
  refine ⟨(exec_registerWrite s dt a size data).trans (State.event_eq hr dt _ _ ?_),
    (exec_badAccess s dt a size true).trans (State.event_eq hr dt _ _ ?_),
    (exec_badAccess s dt a size false).trans (State.event_eq hr dt _ _ ?_),
    (exec_rcRead s dt a size).trans (State.event_eq hr dt _ _ ?_)⟩
  · simp only [State.bar0Write, hbad, Bool.not_false, if_true, hwrite]
  · rw [State.whenever_true _ _ _ (by simp [hbad]), hwrite]
  · rw [State.whenever_true _ _ _ (by simp [hbad]), hread]
  · simp only [State.bar0Read, hbad, Bool.not_false, if_true, hread]

/-! ### Bits that no field covers -/

/-- A bit outside every field of a row is none of its mask. -/
theorem RegSpec.mask_bit_outside {r : RegSpec} {i : Nat} (h : ∀ f ∈ r.fields, ¬ (f.lo ≤ i ∧ i ≤ f.hi)) :
    r.mask.testBit i = false := by
  rw [← bit_testBit, RegSpec.mask, mask_bit, Bool.or_eq_false_iff, List.any_eq_false]
  refine ⟨by simp [bit], fun f hf hc => h f hf ?_⟩
  simp only [Bool.and_eq_true, decide_eq_true_eq] at hc
  omega

/-- A number cut to a word has no bit that it did not have. -/
theorem bit_toWord_of_false {n i : Nat} (h : n.testBit i = false) : bit (toWord n).toNat i = false := by
  rw [bit_testBit, toWord, BitVec.toNat_ofNat, Nat.testBit_mod_two_pow, h, Bool.and_false]

/-- A reserved bit reads as zero (R12). -/
theorem State.readReg_reserved (s : State) {a i : Nat} {r : RegSpec} (hr : findReg a = some r)
    (h : ∀ f ∈ r.fields, ¬ (f.lo ≤ i ∧ i ≤ f.hi)) : bit (s.readReg a).toNat i = false := by
  simp only [State.readReg, hr]
  refine bit_toWord_of_false ((Nat.testBit_land _ _ i).trans ?_)
  rw [RegSpec.mask_bit_outside h, Bool.and_false]

/-! ### Accesses that reach their register -/

/-- The state with the record of its domains' last accesses replaced. -/
def State.idling (s : State) (d : List (Nat × Nat)) : State := { s with pwr := { s.pwr with domIdle := d } }

/-- When a domain had its last access shows in no register. -/
theorem State.readReg_idling (s : State) (d : List (Nat × Nat)) (a : Nat) : (s.idling d).readReg a = s.readReg a := rfl

/-- An access that the hallway carries to its register acts there; beside that it may wake the register's domain, and the
device. -/
theorem State.access_idling (s : State) (a : Nat) (f : State → State) (hp : s.hif.perst = false) (hb : s.bar0Status a = hsOk) :
    ∃ d, s.access a f = (f (s.idling d)).wakeLogic 1 := s.access_reached a f hp hb

theorem State.writeFields_out (s : State) (base : Nat) (span : Nat × Nat) (d : Nat) :
    (s.writeFields base span d).out = s.out := by
  obtain ⟨r, hr⟩ := s.writeFields_frame base span d
  rw [hr]

theorem State.writeFields_pwr (s : State) (base : Nat) (span : Nat × Nat) (d : Nat) :
    (s.writeFields base span d).pwr = s.pwr := by
  obtain ⟨r, hr⟩ := s.writeFields_frame base span d
  rw [hr]

theorem wrZero_out (l : List Field) (s : State) : (l.foldl (fun s f => s.wr f 0) s).out = s.out := by
  obtain ⟨r, hr⟩ := wrZero_frame l s
  rw [hr]

theorem wrZero_pwr (l : List Field) (s : State) : (l.foldl (fun s f => s.wr f 0) s).pwr = s.pwr := by
  obtain ⟨r, hr⟩ := wrZero_frame l s
  rw [hr]

/-! ### Writes that go by the access codes -/

/-- The bits of the register that a write of `data` puts on it: those of its half, or all 64 (R11). -/
def accessData (a size : Nat) (data : Word) : Nat := data.toNat % 2 ^ (8 * size) * 2 ^ (a % 8 * 8)

theorem accessData_bit {a size i : Nat} (data : Word) (h : a % 8 * 8 ≤ i ∧ i < a % 8 * 8 + 8 * size) :
    bit (accessData a size data) i = bit data.toNat (i - a % 8 * 8) := by
  have hi : i - a % 8 * 8 < 8 * size := by omega
  rw [accessData, bit_testBit, Nat.testBit_mul_two_pow, Nat.testBit_mod_two_pow, bit_testBit]
  simp [h.1, hi]

/-- The registers whose writes act in a way of their own, POP of the capture queues apart. -/
abbrev actingRegs : List Nat :=
  [Reg.HIF.CMDBASE.BASE.addr, Reg.HIF.RPLBASE.BASE.addr, Reg.HIF.EVTBASE.BASE.addr, Reg.HIF.RINGSIZE.CMDLOG.addr,
    Reg.HIF.WBADDR.ADDR.addr, Reg.HIF.CMDTAIL.COUNT.addr, Reg.HIF.RPLHEAD.COUNT.addr, Reg.HIF.EVTHEAD.COUNT.addr,
    Reg.HIF.QCTRL.ENABLE.addr, Reg.STEP.SINGLE.NSTEP.addr, Reg.STEP.CTRL.RUN.addr, Reg.HIF.MBOXCTL.GO.addr]

/-- A REGISTER_WRITE whose register the hallway reaches and whose writes do not act in a way of their own writes its fields. -/
theorem exec_registerWrite_plain {s : State} {dt a size : Nat} (data : Word) (hr : s.inReset = false)
    (hp : s.hif.perst = false) (hw : s.power < 2) (ht : s.pwr.target = none)
    (hok : (size = 8 ∧ a % 8 = 0) ∨ (size = 4 ∧ a % 4 = 0)) (hb : s.bar0Status a = hsOk)
    (hplain : a / 8 * 8 ∉ actingRegs) (hpop : ∀ i < 8, a / 8 * 8 ≠ (Reg.TIME.CAP.HI.POP i).addr) :
    ∃ d, exec (.registerWrite dt a size data) s = .next (s.after dt fun u =>
      (u.idling d).writeFields (a / 8 * 8) (accessSpan a size) (accessData a size data)) := by
  have hok' : accessOk a size = true := (accessOk_iff a size).mpr hok
  have hb' : (s.elapse dt).bar0Status a = hsOk := (s.elapse_bar0Status dt a).trans hb
  obtain ⟨d, hd⟩ := (s.elapse dt).access_idling a (fun u => u.writeAccess a size data) hp hb'
  refine ⟨d, (exec_registerWrite s dt a size data).trans (State.event_eq hr dt _ _ ?_)⟩
  have hfields : ((s.elapse dt).idling d).writeAccess a size data =
      ((s.elapse dt).idling d).writeFields (a / 8 * 8) (accessSpan a size) (accessData a size data) := by
    rw [State.writeAccess_plain _ a size data hplain hpop, span_eq hok', accessData]
  simp only [State.bar0Write, hok', Bool.not_true, Bool.false_eq_true, if_false, hd, hfields]
  refine State.wakeLogic_awake _ ?_ ?_ 1
  · rw [State.writeFields_power]
    exact hw
  · rw [State.writeFields_pwr]
    exact ht

/-- A bit of a field after a write by access codes (R13). -/
theorem State.writeFields_field_bit (s : State) {base : Nat} {span : Nat × Nat} {r : RegSpec} (hr : findReg base = some r)
    {f : FieldSpec} (hf : f ∈ r.fields) (d : Nat) {i : Nat} (hi : f.lo ≤ i ∧ i ≤ f.hi) :
    bit ((s.writeFields base span d).stored base).toNat i =
      if span.2 ≤ i ∧ i ≤ span.1 then
        match f.acc with
        | .rw => bit d i
        | .w1c => bit (s.stored base).toNat i && !bit d i
        | _ => bit (s.stored base).toNat i
      else bit (s.stored base).toNat i := by
  rw [State.writeFields_bit, covered_field base .rw span i r hr f hf hi, covered_field base .w1c span i r hr f hf hi]
  by_cases hspan : span.2 ≤ i ∧ i ≤ span.1
  · cases f.acc <;> simp [hspan]
  · have hout : (decide (span.2 ≤ i) && decide (i ≤ span.1)) = false := by
      rw [← Bool.decide_and, decide_eq_false hspan]
    simp [hspan, hout]

/-- Settles O11, by the law of writes by access codes. -/
theorem registerWriteFollowsAccessCodes : Obligations.RegisterWriteFollowsAccessCodes := by
  intro s dt a size data r hr hp hw ht hok hb hreg hplain hpop
  obtain ⟨d, hd⟩ := exec_registerWrite_plain (dt := dt) data hr hp hw ht hok hb
    (fun hmem => hplain ((List.Perm.mem_iff (by decide)).mp hmem)) hpop
  refine ⟨_, hd, ?_, fun b hne => ?_, fun f hf i hlo hhi => ?_⟩
  · exact State.writeFields_out _ _ _ _
  · exact State.writeFields_ne _ _ b _ _ hne
  · refine (State.writeFields_field_bit _ hreg hf _ ⟨hlo, hhi⟩).trans ?_
    rw [span_eq ((accessOk_iff a size).mpr hok)]
    dsimp only
    by_cases hin : a % 8 * 8 ≤ i ∧ i < a % 8 * 8 + 8 * size
    · rw [if_pos hin, if_pos (by omega), accessData_bit data hin]
      rfl
    · rw [if_neg hin, if_neg (by omega)]
      rfl

/-! ### Offsets at which no table defines a register -/

/-- Every register whose writes act in a way of their own stands in a table. -/
theorem findReg_of_acting : ∀ b ∈ actingRegs, findReg b ≠ none := by decide

theorem findReg_of_pop : ∀ i < 8, findReg (Reg.TIME.CAP.HI.POP i).addr ≠ none := by decide

/-- A write where no table defines a register has no field to write (R12). -/
theorem State.writeFields_undefined (s : State) {base : Nat} (h : findReg base = none) (span : Nat × Nat) (d : Nat) :
    s.writeFields base span d = s := by
  simp [State.writeFields, fieldsAt, h]

/-- Settles O8: reads are masked by the table's row, and a write without a row reaches no field. -/
theorem reservedBitsReadZero : Obligations.ReservedBitsReadZero := by
  intro s a
  refine ⟨fun h => by simp [State.readReg, h], fun r hr i hi => s.readReg_reserved hr hi, ?_⟩
  intro dt size data hr hp hw ht hok hb hnone
  obtain ⟨d, hd⟩ := exec_registerWrite_plain (dt := dt) data hr hp hw ht hok hb
    (fun hmem => findReg_of_acting _ hmem hnone) (fun i hi he => findReg_of_pop i hi (he ▸ hnone))
  simp only [State.writeFields_undefined _ hnone] at hd
  exact ⟨_, hd, rfl, fun b => rfl⟩

/-! ### Reads -/

/-- A read that the hallway carries to its register returns it and clears what it returns whole. -/
theorem exec_rcRead_reached {s : State} {dt a size : Nat} (hr : s.inReset = false) (hp : s.hif.perst = false)
    (hw : s.power < 2) (ht : s.pwr.target = none) (hok : accessOk a size = true) (hb : s.bar0Status a = hsOk)
    (hns : ¬ (a / 8 * 8 = Reg.TIME.NOWNS.NS.addr ∧ size = 8)) :
    ∃ d, exec (.rcRead dt a size) s = .next (s.after dt fun u =>
      ((clears (a / 8 * 8) (accessSpan a size)).foldl (fun s f => s.wr f 0) (u.idling d)).send
        (.readData a size ((u.idling d).readAccess a size).1)) := by
  have hb' : (s.elapse dt).bar0Status a = hsOk := (s.elapse_bar0Status dt a).trans hb
  obtain ⟨d, hd⟩ := (s.elapse dt).access_idling a
    (fun u => (u.readAccess a size).2.send (.readData a size (u.readAccess a size).1)) hp hb'
  refine ⟨d, (exec_rcRead s dt a size).trans (State.event_eq hr dt _ _ ?_)⟩
  simp only [State.bar0Read, hok, hb', Bool.not_true, beq_self_eq_true, Bool.true_or, Bool.false_eq_true, if_false, if_true, hd]
  rw [State.readAccess_state _ a size hns]
  refine State.wakeLogic_awake _ ?_ ?_ 1
  · exact lt_of_eq_of_lt (clears_power _ _ _) hw
  · rw [State.send_pwr, wrZero_pwr]
    exact ht

/-- Settles O12, by the laws of reads and of the fields that they clear. -/
theorem rcReadClearsWholeFields : Obligations.RcReadClearsWholeFields := by
  intro s dt a size r hr hp hw ht hok hb hreg hns
  have hok' : accessOk a size = true := (accessOk_iff a size).mpr hok
  obtain ⟨d, hd⟩ := exec_rcRead_reached (dt := dt) hr hp hw ht hok' hb (by omega)
  refine ⟨_, (((s.elapse dt).idling d).readAccess a size).1, hd, ?_, fun i hi => ?_, fun b hne => ?_, fun f hf => ?_⟩
  · rw [State.after_out, State.send_out, wrZero_out]
    rfl
  · rw [readAccess_bit _ a size i r hreg hok' hi, State.readReg_idling]
  · exact clears_ne _ _ b _ hne
  · refine (clears_rd _ _ _ r hreg f hf).trans ?_
    rw [span_eq hok']
    have hiff : f.hi ≤ a % 8 * 8 + 8 * size - 1 ↔ f.hi < a % 8 * 8 + 8 * size := by omega
    simp only [hiff]
    rfl

end Sys2Proof.Machine
end

section
/-! COMMIT, SWITCH and the refill bursts: when each of them acts, and what a burst that ends makes of its refill. -/

namespace Sys2Proof.Machine

/-! ### The state after two effects that agree -/

theorem State.after_congr {s : State} {dt : Nat} {f g : State → State} (h : f (s.elapse dt) = g (s.elapse dt)) :
    s.after dt f = s.after dt g := by
  simp only [State.after, h]

/-! ### COMMIT and SWITCH -/

theorem exec_commitComplete (s : State) (dt : Nat) : exec (.commitComplete dt) s = execCommitComplete dt s := rfl

theorem exec_switchComplete (s : State) (dt : Nat) : exec (.switchComplete dt) s = execSwitchComplete dt s := rfl

-- Time that passes changes neither what has arrived nor the instant from which COMMIT may be issued.
@[simp] theorem State.elapse_allDone (s : State) (dt : Nat) (r : StepRun) : (s.elapse dt).allDone r = s.allDone r := rfl
@[simp] theorem State.elapse_commitFrom (s : State) (dt : Nat) (r : StepRun) : (s.elapse dt).commitFrom r = s.commitFrom r := rfl
@[simp] theorem State.elapse_refilled (s : State) (dt n : Nat) : (s.elapse dt).refilled n = s.refilled n := rfl

theorem exec_commitComplete_ready {s : State} {dt : Nat} {r : StepRun} (hr : s.inReset = false) (hc : s.step.cur = some r)
    (hst : r.stage = .evaluate) (hd : s.allDone r = true) (ht : s.commitFrom r ≤ s.now + dt) :
    exec (.commitComplete dt) s = .next (s.after dt fun u => u.commitPhase r) := by
  refine (exec_commitComplete s dt).trans (State.event_eq hr dt _ _ ?_)
  simp only [State.elapse_step, hc]
  exact State.whenever_true _ _ _ (by simp [hst, hd, ht])

theorem exec_switchComplete_ready {s : State} {dt : Nat} {r : StepRun} (hr : s.inReset = false) (hc : s.step.cur = some r)
    (hst : r.stage = .switch) (hf : s.refilled 0 = true) (ht : r.evalAt + 2 * fsNs ≤ s.now + dt) :
    exec (.switchComplete dt) s = .next (s.after dt fun u => u.switchPhase r) := by
  refine (exec_switchComplete s dt).trans (State.event_eq hr dt _ _ ?_)
  simp only [State.elapse_step, hc]
  exact State.whenever_true _ _ _ (by simp [hst, hf, ht])

/-! ### A burst that acknowledges -/

/-- A refill goes on: it ends once no room of it has a burst to repeat (R35, R121). -/
def State.refillGoesOn (s : State) (x : Refill) : State :=
  if x.retry = [] then (s.endRefill x true).refillsSettle else s.setRefill x

/-- First bursts hold no closing SWITCH: only repeated ones lengthen a step (R35). -/
theorem State.burstHeld_main (s : State) {x : Refill} (h : x.main = true) : s.burstHeld x = s := by
  unfold State.burstHeld
  split <;> simp [h]

theorem State.burstAck_main (s : State) {x : Refill} (h : x.main = true) (room : Nat) :
    s.burstAck x room = s.refillGoesOn { x with main := false } := by
  simp [State.burstAck, State.refillGoesOn, s.burstHeld_main h, h]

theorem State.burstAck_repeated (s : State) {x : Refill} (h : x.main = false) (room : Nat) :
    s.burstAck x room = (s.burstHeld x).refillGoesOn { x with retry := x.retry.filter fun r => r ≠ room } := by
  simp [State.burstAck, State.refillGoesOn, h]

/-! ### How a burst of a wing under refill ends -/

theorem exec_refillBurstDone (s : State) (dt wing room : Nat) (result : BurstEnd) (bonds spares : List Nat) :
    exec (.refillBurstDone dt wing room result bonds spares) s =
      execRefillBurstDone dt wing room result bonds spares s := rfl

section
variable {s : State} {dt wing room : Nat} {bonds spares : List Nat} {x : Refill} (hr : s.inReset = false)
  (hx : s.fab.refills.find? (fun y => y.wing = wing) = some x)
include hr hx

theorem exec_refillBurstDone_ack :
    exec (.refillBurstDone dt wing room .ack bonds spares) s = .next (s.after dt fun u =>
      u.whenever (!(x.main && s.framesBad x.ctx wing)) fun v => v.burstAck x room) := by
  refine (exec_refillBurstDone s dt wing room _ bonds spares).trans (State.event_eq hr dt _ _ ?_)
  simp only [State.elapse_fab, hx]
  rfl

theorem exec_refillBurstDone_crcFail :
    exec (.refillBurstDone dt wing room .crcFail bonds spares) s = .next (s.after dt fun u =>
      if room ∈ x.retry then
        ((u.noteRefillFail x room 0).bondTest wing room (bonds ++ spares.map (1040 + ·))).refillFails x
      else (u.setRefill { x with retry := room :: x.retry }).count Reg.CTX.REFILL.RETRY 1) := by
  have hwing : x.wing = wing := by simpa using List.find?_some hx
  refine (exec_refillBurstDone s dt wing room _ bonds spares).trans (State.event_eq hr dt _ _ ?_)
  simp only [State.elapse_fab, hx, hwing, List.contains_iff_mem]

theorem exec_refillBurstDone_sigFail :
    exec (.refillBurstDone dt wing room .sigFail bonds spares) s = .next (s.after dt fun u =>
      ((((u.upsetFrame x.ctx wing room).noteRefillFail x room 1).count Reg.CTX.REFILL.SIGFAIL 1).sigMismatch wing room x.ctx
        false).refillFails x) := by
  refine (exec_refillBurstDone s dt wing room _ bonds spares).trans (State.event_eq hr dt _ _ ?_)
  simp only [State.elapse_fab, hx]

end

/-- Settles O32: COMMIT and SWITCH by their conditions, the refill bursts by how a burst ends. -/
theorem commitSwitchAndRefill : Obligations.CommitSwitchAndRefill := by
  refine ⟨fun s dt r hr hc => ⟨exec_commitComplete_ready hr hc, exec_switchComplete_ready hr hc⟩, ?_⟩
  intro s dt wing room bonds spares x hr hx
  refine ⟨fun hm hb => ?_, fun hm hb => ?_, fun hm => ?_, fun hn => ?_, fun hi => ?_, exec_refillBurstDone_sigFail hr hx⟩
  · rw [exec_refillBurstDone_ack hr hx]
    exact congrArg _ (State.after_congr ((State.whenever_true _ _ _ (by simp [hb])).trans (State.burstAck_main _ hm room)))
  · rw [exec_refillBurstDone_ack hr hx]
    exact congrArg _ (State.after_congr (State.whenever_false _ _ _ (by simp [hm, hb])))
  · rw [exec_refillBurstDone_ack hr hx]
    exact congrArg _ (State.after_congr ((State.whenever_true _ _ _ (by simp [hm])).trans (State.burstAck_repeated _ hm room)))
  · simp only [exec_refillBurstDone_crcFail hr hx, if_neg hn]
  · simp only [exec_refillBurstDone_crcFail hr hx, if_pos hi]

end Sys2Proof.Machine
end

section
/-! The pacing of runs and what happens within a step: LAUNCH and the pacer's ticks, rounds, tokens, acknowledges and dones. -/

namespace Sys2Proof.Machine

/-! ### LAUNCH -/

theorem exec_stepLaunch (s : State) (dt : Nat) (pins : List (Nat × Bool)) :
    exec (.stepLaunch dt pins) s = execStepLaunch dt pins s := rfl

/-- A LAUNCH that the launch rule allows: a full trace buffer under policy STALL holds it, and that stall is counted once (R616). -/
def State.launchOrHold (s : State) (r : Run) (pins : List (Nat × Bool)) : State :=
  match s.dbg.trace with
  | none => s.launch r pins
  | some t =>
    if s.traceStalls then
      if t.held then s else ({ s with dbg := { s.dbg with trace := some { t with held := true } } }).count Reg.DBG.TRCNT.STALLS 1
    else ({ s with dbg := { s.dbg with trace := some { t with held := false } } }).launch r pins

theorem State.launchOrHold_untraced {s : State} (h : s.dbg.trace = none) (r : Run) (pins : List (Nat × Bool)) :
    s.launchOrHold r pins = s.launch r pins := by
  simp only [State.launchOrHold, h]

theorem State.launchOrHold_traced {s : State} {t : Trace} (h : s.dbg.trace = some t) (hs : s.traceStalls = false) (r : Run)
    (pins : List (Nat × Bool)) :
    s.launchOrHold r pins = ({ s with dbg := { s.dbg with trace := some { t with held := false } } }).launch r pins := by
  simp only [State.launchOrHold, h, hs, Bool.false_eq_true, if_false]

theorem State.launchOrHold_stalls {s : State} {t : Trace} (h : s.dbg.trace = some t) (hs : s.traceStalls = true) (r : Run)
    (pins : List (Nat × Bool)) :
    s.launchOrHold r pins = if t.held then s else
      ({ s with dbg := { s.dbg with trace := some { t with held := true } } }).count Reg.DBG.TRCNT.STALLS 1 := by
  simp only [State.launchOrHold, h, hs, if_true]

theorem exec_stepLaunch_due {s : State} {dt : Nat} {r : Run} (hr : s.inReset = false) (hrun : s.step.run = some r)
    (pins : List (Nat × Bool)) (hdue : (s.elapse dt).launchDue r = true) :
    exec (.stepLaunch dt pins) s = .next (s.after dt fun u => u.launchOrHold r pins) := by
  refine (exec_stepLaunch s dt pins).trans (State.event_eq hr dt _ _ ?_)
  simp only [State.elapse_step, hrun]
  refine (State.whenever_true _ _ _ hdue).trans ?_
  unfold State.launchOrHold
  cases (s.elapse dt).dbg.trace <;> cases (s.elapse dt).traceStalls <;> rfl

/-! ### The pacer -/

theorem exec_pacerTick (s : State) (dt : Nat) : exec (.pacerTick dt) s = execPacerTick dt s := rfl

theorem exec_pacerTick_due {s : State} {dt : Nat} {r : Run} (hr : s.inReset = false) (hrun : s.step.run = some r)
    (hm : s.rd Reg.STEP.CTRL.MODE = 1) (hcue : r.waitCue = false ∨ r.cueHit = true) (ht : r.nextFall ≤ s.now + dt) :
    exec (.pacerTick dt) s = .next (s.after dt fun u => { u with step := { u.step with run := some { r with
      fallen := r.fallen + 1, lastFall := r.nextFall, nextFall := r.nextFall + u.tickPeriod } } }) := by
  refine (exec_pacerTick s dt).trans (State.event_eq hr dt _ _ ?_)
  simp only [State.elapse_step, hrun]
  exact State.whenever_true _ _ _ (by simp [hm, hcue, ht])

/-- Settles O30: a LAUNCH by whether a trace stalls it, and a pacer tick at its instant. -/
theorem launchesAndTicks : Obligations.LaunchesAndTicks := by
  intro s dt r hr hrun
  refine ⟨fun pins hdue => ?_, exec_pacerTick_due hr hrun⟩
  rw [exec_stepLaunch_due hr hrun pins hdue]
  refine ⟨fun ht => ?_, fun tr ht hs => ?_, fun tr ht hs hh => ?_, fun tr ht hs hh => ?_⟩
  · exact congrArg _ (State.after_congr (State.launchOrHold_untraced (s := s.elapse dt) ht r pins))
  · exact congrArg _ (State.after_congr (State.launchOrHold_traced (s := s.elapse dt) ht hs r pins))
  · exact congrArg _ (State.after_congr ((State.launchOrHold_stalls (s := s.elapse dt) ht hs r pins).trans
      (if_neg (by simp [hh]))))
  · exact congrArg _ (State.after_congr ((State.launchOrHold_stalls (s := s.elapse dt) ht hs r pins).trans (if_pos hh)))

/-! ### Rounds -/

-- Time that passes changes neither the configuration nor what a step has done.
@[simp] theorem State.elapse_wing (s : State) (dt c w : Nat) : (s.elapse dt).wing c w = s.wing c w := rfl
@[simp] theorem State.elapse_phaseCtx (s : State) (dt : Nat) (r : StepRun) : (s.elapse dt).phaseCtx r = s.phaseCtx r := rfl
@[simp] theorem State.elapse_roundTime (s : State) (dt : Nat) (wc : WingCfg) (w : Nat) :
    (s.elapse dt).roundTime wc w = s.roundTime wc w := rfl
@[simp] theorem State.elapse_routeCut (s : State) (dt : Nat) (h : List Hop) : (s.elapse dt).routeCut h = s.routeCut h := rfl
@[simp] theorem State.elapse_deviceScope (s : State) (dt c : Nat) : (s.elapse dt).deviceScope c = s.deviceScope c := rfl
@[simp] theorem State.elapse_phasePorches (s : State) (dt : Nat) (r : StepRun) :
    (s.elapse dt).phasePorches r = s.phasePorches r := rfl
@[simp] theorem State.elapse_porchDone (s : State) (dt : Nat) (r : StepRun) (p : Nat) :
    (s.elapse dt).porchDone r p = s.porchDone r p := rfl

theorem exec_wingRoundEnd (s : State) (dt wing : Nat) : exec (.wingRoundEnd dt wing) s = execWingRoundEnd dt wing s := rfl

theorem exec_tokenArrival (s : State) (dt : Nat) (dest : ChanEnd) :
    exec (.tokenArrival dt dest) s = execTokenArrival dt dest s := rfl

theorem exec_tokenAckArrival (s : State) (dt wing port : Nat) :
    exec (.tokenAckArrival dt wing port) s = execTokenAckArrival dt wing port s := rfl

theorem exec_doneAtStepMaster (s : State) (dt : Nat) (porch : Bool) (unit : Nat) :
    exec (.doneAtStepMaster dt porch unit) s = execDoneAtStepMaster dt porch unit s := rfl

section
variable {s : State} {dt : Nat} {r : StepRun} (hr : s.inReset = false) (hc : s.step.cur = some r)
include hr hc

theorem exec_wingRoundEnd_due {wing : Nat} {x : WingRun} {wc : WingCfg} (hx : r.wings.find? (fun y => y.wing = wing) = some x)
    (hw : s.wing (s.phaseCtx r) wing = some wc) (hst : r.stage = .evaluate) (ha : x.active = true)
    (ht : x.began + s.roundTime wc wing ≤ s.now + dt) :
    exec (.wingRoundEnd dt wing) s = .next (s.after dt fun u => u.roundEnd wing) := by
  refine (exec_wingRoundEnd s dt wing).trans (State.event_eq hr dt _ _ ?_)
  simp only [State.elapse_step, hc, hx, State.elapse_phaseCtx, State.elapse_wing, hw]
  exact State.whenever_true _ _ _ (by simp [hst, ha, ht])

/-! ### Tokens and acknowledges -/

theorem exec_tokenArrival_crossed {dest : ChanEnd} {t : Token}
    (ht : r.tokens.find? (fun t => !t.isAck && t.dest == endPeer dest && (t.hops.isEmpty || s.routeCut t.hops) &&
      decide (t.ready ≤ s.now + dt)) = some t) :
    exec (.tokenArrival dt dest) s = .next (s.after dt fun u => u.tokenArrives r t) := by
  refine (exec_tokenArrival s dt dest).trans (State.event_eq hr dt _ _ ?_)
  rw [← s.elapse_now dt] at ht
  simp only [State.elapse_step, hc, State.elapse_routeCut, ht]

theorem exec_tokenAckArrival_crossed {wing port : Nat} {t : Token}
    (ht : r.tokens.find? (fun t => t.isAck && t.dest == Peer.wing wing port && (t.hops.isEmpty || s.routeCut t.hops)) = some t) :
    exec (.tokenAckArrival dt wing port) s = .next (s.after dt fun u =>
      (u.setCur { r with tokens := r.tokens.erase t, wings := r.wings.map fun x =>
        if x.wing = wing then { x with acked := port :: x.acked } else x }).markDone wing) := by
  refine (exec_tokenAckArrival s dt wing port).trans (State.event_eq hr dt _ _ ?_)
  simp only [State.elapse_step, hc, State.elapse_routeCut, ht]

/-! ### Dones -/

theorem exec_doneAtStepMaster_tower {unit : Nat} (hd : s.deviceScope r.ctx = true) (hst : r.stage = .evaluate)
    (hu : unit ∈ r.towers) (hdone : r.towerDone unit = true) (hn : unit ∉ r.doneTowers) :
    exec (.doneAtStepMaster dt false unit) s = .next (s.after dt fun u =>
      u.setCur { r with doneTowers := unit :: r.doneTowers, lastDone := u.now }) := by
  refine (exec_doneAtStepMaster s dt false unit).trans (State.event_eq hr dt _ _ ?_)
  simp only [State.elapse_step, hc, Bool.false_eq_true, if_false]
  exact State.whenever_true _ _ _ (by simp [hd, hst, hu, hdone, hn])

theorem exec_doneAtStepMaster_porch {unit : Nat} (hd : s.deviceScope r.ctx = true) (hst : r.stage = .evaluate)
    (hu : unit ∈ s.phasePorches r) (hdone : s.porchDone r unit = true) (hn : unit ∉ r.donePorches) :
    exec (.doneAtStepMaster dt true unit) s = .next (s.after dt fun u =>
      u.setCur { r with donePorches := unit :: r.donePorches, lastDone := u.now }) := by
  refine (exec_doneAtStepMaster s dt true unit).trans (State.event_eq hr dt _ _ ?_)
  simp only [State.elapse_step, hc, if_true]
  exact State.whenever_true _ _ _ (by simp [hd, hst, hu, hdone, hn])

end

/-- Settles O31: each event of a step by the condition under which it happens. -/
theorem roundsTokensAndDones : Obligations.RoundsTokensAndDones := by
  intro s dt r hr hc
  exact ⟨fun _ _ _ => exec_wingRoundEnd_due hr hc, fun _ _ => exec_tokenArrival_crossed hr hc,
    fun _ _ _ => exec_tokenAckArrival_crossed hr hc, fun _ => exec_doneAtStepMaster_tower hr hc,
    fun _ => exec_doneAtStepMaster_porch hr hc⟩

end Sys2Proof.Machine
end

section
/-! Fields that do not meet, and writes of a list of fields: what they leave unchanged and what they leave in a field. -/

namespace Sys2Proof.Machine

/-- Two fields that share no bit. -/
abbrev Field.apart (f g : Field) : Prop := g.addr ≠ f.addr ∨ g.hi < f.lo ∨ f.hi < g.lo

/-- A write of a field leaves every field that shares no bit with it. -/
theorem State.rd_wr_of_apart (s : State) {f g : Field} (v : Nat) (hf : f.valid) (h : f.apart g) : (s.wr f v).rd g = s.rd g := by
  by_cases ha : g.addr = f.addr
  · exact s.rd_wr_of_disjoint f g v hf ha (h.resolve_left (not_not.mpr ha))
  · exact s.rd_wr_of_addr f g v ha

section
variable {α : Type} (f : α → Field) (v : α → Nat)

/-- The fields that a list names, written in its order. -/
def State.wrAll (s : State) (l : List α) : State := l.foldl (fun s x => s.wr (f x) (v x)) s

theorem State.wrAll_cons (s : State) (x : α) (l : List α) : s.wrAll f v (x :: l) = (s.wr (f x) (v x)).wrAll f v l := rfl

/-- Writes of fields change registers only. -/
theorem State.wrAll_frame (l : List α) : ∀ s : State, ∃ r, s.wrAll f v l = { s with regs := r } := by
  induction l with
  | nil => exact fun s => ⟨s.regs, rfl⟩
  | cons x l ih => exact fun s => (ih (s.wr (f x) (v x))).imp fun r h => h

theorem State.stored_wrAll_of_ne {a : Nat} {l : List α} (h : ∀ x ∈ l, a ≠ (f x).addr) (s : State) :
    (s.wrAll f v l).stored a = s.stored a := by
  induction l generalizing s with
  | nil => rfl
  | cons x l ih => exact (ih (fun y hy => h y (by simp [hy])) _).trans (s.stored_wr_of_ne _ _ (h x (by simp)))

theorem State.rd_wrAll_of_apart {g : Field} {l : List α} (hv : ∀ x ∈ l, (f x).valid) (h : ∀ x ∈ l, (f x).apart g) (s : State) :
    (s.wrAll f v l).rd g = s.rd g := by
  induction l generalizing s with
  | nil => rfl
  | cons x l ih =>
    exact (ih (fun y hy => hv y (by simp [hy])) (fun y hy => h y (by simp [hy])) _).trans
      (s.rd_wr_of_apart _ (hv x (by simp)) (h x (by simp)))

/-- Where the fields share no bits, each reads as the value written to it. -/
theorem State.rd_wrAll_of_mem {x : α} {l : List α} (hv : ∀ y ∈ l, (f y).valid) (hl : l.Pairwise fun y z => (f z).apart (f y))
    (hx : x ∈ l) (s : State) : (s.wrAll f v l).rd (f x) = v x % 2 ^ ((f x).hi + 1 - (f x).lo) := by
  induction l generalizing s with
  | nil => cases hx
  | cons y l ih =>
    obtain ⟨hy, hl⟩ := List.pairwise_cons.mp hl
    have hvl : ∀ z ∈ l, (f z).valid := fun z hz => hv z (by simp [hz])
    rw [State.wrAll_cons]
    rcases List.mem_cons.mp hx with rfl | hx
    · exact (State.rd_wrAll_of_apart f v hvl hy _).trans (s.rd_wr_self _ _ (hv x (by simp)))
    · exact ih hvl hl hx _

end

end Sys2Proof.Machine
end

section
/-! What watches a step, and the bank FIFOs: the hang limit, the SU monitor, entries written and read. -/

namespace Sys2Proof.Machine

/-! ### The hang limit -/

theorem exec_hangLimitExpiry (s : State) (dt : Nat) : exec (.hangLimitExpiry dt) s = execHangLimitExpiry dt s := rfl

/-- The wings that have not reported done. -/
def StepRun.late (r : StepRun) : List Nat := (r.wings.filter fun x => !x.done).map fun x => x.wing

/-- The engine is HUNG: NOTDONE names the wings that are late, and STEP_HUNG the towers that hold them (R88). -/
def State.hungBy (s : State) (late : List Nat) : State :=
  ((s.wrAll Reg.STEP.NOTDONE.WINGS (fun t => ((late.filter fun w => w / 64 = t).map fun w => 2 ^ (w % 64)).sum)
    (List.range 8)).wr Reg.STEP.STAT.STATE seHung).post 0x0103 sevError srcDevice
      (((List.range 8).filter fun t => late.any fun w => w / 64 == t).map fun t => 2 ^ t).sum

theorem State.hungBy_step (s : State) (late : List Nat) : (s.hungBy late).step = s.step := by
  unfold State.hungBy
  rw [(State.hostOnly_post _ _ _ _ _).step, State.wr_step]
  obtain ⟨r, h⟩ := State.wrAll_frame Reg.STEP.NOTDONE.WINGS _ (List.range 8) s
  rw [h]

/-- A step that has passed the hang limit is HUNG, and a halt that waits acts at once (R88, R89). -/
theorem exec_hangLimitExpiry_due {s : State} {dt : Nat} {r : StepRun} (hr : s.inReset = false) (hc : s.step.cur = some r)
    (he : s.engine = seRunning) (ht : r.launchAt + max 10 (s.rd Reg.STEP.HANGLIM.LIMIT) * fsUs ≤ s.now + dt) :
    exec (.hangLimitExpiry dt) s = .next (s.after dt fun u =>
      if s.step.haltReq = true then (u.hungBy r.late).hangHalts else u.hungBy r.late) := by
  refine (exec_hangLimitExpiry s dt).trans (State.event_eq hr dt _ _ ?_)
  simp only [State.elapse_step, hc]
  have he' : (s.elapse dt).engine = seRunning := he
  refine (State.whenever_true _ _ _ (by simp [he', ht])).trans ?_
  exact if_congr (by rw [← State.elapse_step s dt, ← State.hungBy_step (s.elapse dt) r.late]; rfl) rfl rfl

/-! ### The SU monitor -/

theorem exec_suMonitorInterval (s : State) (dt : Nat) (su : List (Nat × Nat)) :
    exec (.suMonitorInterval dt su) s = execSuMonitorInterval dt su s := rfl

/-- The highest SU measured in a tower, as its register shows it. -/
def suHighest (su : List (Nat × Nat)) (tower : Nat) : Nat :=
  min 65535 (maxList ((su.filter fun (x : Nat × Nat) => x.1 / 64 = tower).map Prod.snd))

/-- The SU of the wings kept, and the highest of each tower shown (R70). -/
def State.suMeasured (s : State) (su : List (Nat × Nat)) : State :=
  ({ s with fab := { s.fab with su := su.foldl (fun m (x : Nat × Nat) => m.upd 0 x.1 x.2) s.fab.su } }).wrAll suMeasF
    (suHighest su) (List.range 8)

/-- Whether some wing has passed the SU limit (R71). -/
def State.suAbove (s : State) (su : List (Nat × Nat)) : Bool :=
  su.any fun x => decide (s.rd Reg.STEP.SULIM.LIMIT < x.2) || decide (65535 < x.2)

/-- The alarm of the SU monitor: posted when a wing first passes the limit (R71). -/
def State.suAlarm (s : State) (above : Bool) : State :=
  let t := { s with step := { s.step with atRisk := above } }
  if above ∧ !s.step.atRisk then (t.wr Reg.STEP.STAT.AT_RISK 1).post 0x0104 sevWarn srcDevice 1 else t

/-- The state in which a series of measurements has run now. -/
def State.sampledNow (s : State) (series : Nat) : State :=
  { s with clk := { s.clk with sampledAt := s.clk.sampledAt.upd 0 series s.now } }

theorem exec_suMonitorInterval_due {s : State} {dt : Nat} (su : List (Nat × Nat)) (hr : s.inReset = false) (hp : s.power = 0)
    (ht : s.clk.sampledAt.at 0 0 + fsMs ≤ s.now + dt) :
    exec (.suMonitorInterval dt su) s = .next (s.after dt fun u =>
      ((u.sampledNow 0).suMeasured su).suAlarm (((u.sampledNow 0).suMeasured su).suAbove su)) := by
  refine (exec_suMonitorInterval s dt su).trans (State.event_eq hr dt _ _ ?_)
  have hp' : (s.elapse dt).power = 0 := hp
  refine (State.whenever_true _ _ _ (by simp [hp'])).trans ?_
  exact State.whenever_true _ _ _ (by simp [ht])

theorem suMeasF_valid : ∀ t ∈ List.range 8, (suMeasF t).valid := by decide

theorem suMeasF_apart : (List.range 8).Pairwise fun y z => (suMeasF z).apart (suMeasF y) := by decide

theorem State.suMeasured_frame (s : State) (su : List (Nat × Nat)) :
    ∃ r f, s.suMeasured su = { s with regs := r, fab := f } := by
  obtain ⟨r, h⟩ := State.wrAll_frame suMeasF (suHighest su) (List.range 8)
    { s with fab := { s.fab with su := su.foldl (fun m (x : Nat × Nat) => m.upd 0 x.1 x.2) s.fab.su } }
  exact ⟨r, _, h⟩

theorem State.suMeasured_rd (s : State) (su : List (Nat × Nat)) {tower : Nat} (ht : tower < 8) :
    (s.suMeasured su).rd (suMeasF tower) = suHighest su tower := by
  refine (State.rd_wrAll_of_mem suMeasF _ suMeasF_valid suMeasF_apart (List.mem_range.mpr ht) _).trans (Nat.mod_eq_of_lt ?_)
  have hw : (suMeasF tower).hi + 1 - (suMeasF tower).lo = 16 := by simp only [suMeasF]; omega
  rw [hw, suHighest]
  omega

/-- The SU registers lie apart from the other registers of the step engine. -/
theorem State.suMeasured_stored (s : State) (su : List (Nat × Nat)) {a : Nat} (h : a < 0x200B0 ∨ 0x200C0 ≤ a) :
    (s.suMeasured su).stored a = s.stored a := by
  refine State.stored_wrAll_of_ne suMeasF _ (fun t _ => ?_) _
  simp only [suMeasF, Reg.STEP.SUMEAS.SU_A]
  split <;> omega

theorem State.suAlarm_quiet {s : State} {above : Bool} (h : above = false ∨ s.step.atRisk = true) :
    s.suAlarm above = { s with step := { s.step with atRisk := above } } := if_neg (by rcases h with h | h <;> simp [h])

theorem State.suAlarm_rings {s : State} (h : s.step.atRisk = false) :
    s.suAlarm true = (({ s with step := { s.step with atRisk := true } }).wr Reg.STEP.STAT.AT_RISK 1).post 0x0104 sevWarn
      srcDevice 1 := if_pos (by simp [h])

/-- Beside its own flag, the alarm changes AT_RISK and what an event changes. -/
theorem State.suAlarm_frame (s : State) (above : Bool) :
    ∃ r, (∀ a, a ≠ Reg.STEP.STAT.AT_RISK.addr → ({ s with regs := r } : State).stored a = s.stored a) ∧
      HostOnly { s with regs := r, step := { s.step with atRisk := above } } (s.suAlarm above) := by
  by_cases h : above = false ∨ s.step.atRisk = true
  · rw [State.suAlarm_quiet h]
    exact ⟨s.regs, fun _ _ => rfl, HostOnly.refl _⟩
  · obtain ⟨ha, hs⟩ := not_or.mp h
    rw [Bool.not_eq_false] at ha
    rw [Bool.not_eq_true] at hs
    rw [ha, State.suAlarm_rings hs]
    exact ⟨_, fun a hne => s.stored_wr_of_ne Reg.STEP.STAT.AT_RISK 1 hne, State.hostOnly_post _ _ _ _ _⟩

theorem State.suAlarm_atRisk (s : State) (above : Bool) : (s.suAlarm above).step.atRisk = above := by
  obtain ⟨r, _, h⟩ := s.suAlarm_frame above
  rw [h.step]

theorem State.suAlarm_cfg (s : State) (above : Bool) : (s.suAlarm above).cfg = s.cfg := by
  obtain ⟨r, _, h⟩ := s.suAlarm_frame above
  rw [h.cfg]

theorem State.suAlarm_rd (s : State) (above : Bool) {f : Field} (hf : 0x20000 ≤ f.addr)
    (hne : f.addr ≠ Reg.STEP.STAT.AT_RISK.addr) : (s.suAlarm above).rd f = s.rd f := by
  obtain ⟨r, hr, h⟩ := s.suAlarm_frame above
  exact (h.rd (.inr hf)).trans (congrArg (fun w : Word => bits w.toNat f.hi f.lo) (hr f.addr hne))

theorem State.suAlarm_engine (s : State) (above : Bool) : (s.suAlarm above).engine = s.engine := by
  by_cases h : above = false ∨ s.step.atRisk = true
  · rw [State.suAlarm_quiet h]
    rfl
  · obtain ⟨ha, hs⟩ := not_or.mp h
    rw [Bool.eq_true_of_not_eq_false ha, State.suAlarm_rings (Bool.eq_false_iff.mpr hs)]
    exact ((State.hostOnly_post _ _ _ _ _).rd (.inr (by decide))).trans
      (State.rd_wr_of_apart _ (f := Reg.STEP.STAT.AT_RISK) 1 (by decide) (by decide))

/-- A wing that first passes the limit shows in AT_RISK (R71). -/
theorem State.suAlarm_shown {s : State} (h : s.step.atRisk = false) : (s.suAlarm true).rd Reg.STEP.STAT.AT_RISK = 1 := by
  rw [State.suAlarm_rings h]
  exact ((State.hostOnly_post _ _ _ _ _).rd (.inr (by decide))).trans (State.rd_wr_self _ Reg.STEP.STAT.AT_RISK 1 (by decide))

/-- What the SU monitor leaves once a millisecond (R70, R71). -/
theorem suMonitor_leaves (s : State) (dt : Nat) (su : List (Nat × Nat)) :
    let m := ((s.elapse dt).sampledNow 0).suMeasured su
    let t := m.suAlarm (m.suAbove su)
    (∀ tower < 8, t.rd (suMeasF tower) = suHighest su tower) ∧ t.step.atRisk = s.suAbove su ∧
      (t.step.atRisk = true → s.step.atRisk = false → t.rd Reg.STEP.STAT.AT_RISK = 1) ∧
      (t.step.atRisk = false ∨ s.step.atRisk = true → t.out = s.out ∧ t.hif = s.hif) ∧ t.cfg = s.cfg ∧ t.engine = s.engine := by
  intro m t
  obtain ⟨r, f, hm⟩ : ∃ r f, m = { (s.elapse dt).sampledNow 0 with regs := r, fab := f } := State.suMeasured_frame _ su
  have hstep : m.step = s.step := by rw [hm]; rfl
  have habove : m.suAbove su = s.suAbove su := by
    have hlimit : m.rd Reg.STEP.SULIM.LIMIT = s.rd Reg.STEP.SULIM.LIMIT := by
      rw [State.rd, State.suMeasured_stored _ su (.inr (by decide))]
      rfl
    rw [State.suAbove, hlimit]
    rfl
  have hengine : m.engine = s.engine := by
    rw [State.engine, State.rd, State.suMeasured_stored _ su (.inl (by decide))]
    rfl
  have hrisk : t.step.atRisk = m.suAbove su := m.suAlarm_atRisk _
  refine ⟨fun tower htower => ?_, hrisk.trans habove, fun h h0 => ?_, fun h => ?_, ?_, (m.suAlarm_engine _).trans hengine⟩
  · refine (m.suAlarm_rd _ ?_ ?_).trans (State.suMeasured_rd _ su htower) <;>
      (simp only [suMeasF, Reg.STEP.SUMEAS.SU_A, Reg.STEP.STAT.AT_RISK]; split <;> omega)
  · have hs := State.suAlarm_shown (s := m) (by rw [hstep, h0])
    rwa [← hrisk.symm.trans h] at hs
  · have hq := State.suAlarm_quiet (s := m) (above := m.suAbove su) (by rwa [← hrisk, hstep])
    have ht : t = { m with step := { m.step with atRisk := m.suAbove su } } := hq
    rw [ht, hm]
    exact ⟨rfl, rfl⟩
  · exact (m.suAlarm_cfg _).trans (by rw [hm]; rfl)

/-! ### Bank FIFOs -/

theorem exec_bankFifoWrite (s : State) (dt bank fifo : Nat) (entry : Word) :
    exec (.bankFifoWrite dt bank fifo entry) s = execBankFifoWrite dt bank fifo entry s := rfl

theorem exec_bankFifoRead (s : State) (dt bank fifo : Nat) :
    exec (.bankFifoRead dt bank fifo) s = execBankFifoRead dt bank fifo s := rfl

@[simp] theorem State.elapse_fifo (s : State) (dt bank fifo : Nat) (output : Bool) :
    (s.elapse dt).fifo bank fifo output = s.fifo bank fifo output := rfl

section
variable {s : State} {dt bank fifo : Nat} (hr : s.inReset = false) (hb : (s.elapse dt).bankInReset bank = false)
include hr hb

/-- An entry is written behind the others, or dropped where the FIFO is full (R106). -/
theorem exec_bankFifoWrite_active (entry : Word) (h16 : bank < 16) (h4 : fifo < 4) (ha : s.rdb (Reg.IOB.CFG.ACTIVE bank) = true) :
    exec (.bankFifoWrite dt bank fifo entry) s = .next (s.after dt fun u =>
      if 64 ≤ (s.fifo bank fifo false).entries.length then
        (u.setFifo { s.fifo bank fifo false with ovf := true }).count (Reg.IOB.DROP.INDROP bank) 1
      else u.setFifo { s.fifo bank fifo false with
        entries := (s.fifo bank fifo false).entries ++ [(entry, u.bankSeen u.now bank)] }) := by
  refine (exec_bankFifoWrite s dt bank fifo entry).trans (State.event_eq hr dt _ _ ?_)
  exact State.whenever_true _ _ _ (by simp [h16, h4, ha, hb])

theorem exec_bankFifoRead_oldest {e : Word × Nat} {rest : List (Word × Nat)} (hf : (s.fifo bank fifo true).entries = e :: rest)
    (ht : e.2 ≤ s.now + dt) :
    exec (.bankFifoRead dt bank fifo) s = .next (s.after dt fun u =>
      (u.setFifo { s.fifo bank fifo true with entries := rest }).fifoPins bank fifo e.1) := by
  refine (exec_bankFifoRead s dt bank fifo).trans (State.event_eq hr dt _ _ ?_)
  simp only [State.elapse_fifo, hf]
  exact State.whenever_true _ _ _ (by simp [ht, hb])

end

/-- Settles O33: the hang limit by the state it leaves, the SU monitor by its registers and its alarm, the FIFOs by their entries. -/
theorem hangsSuAndBankFifos : Obligations.HangsSuAndBankFifos := by
  refine ⟨fun s dt r hr hc he ht => exec_hangLimitExpiry_due hr hc he ht, fun s dt su hr hp ht => ?_,
    fun s dt bank fifo hr hb => ⟨fun entry h16 h4 ha => ⟨fun hn => ?_, fun hn => ?_⟩, fun e rest hf ht =>
      exec_bankFifoRead_oldest hr hb hf ht⟩⟩
  · exact ⟨_, exec_suMonitorInterval_due su hr hp ht, suMonitor_leaves s dt su⟩
  · rw [exec_bankFifoWrite_active hr hb entry h16 h4 ha]
    simp only [if_neg (Nat.not_le.mpr hn)]
  · rw [exec_bankFifoWrite_active hr hb entry h16 h4 ha]
    simp only [if_pos hn]

end Sys2Proof.Machine
end

section
/-! From a command row to the meaning of its command, and the state in which the command starts. -/

namespace Sys2Proof.Machine

/-- A command row whose command is accepted leaves what the command's meaning leaves. -/
theorem exec_accepted {i : Instr} {dt op : Nat} {h : CmdHdr} {ws : List Word} (hi : i.asCommand = some (dt, op, h, ws))
    {s : State} {l b r : Bool} (ha : s.accepts dt h l b r = true) (k : Command) (hk : commandOf op = k)
    (hl : l = true → k.len ws = true) (hb : k.svcOnly = b) (hr : k.inRom = r) (effect : Cmd → State → State)
    (he : ∀ (c : Cmd) (u : State), c.fail = none → c.payload = ws → c = (s.elapse dt).cmdOf op h ws →
      u = (s.elapse dt).begun op h ws → k.body c u = effect c u) :
    exec i s = .next (s.afterCmd dt op h ws effect) := by
  subst hk
  exact (exec_asCommand hi s).trans
    (State.command_row (commandOf op) dt h ws ha hl hb hr op (asCommand_op hi).2 effect he)

theorem exactly_of_length {ws : List Word} {n : Nat} (h : decide (ws.length = n) = true) : exactly n ws = true := by
  simpa [exactly] using h

section
variable (s : State) (op : Nat) (h : CmdHdr) (ws : List Word)

theorem State.begun_step : (s.begun op h ws).step = s.step := by unfold State.begun; split <;> rfl
theorem State.begun_fab : (s.begun op h ws).fab = s.fab := by unfold State.begun; split <;> rfl
theorem State.begun_cfg : (s.begun op h ws).cfg = s.cfg := by unfold State.begun; split <;> rfl
theorem State.begun_noc : (s.begun op h ws).noc = s.noc := by unfold State.begun; split <;> rfl
theorem State.begun_g6 : (s.begun op h ws).g6 = s.g6 := by unfold State.begun; split <;> rfl
theorem State.begun_dbg : (s.begun op h ws).dbg = s.dbg := by unfold State.begun; split <;> rfl
theorem State.begun_traceG6 : (s.begun op h ws).traceG6 = s.traceG6 := s.begun_rdb op h ws (by decide)
theorem State.begun_engine : (s.begun op h ws).engine = s.engine := s.begun_rd op h ws (by decide)

end

end Sys2Proof.Machine
end

section
/-! The status queries: each replies with the registers of what it names. -/

namespace Sys2Proof.Machine

/-- SIG_STATUS without a mirror base takes one word or two (R542). -/
theorem sigStatusLen_of_status {ws : List Word} (h : ws.length = 1 ∨ ws.length = 2) (hop : fieldOf (ws.getD 0 0) 1 0 = 0) :
    sigStatusLen ws = true := by
  have hop' : bits (ws.getD 0 0).toNat 1 0 = 0 := hop
  rcases h with h | h <;> simp only [sigStatusLen, h, hop'] <;> decide

section
variable {c : Cmd} (hf : c.fail = none) (u : State)
include hf

theorem stepStatusBody_ok :
    stepStatusBody c u = u.ok c
      ([Reg.STEP.CTRL.MODE.addr, Reg.STEP.STAT.STATE.addr, Reg.STEP.COUNT.COUNT.addr, Reg.STEP.CARDPOS.POS0.addr,
        Reg.STEP.LASTSTEP.DUR.addr, Reg.STEP.OVRCNT.COUNT.addr, Reg.STEP.OVRSTEP.STEPNO.addr,
        Reg.STEP.PACING.MININT.addr, Reg.STEP.BUDGET.DEMAND.addr, Reg.STEP.LATECNT.COUNT.addr].map u.readReg ++
        (List.range 8).map fun t => u.readReg (Reg.STEP.NOTDONE.WINGS t).addr) :=
  State.checked_pass u c [] _ hf (fun _ h => nomatch h)

theorem corrStatusBody_ok (hb : onlyBits c.payload 0 [(3, 0)] = true) (hk : c.f 0 3 0 ≤ 13) :
    corrStatusBody c u = u.ok c (u.dirWords (2 * c.f 0 3 0) ++ u.dirWords (2 * c.f 0 3 0 + 1)) := by
  unfold corrStatusBody
  refine State.checked_pass u c _ _ hf ?_
  simp [Cmd.reserved_one rfl hb, hk]

theorem laneStatusBody_ok (hb : onlyBits c.payload 0 [(6, 0), (14, 8)] = true) (h1 : 1 ≤ c.f 0 14 8)
    (h68 : c.f 0 6 0 + c.f 0 14 8 ≤ 68) :
    laneStatusBody c u =
      let lanes := (List.range (c.f 0 14 8)).map (c.f 0 6 0 + ·)
      u.ok c ((lanes.flatMap fun l =>
          if l < 64 then [u.readReg (Reg.LANE.CFG.RATE l).addr, u.readReg (Reg.LANE.STAT.STATE l).addr]
          else [u.readReg (Reg.ETH.CFG.MODE (l - 64)).addr, u.readReg (Reg.ETH.STAT.LINK (l - 64)).addr]) ++
        (lanes.filter fun l => (u.group l).isSome).map fun l => u.readReg (Reg.LANE.LINK2.HELD l).addr) := by
  unfold laneStatusBody
  refine State.checked_pass u c _ _ hf ?_
  simp [Cmd.reserved_one rfl hb, h68]
  omega

theorem sigStatusBody_status (hb : onlyBits c.payload 0 [(1, 0), (8, 8)] = true) (hop : c.f 0 1 0 = 0) (hbase : c.w 1 = 0) :
    sigStatusBody c u = u.ok c
      [u.stored Reg.CFG.SCAN.ENABLED.addr, u.stored Reg.CFG.SIGCNT.MISMATCH.addr, u.stored Reg.CFG.LASTSIG.FRAME.addr,
        u.stored Reg.CFG.MIRROR.ENABLED.addr] := by
  have hw : badBits (c.w 0) [(1, 0), (8, 8)] = false := (onlyBits_iff _ _ _).mp hb
  unfold sigStatusBody
  refine (State.checked_pass u c _ _ hf ?_).trans ?_
  · simp [hop, hbase, hw]
  · simp only [hop]

theorem fwInfoBody_ok :
    fwInfoBody c u =
      let w := u.bootWord
      w.2.ok c ([w.2.readReg Reg.FWU.STAT.SLOT.addr, w.2.readReg Reg.FWU.VERSION.SLOTA.addr, w.1, toWord u.fw.floor] ++
        if u.rdb Reg.DEV.BOOT.IMAGE then
          (u.fw.stores.getD (u.rd Reg.DEV.BOOT.SLOT) .empty).history.flatMap fun x => [x.1, x.2]
        else []) := by
  refine (State.checked_pass u c [] _ hf (fun _ h => nomatch h)).trans ?_
  obtain ⟨n, hn⟩ : ∃ n, u.bootWord.2 = { u with free := n } := by unfold State.bootWord; split <;> exact ⟨_, rfl⟩
  dsimp only
  rw [hn]
  rfl

/-- TRACE_READ replies with the trace's state, and with the records asked for where the trace holds them (R622). -/
theorem traceReadBody_ok (hb : onlyBits c.payload 0 [(31, 0), (62, 32)] = true)
    (hw : onlyBits c.payload 1 (if u.traceG6 then [] else [(2, 0), (13, 8)]) = true)
    (hn : c.f 0 62 32 = 0 ∨ u.rd Reg.DBG.TRSTAT.STATE = trDone ∧
      (u.traceG6 = true ∨ ∀ t, u.dbg.trace = some t → t.wings.contains (c.f 1 2 0 * 64 + c.f 1 13 8) = true)) :
    traceReadBody c u = u.ok c ([u.stored Reg.DBG.TRSTAT.STATE.addr, u.stored Reg.DBG.TRPOS.HELD.addr] ++
      match u.dbg.trace with
      | some t => ((t.recs.zipIdx.drop (c.f 0 31 0)).take (c.f 0 62 32)).flatMap fun r =>
          u.traceWords t (c.f 1 2 0 * 64 + c.f 1 13 8) (t.count - t.recs.length + r.2) r.1
      | none => []) := by
  unfold traceReadBody
  refine (State.checked_pass u c _ _ hf ?_).trans ?_
  · simp only [Cmd.reserved_two rfl hb hw]
    rcases hn with hn | ⟨hs, hg | ht⟩
    · simp [hn]
    · simp [hs, hg]
    · cases h : u.dbg.trace <;> simp_all
  · cases u.dbg.trace <;> rfl

end

/-- Settles O27: each query is accepted, and its meaning replies. -/
theorem statusCommandsReply : Obligations.StatusCommandsReply := by
  intro s dt h ws
  refine ⟨fun ha => ?_, fun ha hb hk => ?_, fun ha hb => ?_, fun ha hb hop hbase => ?_, fun ha => ?_, fun ha hb hw hn => ?_,
    fun ha hb hw => ?_⟩
  · exact exec_accepted rfl ha stepStatusCmd rfl exactly_of_length rfl rfl _ fun c u hf _ _ _ => stepStatusBody_ok hf u
  · refine exec_accepted rfl ha corrStatusCmd rfl exactly_of_length rfl rfl _ fun c u hf hp _ _ => ?_
    subst hp
    exact corrStatusBody_ok hf u hb hk
  · intro first n h1 h68
    refine exec_accepted rfl ha laneStatusCmd rfl exactly_of_length rfl rfl _ fun c u hf hp _ _ => ?_
    subst hp
    exact laneStatusBody_ok hf u hb h1 h68
  · refine exec_accepted rfl ha sigStatusCmd rfl (fun hl => sigStatusLen_of_status (of_decide_eq_true hl) hop) rfl rfl _
      fun c u hf hp _ _ => ?_
    subst hp
    exact sigStatusBody_status hf u hb hop (congrArg BitVec.toNat hbase)
  · exact exec_accepted rfl ha fwInfoCmd rfl exactly_of_length rfl rfl _ fun c u hf _ _ _ => fwInfoBody_ok hf u
  · refine exec_accepted rfl ha traceReadCmd rfl exactly_of_length rfl rfl _ fun c u hf hp _ hu => ?_
    have hg : u.traceG6 = (s.elapse dt).traceG6 := by rw [hu, State.begun_traceG6]
    subst hp
    refine (traceReadBody_ok hf u hb (hg ▸ hw) (.inl hn)).trans ?_
    rw [show c.f 0 62 32 = 0 from hn]
    cases u.dbg.trace <;> simp
  · intro wing tr htr hst hheld
    refine exec_accepted rfl ha traceReadCmd rfl exactly_of_length rfl rfl _ fun c u hf hp _ hu => ?_
    have hg : u.traceG6 = (s.elapse dt).traceG6 := by rw [hu, State.begun_traceG6]
    have ht : u.dbg.trace = some tr := by rw [hu, State.begun_dbg, State.elapse_dbg, htr]
    have hdone : u.rd Reg.DBG.TRSTAT.STATE = trDone := by rw [hu, State.begun_rd _ _ _ _ (by decide), State.elapse_rd, hst]
    subst hp
    refine (traceReadBody_ok hf u hb (hg ▸ hw) (.inr ⟨hdone, hheld.imp (fun h => hg.trans h) fun h t he => ?_⟩)).trans ?_
    · cases ht.symm.trans he
      exact h
    · simp only [ht]
      rfl

end Sys2Proof.Machine
end

section
/-! Runs and halts: what the step engine does with a request to run and with a request to halt. -/

namespace Sys2Proof.Machine

/-! ### Refusals -/

theorem firstRefusal_isSome {l : List (Bool × Nat × Nat)} (h : ∃ r ∈ l, r.1 = true) : (firstRefusal l).isSome = true := by
  induction l with
  | nil => obtain ⟨_, hr, _⟩ := h; cases hr
  | cons x l ih =>
    obtain ⟨c, v⟩ := x
    cases c with
    | true => rfl
    | false =>
      obtain ⟨r, hr, ht⟩ := h
      rcases List.mem_cons.mp hr with rfl | hr
      · cases ht
      · exact ih ⟨r, hr, ht⟩

section
variable (s : State)

theorem State.registerRun_refused {bad : Bool} (h : bad = true ∨ ∃ r ∈ s.runRefusals, r.1 = true) (left : Option Nat) :
    s.registerRun bad left = s.wr Reg.STEP.STAT.CTLERR 1 :=
  if_pos (Bool.or_eq_true_iff.mpr (h.imp_right firstRefusal_isSome))

theorem State.registerRun_accepted {bad : Bool} (hb : bad = false) (h : ∀ r ∈ s.runRefusals, r.1 = false) (left : Option Nat) :
    s.registerRun bad left = s.startRun none left :=
  if_neg (by simp [hb, firstRefusal_none h])

/-! ### Starting a run -/

theorem State.leaveHold_awake (h : s.power ≠ 1) : s.leaveHold = s := if_neg fun hc => h hc.1

/-- A run of the registers that no closing SWITCH precedes begins at once. -/
theorem State.startRun_awake (hp : s.power ≠ 1) (hc : s.step.closingOwed = false) (left : Option Nat) :
    s.startRun none left = s.beginRun left := by
  simp only [State.startRun, s.leaveHold_awake hp, hc, Bool.false_eq_true, if_false]

/-- The state of a run whose pacer starts at the next boundary of 0.125 ns (R80). -/
def State.freshRun (s : State) (left : Option Nat) : Run :=
  Run.mk (s.rdb Reg.STEP.PACE.CUESTART && s.rd Reg.STEP.CTRL.MODE != 3) false left ((s.now / fsTick + 1) * fsTick) s.now 0 0 s.now
    false

/-- The run in progress replaced. -/
def State.setRun (s : State) (r : Run) : State := { s with step := { s.step with run := some r } }

theorem State.setRun_stored (r : Run) (a : Nat) : (s.setRun r).stored a = s.stored a := rfl
theorem State.setRun_rd (r : Run) (f : Field) : (s.setRun r).rd f = s.rd f := rfl
theorem State.setRun_pwr (r : Run) : (s.setRun r).pwr = s.pwr := rfl
theorem State.setRun_out (r : Run) : (s.setRun r).out = s.out := rfl
theorem State.setRun_fab (r : Run) : (s.setRun r).fab = s.fab := rfl
theorem State.setRun_run (r : Run) : (s.setRun r).step.run = some r := rfl

/-- The registers of the engine once it has entered RUNNING. -/
def State.runShown (s : State) (left : Option Nat) : State :=
  (s.wr Reg.STEP.STAT.STATE seRunning).wr Reg.STEP.SINGLE.LEFT (left.getD 0)

theorem State.beginRun_eq (left : Option Nat) :
    s.beginRun left = (s.runShown left).setRun ((s.runShown left).freshRun left) := rfl

theorem State.beginRun_stored (left : Option Nat) {a : Nat} (h1 : a ≠ Reg.STEP.STAT.STATE.addr)
    (h2 : a ≠ Reg.STEP.SINGLE.LEFT.addr) : (s.beginRun left).stored a = s.stored a := by
  rw [State.beginRun_eq, State.setRun_stored]
  exact (State.stored_wr_of_ne _ Reg.STEP.SINGLE.LEFT _ h2).trans (s.stored_wr_of_ne Reg.STEP.STAT.STATE _ h1)

theorem State.beginRun_engine (left : Option Nat) : (s.beginRun left).engine = seRunning := by
  rw [State.engine, State.beginRun_eq, State.setRun_rd]
  exact (State.rd_wr_of_addr _ Reg.STEP.SINGLE.LEFT Reg.STEP.STAT.STATE _ (by decide)).trans
    (s.rd_wr_self Reg.STEP.STAT.STATE seRunning (by decide))

theorem State.beginRun_left (left : Option Nat) : (s.beginRun left).rd Reg.STEP.SINGLE.LEFT = left.getD 0 % 2 ^ 32 := by
  rw [State.beginRun_eq, State.setRun_rd]
  exact State.rd_wr_self _ Reg.STEP.SINGLE.LEFT _ (by decide)

theorem State.beginRun_run (left : Option Nat) : ∃ r : Run, (s.beginRun left).step.run = some r ∧ r.left = left ∧ r.tick = 0 :=
  ⟨_, by rw [State.beginRun_eq, State.setRun_run], rfl, rfl⟩

theorem State.beginRun_out (left : Option Nat) : (s.beginRun left).out = s.out := by
  rw [State.beginRun_eq, State.setRun_out, State.runShown, State.wr_out, State.wr_out]

theorem State.beginRun_fab (left : Option Nat) : (s.beginRun left).fab = s.fab := by
  rw [State.beginRun_eq, State.setRun_fab, State.runShown, State.wr_fab, State.wr_fab]

theorem State.beginRun_wakeLogic (left : Option Nat) (hp : s.power < 2) (ht : s.pwr.target = none) :
    (s.beginRun left).wakeLogic 1 = s.beginRun left := by
  have hpower : (s.beginRun left).power = s.power :=
    congrArg (fun w : Word => bits w.toNat _ _) (s.beginRun_stored left (a := Reg.PWR.STATE.STATE.addr) (by decide) (by decide))
  have hpwr : (s.beginRun left).pwr = s.pwr := by
    rw [State.beginRun_eq, State.setRun_pwr, State.runShown, State.wr_pwr, State.wr_pwr]
  rw [← hpower] at hp
  rw [← hpwr] at ht
  exact State.wakeLogic_awake _ hp ht 1

/-! ### Halting -/

theorem State.dropWait_idle (h : s.step.startWait = none) (status : Nat) : s.dropWait status = s := by
  unfold State.dropWait
  rw [h]
  dsimp only
  rw [← h]

/-- The engine keeps the STEP_HALT that waits for it, if one does. -/
def State.haltKept (s : State) (cmd : Option Nat) : State :=
  { s with step := { s.step with haltCmds := s.step.haltCmds ++ cmd.toList } }

/-- The halt that a step in progress ends with. -/
def State.haltWanted (s : State) (cmd : Option Nat) : State :=
  { s.haltKept cmd with step := { (s.haltKept cmd).step with haltReq := true } }

theorem State.haltKept_none : s.haltKept none = s := by
  unfold State.haltKept
  rw [Option.toList_none, List.append_nil]

variable {s} (hw : s.step.startWait = none) (cmd : Option Nat)
include hw

/-- A request to halt while no run waits for its closing SWITCH. -/
theorem State.requestHalt_eq :
    s.requestHalt cmd =
      if !s.stepping then cmd.elim (s.haltKept cmd) fun id =>
        ({ s with step := { s.step with haltCmds := (s.step.haltCmds ++ cmd.toList).filter (· ≠ id) } }).complete id stOk 0 []
      else if s.step.ret.isSome then s.haltKept cmd
      else if s.engine = seHung then (s.haltKept cmd).hangHalts
      else if s.rd Reg.STEP.CTRL.MODE = 3 then (s.haltWanted cmd).reelStop
      else if s.step.cur.isNone then (s.haltWanted cmd).stopEngine 1 seHalted
      else s.haltWanted cmd := by
  unfold State.requestHalt
  simp only [s.dropWait_idle hw]
  rfl

theorem State.requestHalt_unmoving (h : s.stepping = false) :
    s.requestHalt cmd = cmd.elim (s.haltKept cmd) fun id =>
      ({ s with step := { s.step with haltCmds := (s.step.haltCmds ++ cmd.toList).filter (· ≠ id) } }).complete id stOk 0 [] :=
  (State.requestHalt_eq hw cmd).trans (if_pos (by simp [h]))

theorem State.requestHalt_returning (h : s.engine = seRunning) (hret : s.step.ret.isSome = true) :
    s.requestHalt cmd = s.haltKept cmd :=
  (State.requestHalt_eq hw cmd).trans ((if_neg (by simp [State.stepping, h])).trans (if_pos hret))

theorem State.requestHalt_hung (h : s.engine = seHung) (hret : s.step.ret = none) :
    s.requestHalt cmd = (s.haltKept cmd).hangHalts :=
  (State.requestHalt_eq hw cmd).trans ((if_neg (by simp [State.stepping, h])).trans
    ((if_neg (by simp [hret])).trans (if_pos h)))

theorem State.requestHalt_running (h : s.engine = seRunning) (hret : s.step.ret = none) :
    s.requestHalt cmd =
      if s.rd Reg.STEP.CTRL.MODE = 3 then (s.haltWanted cmd).reelStop
      else if s.step.cur = none then (s.haltWanted cmd).stopEngine 1 seHalted else s.haltWanted cmd := by
  refine (State.requestHalt_eq hw cmd).trans ((if_neg (by simp [State.stepping, h])).trans
    ((if_neg (by simp [hret])).trans ((if_neg (by rw [h]; decide)).trans ?_)))
  simp only [Option.isNone_iff_eq_none]

end

end Sys2Proof.Machine
end

section
/-! The register run controls of the step engine (R83, R85): accesses that reach it, and what each of them does. -/

namespace Sys2Proof.Machine

/-- While Keeper's image runs, the registers of the step engine are reached whenever the endpoint is out of PERST_N; the access is a
wake source. -/
theorem State.access_step (s : State) {a : Nat} (f : State → State) (ha : 0x20000 ≤ a ∧ a < 0x90000) (hp : s.hif.perst = false)
    (hi : s.rdb Reg.DEV.BOOT.IMAGE = true) : s.access a f = (f s).wakeLogic 1 := by
  have hh : registerHome a = 0x10 := by
    unfold registerHome
    simp only [show ¬ (0x90000 ≤ a ∧ a < 0xA0000) by omega, show ¬ (0xA0000 ≤ a ∧ a < 0xB0000) by omega,
      show ¬ (0xC0000 ≤ a ∧ a < 0xD0000) by omega, show ¬ (0xE0000 ≤ a ∧ a < 0xE8000) by omega,
      show ¬ (0x120000 ≤ a ∧ a < 0x12F000) by omega, if_false]
  have hs : s.bar0Status a = hsOk := by simp [State.bar0Status, hh, hi]
  simp [State.access, hp, hs, hh]

theorem exec_stepCtrlRun (s : State) (dt : Nat) : exec (.stepCtrlRun dt) s = execStepCtrlRun dt s := rfl

theorem exec_stepSingleNstep (s : State) (dt n : Nat) : exec (.stepSingleNstep dt n) s = execStepSingleNstep dt n s := rfl

theorem exec_stepCtrlHalt (s : State) (dt : Nat) (also : Bool) :
    exec (.stepCtrlHalt dt also) s = execStepCtrlHalt dt also s := rfl

section
variable {s : State} {dt : Nat} (hr : s.inReset = false) (hp : s.hif.perst = false) (hi : s.rdb Reg.DEV.BOOT.IMAGE = true)
include hr hp hi

theorem exec_stepCtrlRun_reached {g : State → State} (h : (s.elapse dt).writeRun.wakeLogic 1 = g (s.elapse dt)) :
    exec (.stepCtrlRun dt) s = .next (s.after dt g) :=
  (exec_stepCtrlRun s dt).trans (State.event_eq hr dt _ _ (((s.elapse dt).access_step _ (by decide) hp hi).trans h))

theorem exec_stepSingleNstep_reached {n : Nat} {g : State → State}
    (h : ((s.elapse dt).writeNstep n).wakeLogic 1 = g (s.elapse dt)) :
    exec (.stepSingleNstep dt n) s = .next (s.after dt g) :=
  (exec_stepSingleNstep s dt n).trans (State.event_eq hr dt _ _ (((s.elapse dt).access_step _ (by decide) hp hi).trans h))

theorem exec_stepCtrlHalt_reached (also : Bool) {g : State → State}
    (h : (s.elapse dt).writeHalt.wakeLogic 1 = g (s.elapse dt)) :
    exec (.stepCtrlHalt dt also) s = .next (s.after dt g) :=
  (exec_stepCtrlHalt s dt also).trans (State.event_eq hr dt _ _ (((s.elapse dt).access_step _ (by decide) hp hi).trans h))

end

theorem State.writeNstep_zero (s : State) {n : Nat} (h : n % 2 ^ 32 = 0) : s.writeNstep n = s := if_pos h

theorem State.writeNstep_nonzero (s : State) {n : Nat} (h : n % 2 ^ 32 ≠ 0) :
    s.writeNstep n = s.registerRun false (some (n % 2 ^ 32)) := if_neg h

theorem State.after_engine (s : State) (dt : Nat) (f : State → State) : (s.after dt f).engine = (f (s.elapse dt)).engine := rfl
theorem State.after_step (s : State) (dt : Nat) (f : State → State) : (s.after dt f).step = (f (s.elapse dt)).step := rfl
theorem State.after_fab (s : State) (dt : Nat) (f : State → State) : (s.after dt f).fab = (f (s.elapse dt)).fab := rfl

/-- What an event that begins a run leaves. -/
theorem after_beginRun (s : State) (dt : Nat) (left : Option Nat) :
    let t := s.after dt fun u => u.beginRun left
    t.engine = seRunning ∧ t.rd Reg.STEP.SINGLE.LEFT = left.getD 0 % 2 ^ 32 ∧
      (∃ r, t.step.run = some r ∧ r.left = left ∧ r.tick = 0) ∧ t.out = s.out ∧ t.fab = s.fab ∧
      ∀ a, a ≠ Reg.STEP.STAT.STATE.addr → a ≠ Reg.STEP.SINGLE.LEFT.addr → t.stored a = s.stored a := by
  intro t
  refine ⟨?_, ?_, ?_, ?_, ?_, fun a h1 h2 => ?_⟩
  · rw [State.after_engine, State.beginRun_engine]
  · rw [State.after_rd, State.beginRun_left]
  · rw [State.after_step]
    exact (s.elapse dt).beginRun_run left
  · rw [State.after_out, State.beginRun_out, State.elapse_out]
  · rw [State.after_fab, State.beginRun_fab, State.elapse_fab]
  · rw [State.after_stored, State.beginRun_stored _ _ h1 h2, State.elapse_stored]

/-- A write that asks for a run begins one where nothing refuses it and nothing sleeps. -/
theorem State.registerRun_awake {s : State} {bad : Bool} (hb : bad = false) (hp : s.power = 0) (ht : s.pwr.target = none)
    (hc : s.step.closingOwed = false) (h : ∀ r ∈ s.runRefusals, r.1 = false) (left : Option Nat) :
    (s.registerRun bad left).wakeLogic 1 = s.beginRun left := by
  rw [s.registerRun_accepted hb h, s.startRun_awake (by rw [hp]; decide) hc,
    s.beginRun_wakeLogic _ (by rw [hp]; decide) ht]

/-! ### HALT -/

theorem State.writeHalt_running {s : State} (h : s.engine = seRunning) :
    s.writeHalt = (s.wr Reg.STEP.CTRL.HALT 1).requestHalt none := congrArg (State.requestHalt · none) (if_pos h)

theorem State.writeHalt_not_running {s : State} (h : s.engine ≠ seRunning) : s.writeHalt = s.requestHalt none :=
  congrArg (State.requestHalt · none) (if_neg h)

theorem State.wr_halt_engine (s : State) (v : Nat) : (s.wr Reg.STEP.CTRL.HALT v).engine = s.engine :=
  s.rd_wr_of_addr Reg.STEP.CTRL.HALT Reg.STEP.STAT.STATE v (by decide)

theorem State.wr_halt_mode (s : State) (v : Nat) :
    (s.wr Reg.STEP.CTRL.HALT v).rd Reg.STEP.CTRL.MODE = s.rd Reg.STEP.CTRL.MODE :=
  s.rd_wr_of_disjoint Reg.STEP.CTRL.HALT Reg.STEP.CTRL.MODE v (by decide) rfl (.inl (by decide))

/-- What a halt of the registers asks of a run that goes on. -/
def State.haltAsked (s : State) : State :=
  let v := s.wr Reg.STEP.CTRL.HALT 1
  { v with step := { v.step with haltReq := true } }

section
variable {s : State} (hw : s.step.startWait = none)
include hw

theorem State.writeHalt_unmoving (h : s.stepping = false) : s.writeHalt = s := by
  have hne : s.engine ≠ seRunning := fun he => by simp [State.stepping, he] at h
  rw [State.writeHalt_not_running hne, State.requestHalt_unmoving hw none h]
  exact s.haltKept_none

theorem State.writeHalt_returning (h : s.engine = seRunning) (hret : s.step.ret.isSome = true) :
    s.writeHalt = s.wr Reg.STEP.CTRL.HALT 1 := by
  have he : (s.wr Reg.STEP.CTRL.HALT 1).engine = seRunning := (s.wr_halt_engine 1).trans h
  have hw' : (s.wr Reg.STEP.CTRL.HALT 1).step.startWait = none := hw
  rw [State.writeHalt_running h, State.requestHalt_returning hw' none he hret, State.haltKept_none]

theorem State.writeHalt_run (h : s.engine = seRunning) (hret : s.step.ret = none) :
    s.writeHalt =
      if s.rd Reg.STEP.CTRL.MODE = 3 then s.haltAsked.reelStop
      else if s.step.cur = none then s.haltAsked.stopEngine 1 seHalted else s.haltAsked := by
  have hwant : (s.wr Reg.STEP.CTRL.HALT 1).haltWanted none = s.haltAsked := by
    unfold State.haltWanted
    rw [State.haltKept_none]
    rfl
  have he : (s.wr Reg.STEP.CTRL.HALT 1).engine = seRunning := (s.wr_halt_engine 1).trans h
  have hw' : (s.wr Reg.STEP.CTRL.HALT 1).step.startWait = none := hw
  rw [State.writeHalt_running h, State.requestHalt_running hw' none he hret, State.wr_halt_mode, hwant, State.wr_step]

theorem State.writeHalt_hung (h : s.engine = seHung) (hret : s.step.ret = none) : s.writeHalt = s.hangHalts := by
  rw [State.writeHalt_not_running (by rw [h]; decide), State.requestHalt_hung hw none h hret, State.haltKept_none]

end

/-- Settles O16, run controls and halts apart: a run by its refusals, a halt by what the engine does. -/
theorem registerControlsOfTheStepEngine : Obligations.RegisterControlsOfTheStepEngine := by
  refine ⟨fun s dt n hr hp hi => ⟨fun hbad => exec_stepCtrlRun_reached hr hp hi ?_,
    fun hbad hn => exec_stepSingleNstep_reached hr hp hi ?_, fun hn => exec_stepSingleNstep_reached hr hp hi ?_,
    fun hpow ht hc hok => ⟨fun hm => ?_, fun hn => ?_⟩⟩, ?_⟩
  · exact congrArg (State.wakeLogic · 1) (State.registerRun_refused _ (hbad.imp_left fun h => beq_iff_eq.mpr h) none)
  · exact congrArg (State.wakeLogic · 1)
      ((State.writeNstep_nonzero _ hn).trans (State.registerRun_refused _ (.inr hbad) _))
  · exact congrArg (State.wakeLogic · 1) (State.writeNstep_zero _ hn)
  · have hrun : (s.elapse dt).writeRun.wakeLogic 1 = (s.elapse dt).beginRun none :=
      State.registerRun_awake (s := s.elapse dt) (beq_false_of_ne hm) hpow ht hc hok none
    exact ⟨_, exec_stepCtrlRun_reached hr hp hi (g := fun u => u.beginRun none) hrun, after_beginRun s dt none⟩
  · have hrun : ((s.elapse dt).writeNstep n).wakeLogic 1 = (s.elapse dt).beginRun (some (n % 2 ^ 32)) := by
      rw [State.writeNstep_nonzero _ hn]
      exact State.registerRun_awake (s := s.elapse dt) rfl hpow ht hc hok _
    obtain ⟨he, hl, hleft⟩ := after_beginRun s dt (some (n % 2 ^ 32))
    exact ⟨_, exec_stepSingleNstep_reached hr hp hi (g := fun u => u.beginRun (some (n % 2 ^ 32))) hrun, he,
      hl.trans (Nat.mod_mod n _), hleft⟩
  · intro s dt also hr hp hi hw asked
    have hw' : (s.elapse dt).step.startWait = none := hw
    have hexec {g : State → State} (h : (s.elapse dt).writeHalt = g (s.elapse dt)) :
        exec (.stepCtrlHalt dt also) s = .next (s.after dt fun u => (g u).wakeLogic 1) :=
      exec_stepCtrlHalt_reached hr hp hi also (congrArg (State.wakeLogic · 1) h)
    exact ⟨fun h => hexec (State.writeHalt_unmoving hw' h), fun h hret => hexec (State.writeHalt_returning hw' h hret),
      fun h hret hm => hexec ((State.writeHalt_run hw' h hret).trans (if_neg hm)),
      fun h hret hm => hexec (g := fun u => u.haltAsked.reelStop) ((State.writeHalt_run hw' h hret).trans (if_pos hm)),
      fun h hret => hexec (State.writeHalt_hung hw' h hret)⟩

end Sys2Proof.Machine
end

section
/-! State images: what STATE_SAVE takes, what its completion leaves, and what STATE_RESTORE puts back. -/

namespace Sys2Proof.Machine

/-! ### The region of an image -/

/-- An allocation changes the region table only. -/
theorem State.allocRegion_frame (s : State) (base size : Nat) (o : RegionOwner) :
    ∃ g, s.allocRegion base size o = { s with g6 := g } := by
  unfold State.allocRegion
  split
  · exact ⟨_, rfl⟩
  · exact ⟨s.g6, rfl⟩

theorem State.allocRegion_image (s : State) (base size : Nat) (o : RegionOwner) :
    (s.allocRegion base size o).image = s.image := by
  obtain ⟨g, h⟩ := s.allocRegion_frame base size o
  rw [h]
  rfl

theorem State.begun_allocRefusal (s : State) (op : Nat) (h : CmdHdr) (ws : List Word) (base size : Nat) :
    (s.begun op h ws).allocRefusal base size = s.allocRefusal base size := by
  have hcap : (s.begun op h ws).g6Cap = s.g6Cap := s.begun_rd op h ws (by decide)
  have hmeets : (s.begun op h ws).regionMeets base size = s.regionMeets base size := by
    simp only [State.regionMeets, State.begun_g6]
  have hfree : (s.begun op h ws).freeRegion = s.freeRegion := by simp only [State.freeRegion, State.begun_g6]
  unfold State.allocRefusal
  rw [hcap, hmeets, hfree]

theorem State.elapse_allocRefusal (s : State) (dt base size : Nat) :
    (s.elapse dt).allocRefusal base size = s.allocRefusal base size := rfl

/-! ### STATE_SAVE -/

/-- The state in which an image is on its way to its region, and no image that the region meets is kept. -/
def State.imageSent (s : State) (id a : Nat) (img : Image) : State :=
  { s with g6 := { s.g6 with
    save := some (id, a, img)
    images := s.g6.images.filter fun g => !rangesMeet g.1 imageSize a imageSize } }

theorem stateSaveBody_ok {c : Cmd} (hf : c.fail = none) {u : State} (ha : c.w 0 % 4096 = 0) (he : u.engine = seHalted)
    (hs : u.g6.save = none) (hreg : u.stateRegion (c.w 0) = true ∨ u.allocRefusal (c.w 0) imageSize = none) :
    stateSaveBody c u =
      (if u.stateRegion (c.w 0) then u else u.allocRegion (c.w 0) imageSize .state).imageSent c.id (c.w 0) u.image := by
  have hrefusal : (if u.stateRegion (c.w 0) then none else u.allocRefusal (c.w 0) imageSize) = none := by
    rcases hreg with h | h <;> simp [h]
  have himage : (if u.stateRegion (c.w 0) then u else u.allocRegion (c.w 0) imageSize .state).image = u.image := by
    split
    · rfl
    · exact u.allocRegion_image _ _ _
  unfold stateSaveBody
  refine (State.checked_pass u c _ _ hf ?_).trans ?_
  · simp [ha, he, hs, hrefusal]
  · rw [← himage]
    rfl

/-! ### STATE_RESTORE -/

theorem stateRestoreBody_ok {c : Cmd} (hf : c.fail = none) {u : State} (he : u.engine = seHalted) {img : Image}
    (hfind : u.g6.images.find? (fun g => g.1 = c.w 0 ∧ g.2.digest = u.cfg.sha) = some (c.w 0, img))
    (hw : u.step.startWait = none) :
    stateRestoreBody c u =
      if (u.readImage (c.w 0)).2 then ((u.readImage (c.w 0)).1.loadImage img).ok c []
      else (u.readImage (c.w 0)).1.complete c.id stHwFault 0 [] := by
  unfold stateRestoreBody
  rw [hfind]
  refine State.checked_pass u c _ _ hf ?_
  simp [he, hw]

/-- The field of a card position (R100). -/
def cardPosF (x : Nat × Nat) : Field := ⟨Reg.STEP.CARDPOS.POS0.addr, 16 * x.2 + 11, 16 * x.2⟩

/-- An image loaded, but for the card positions. -/
def State.imageLoaded (s : State) (img : Image) : State :=
  (({ s with
    fab := { s.fab with ff := img.ff, landing := img.landing, mac := img.mac, bsel := img.bsel }
    step := { s.step with saved := none } } : State).wr Reg.STEP.COUNT.COUNT img.count).wr Reg.STEP.STAT.PENDING 0

theorem State.loadImage_eq (s : State) (img : Image) :
    s.loadImage img = (s.imageLoaded img).wrAll cardPosF Prod.fst img.pos.zipIdx := rfl

theorem State.loadImage_frame (s : State) (img : Image) :
    ∃ r, s.loadImage img = { s with
      regs := r
      fab := { s.fab with ff := img.ff, landing := img.landing, mac := img.mac, bsel := img.bsel }
      step := { s.step with saved := none } } := by
  obtain ⟨r, h⟩ := State.wrAll_frame cardPosF Prod.fst img.pos.zipIdx (s.imageLoaded img)
  exact ⟨r, (s.loadImage_eq img).trans h⟩

/-- The card positions share one register; the others read as before they are written. -/
theorem State.loadImage_rd (s : State) (img : Image) {f : Field} (hf : f.addr ≠ Reg.STEP.CARDPOS.POS0.addr) :
    (s.loadImage img).rd f = (s.imageLoaded img).rd f := by
  rw [State.loadImage_eq, State.rd, State.stored_wrAll_of_ne cardPosF Prod.fst (fun _ _ => hf)]
  rfl

/-- What an image that is loaded leaves (R111, R207). -/
theorem State.loadImage_leaves (s : State) (img : Image) :
    let t := s.loadImage img
    t.fab = { s.fab with ff := img.ff, landing := img.landing, mac := img.mac, bsel := img.bsel } ∧
    t.step = { s.step with saved := none } ∧ t.rd Reg.STEP.COUNT.COUNT = img.count % 2 ^ 64 ∧
    t.rd Reg.STEP.STAT.PENDING = 0 ∧ t.engine = s.engine ∧ t.attic = s.attic ∧ t.cfg = s.cfg ∧ t.g6 = s.g6 ∧ t.out = s.out ∧
    t.hif = s.hif := by
  intro t
  obtain ⟨r, ht⟩ : ∃ r, t = _ := s.loadImage_frame img
  have hcount : t.rd Reg.STEP.COUNT.COUNT = img.count % 2 ^ 64 := by
    refine (s.loadImage_rd img (by decide)).trans ((State.rd_wr_of_addr _ Reg.STEP.STAT.PENDING _ _ (by decide)).trans ?_)
    exact State.rd_wr_self _ Reg.STEP.COUNT.COUNT _ (by decide)
  have hpending : t.rd Reg.STEP.STAT.PENDING = 0 :=
    (s.loadImage_rd img (by decide)).trans (State.rd_wr_self _ Reg.STEP.STAT.PENDING 0 (by decide))
  have hengine : t.engine = s.engine := by
    refine (s.loadImage_rd img (f := Reg.STEP.STAT.STATE) (by decide)).trans
      ((State.rd_wr_of_apart _ 0 (f := Reg.STEP.STAT.PENDING) (by decide) (by decide)).trans ?_)
    exact State.rd_wr_of_addr _ Reg.STEP.COUNT.COUNT Reg.STEP.STAT.STATE _ (by decide)
  refine ⟨?_, ?_, hcount, hpending, hengine, ?_, ?_, ?_, ?_, ?_⟩ <;> rw [ht]

/-- STATE_RESTORE of an image that is kept reads it, and loads it where all of it is delivered. -/
theorem exec_stateRestore_accepted {s : State} {dt : Nat} {h : CmdHdr} {ws : List Word} {img : Image}
    (ha : s.accepts dt h (decide (ws.length = 1)) false false = true) (he : s.engine = seHalted)
    (hfind : s.g6.images.find? (fun g => g.1 = (ws.getD 0 0).toNat ∧ g.2.digest = s.cfg.sha) = some ((ws.getD 0 0).toNat, img))
    (hw : s.step.startWait = none) :
    exec (.stateRestore dt h ws) s = .next (s.afterCmd dt 0x0108 h ws fun c u =>
      if (u.readImage (ws.getD 0 0).toNat).2 then ((u.readImage (ws.getD 0 0).toNat).1.loadImage img).ok c []
      else (u.readImage (ws.getD 0 0).toNat).1.complete c.id stHwFault 0 []) := by
  refine exec_accepted rfl ha stateRestoreCmd rfl exactly_of_length rfl rfl _ fun c u hf hp _ hu => ?_
  subst hp
  refine stateRestoreBody_ok hf ?_ ?_ ?_
  · rw [hu, State.begun_engine]; exact he
  · rw [hu, State.begun_g6, State.begun_cfg]; exact hfind
  · rw [hu, State.begun_step]; exact hw

/-! ### The end of a STATE_SAVE -/

theorem exec_stateSaveComplete (s : State) (dt : Nat) : exec (.stateSaveComplete dt) s = execStateSaveComplete dt s := rfl

theorem State.saveImage_pending {s : State} {id a : Nat} {img : Image} (h : s.g6.save = some (id, a, img)) :
    s.saveImage =
      let r := ({ s with free := s.free + 1, g6 := { s.g6 with save := none } }).writeImage a s.free
      if r.2 = true then ({ r.1 with g6 := { r.1.g6 with images := r.1.g6.images ++ [(a, img)] } }).complete id stOk 0 []
      else r.1.complete id stHwFault 0 [] := by
  unfold State.saveImage
  rw [h]

/-- Settles O29: the images that the two commands and the completion take, keep and load. -/
theorem stateImagesSaveAndRestore : Obligations.StateImagesSaveAndRestore := by
  refine ⟨fun s dt h ws ha he => ⟨fun h4 hs hreg => ?_, fun img hfind hw => ?_⟩, State.loadImage_leaves, fun s dt id a img hr hs => ?_⟩
  · refine exec_accepted rfl ha stateSaveCmd rfl exactly_of_length rfl rfl _ fun c u hf hp _ hu => ?_
    have hg6 : u.g6 = s.g6 := by rw [hu, State.begun_g6, State.elapse_g6]
    have hregion : u.stateRegion (c.w 0) = s.stateRegion (c.w 0) := by simp only [State.stateRegion, hg6]
    have hrefusal : u.allocRefusal (c.w 0) imageSize = s.allocRefusal (c.w 0) imageSize := by
      rw [hu, State.begun_allocRefusal, State.elapse_allocRefusal]
    subst hp
    refine (stateSaveBody_ok hf h4 ((congrArg State.engine hu).trans ((State.begun_engine _ _ _ _).trans he))
      ((congrArg G6.save hg6).trans hs) (hregion ▸ hrefusal ▸ hreg)).trans ?_
    rw [hregion]
    rfl
  · rw [exec_stateRestore_accepted ha he hfind hw]
    exact ⟨fun hr => congrArg _ (State.after_congr (if_pos hr)),
      fun hr => congrArg _ (State.after_congr (if_neg (Bool.eq_false_iff.mp hr)))⟩
  · exact (exec_stateSaveComplete s dt).trans (State.event_eq hr dt _ _ (State.saveImage_pending (s := s.elapse dt) hs))

end Sys2Proof.Machine
end

section
/-! STEP_CONFIGURE: what it leaves of the ledger, of its registers and of the rest (R93, R111). -/

namespace Sys2Proof.Machine

theorem fieldOf_lt (w : Word) (hi lo : Nat) : fieldOf w hi lo < 2 ^ (hi + 1 - lo) := Nat.mod_lt _ (by positivity)

/-! ### The demand -/

theorem State.holds_setHeld (s : State) (h n : Nat) : (s.setHeld h n).holds h = n := Cells.get_set_self _ _ _ _

/-- A demand that the ledger grants, in full or in part, as the registers show it (R93). -/
def State.demandGranted (s : State) (d room : Nat) : State :=
  ((s.setHeld 0x0A (min d room)).wr Reg.STEP.BUDGET.DEMAND (min d 2047)).wr Reg.STEP.BUDGET.GRANT
    (if d ≤ room then min d 2047 else room)

theorem State.requestDemand_granted (s : State) (d : Nat) (full : Bool)
    (h : d ≤ s.holds 0x0A + s.freeBu ∨ (full = false ∧ s.holds 0x0A + s.freeBu ≠ 0)) :
    s.requestDemand d full = some (s.demandGranted d (s.holds 0x0A + s.freeBu)) := by
  unfold State.requestDemand State.demandGranted
  by_cases hd : d ≤ s.holds 0x0A + s.freeBu
  · simp only [if_pos hd, Nat.min_eq_left hd]
  · obtain ⟨hf, hne⟩ := h.resolve_left hd
    have hroom : ¬ ((full || s.holds 0x0A + s.freeBu == 0) = true) := by
      rw [hf, beq_false_of_ne hne]
      decide
    simp only [if_neg hd, if_neg hroom, Nat.min_eq_right (Nat.le_of_lt (Nat.not_le.mp hd))]

theorem State.demandGranted_frame (s : State) (d room : Nat) :
    ∃ r, s.demandGranted d room = { s.setHeld 0x0A (min d room) with regs := r } := by
  unfold State.demandGranted State.wr State.store
  exact ⟨_, rfl⟩

theorem State.demandGranted_grant (s : State) (d room : Nat) :
    (s.demandGranted d room).rd Reg.STEP.BUDGET.GRANT = if d ≤ room then min d 2047 else room % 2048 := by
  refine (State.rd_wr_self _ Reg.STEP.BUDGET.GRANT _ (by decide)).trans ?_
  change (if d ≤ room then min d 2047 else room) % 2048 = _
  split
  · exact Nat.mod_eq_of_lt (by omega)
  · rfl

theorem State.demandGranted_demand (s : State) (d room : Nat) :
    (s.demandGranted d room).rd Reg.STEP.BUDGET.DEMAND = min d 2047 := by
  refine (State.rd_wr_of_apart _ _ (f := Reg.STEP.BUDGET.GRANT) (by decide) (by decide)).trans
    ((State.rd_wr_self _ Reg.STEP.BUDGET.DEMAND _ (by decide)).trans ?_)
  change min d 2047 % 2048 = _
  exact Nat.mod_eq_of_lt (by omega)

/-! ### Cues and the reel -/

/-- `t` is `s` but for the time unit, and for registers that lie above those of the step engine. -/
def TimeOnly (s t : State) : Prop :=
  (∃ r x, t = { s with regs := r, time := x }) ∧ ∀ a < 0x40000, t.stored a = s.stored a

theorem TimeOnly.refl (s : State) : TimeOnly s s := ⟨⟨s.regs, s.time, rfl⟩, fun _ _ => rfl⟩

theorem TimeOnly.trans {s t u : State} (h1 : TimeOnly s t) (h2 : TimeOnly t u) : TimeOnly s u := by
  obtain ⟨⟨r, x, rfl⟩, e1⟩ := h1
  obtain ⟨⟨r', x', rfl⟩, e2⟩ := h2
  exact ⟨⟨r', x', rfl⟩, fun a ha => (e2 a ha).trans (e1 a ha)⟩

theorem TimeOnly.rd {s t : State} (h : TimeOnly s t) {f : Field} (hf : f.addr < 0x40000) : t.rd f = s.rd f := by
  simp only [State.rd, h.2 _ hf]

theorem State.timeOnly_store (s : State) {a : Nat} (w : Word) (ha : 0x40000 ≤ a) : TimeOnly s (s.store a w) :=
  ⟨⟨_, s.time, rfl⟩, fun b hb => s.stored_store_of_ne w (by omega)⟩

theorem State.timeOnly_wr (s : State) (f : Field) (v : Nat) (hf : 0x40000 ≤ f.addr) : TimeOnly s (s.wr f v) :=
  s.timeOnly_store _ hf

theorem State.timeOnly_time (s : State) (x : TimeU) : TimeOnly s { s with time := x } := ⟨⟨s.regs, x, rfl⟩, fun _ _ => rfl⟩

theorem State.timeOnly_claimCue (s : State) (k f : Nat) : TimeOnly s (s.claimCue k f) :=
  s.timeOnly_wr _ _ (by simp only [Reg.TIME.CUE.THI.FUNC]; omega)

theorem State.timeOnly_releaseCue (s : State) (k : Nat) : TimeOnly s (s.releaseCue k) :=
  ((s.timeOnly_wr _ _ (by simp only [Reg.TIME.CUE.THI.FUNC]; omega)).trans
    (State.timeOnly_wr _ _ _ (by simp only [Reg.TIME.CUE.THI.ARMED]; omega))).trans
    (State.timeOnly_wr _ _ _ (by simp only [Reg.TIME.CUE.THI.PERIODIC]; omega))

/-- A reel that is joined is left with its cue (R446). -/
def State.reelLeft (s : State) : State :=
  if s.rd Reg.STEP.CTRL.MODE = 3 then
    { (s.releaseCue (s.rd Reg.TIME.REEL.CUE)).store Reg.TIME.REEL.REELID.addr 0 with time := { s.time with reel := none } }
  else s

/-- The start cue moves: the old one is released and the new one claimed (R80, R440). -/
def State.startCueMoved (s : State) (cueStart : Bool) (cue : Nat) : State :=
  let old := s.rd Reg.STEP.PACE.CUE
  let t := if s.rdb Reg.STEP.PACE.CUESTART && s.cueFunc old == fnStep && !(cueStart && old == cue) then s.releaseCue old else s
  if cueStart then t.claimCue cue fnStep else t

theorem State.timeOnly_reelLeft (s : State) : TimeOnly s s.reelLeft := by
  unfold State.reelLeft
  split
  · exact ((s.timeOnly_releaseCue _).trans (State.timeOnly_store _ 0 (by decide))).trans (State.timeOnly_time _ _)
  · exact TimeOnly.refl s

theorem State.timeOnly_startCueMoved (s : State) (cueStart : Bool) (cue : Nat) : TimeOnly s (s.startCueMoved cueStart cue) := by
  have hold : TimeOnly s (if s.rdb Reg.STEP.PACE.CUESTART && s.cueFunc (s.rd Reg.STEP.PACE.CUE) == fnStep &&
      !(cueStart && s.rd Reg.STEP.PACE.CUE == cue) then s.releaseCue (s.rd Reg.STEP.PACE.CUE) else s) := by
    split
    · exact s.timeOnly_releaseCue _
    · exact TimeOnly.refl s
  unfold State.startCueMoved
  dsimp only
  split
  · exact hold.trans (State.timeOnly_claimCue _ _ _)
  · exact hold

/-! ### The registers of the pace -/

/-- What a STEP_CONFIGURE asks for (R111). -/
structure StepConfig where
  mode : Nat
  period : Nat
  cue : Nat
  strict : Bool
  slip : Bool
  cueStart : Bool

/-- The operands of a STEP_CONFIGURE (R111). -/
def Cmd.stepConfig (c : Cmd) : StepConfig :=
  { mode := c.f 0 1 0, period := c.f 1 19 0, cue := c.f 0 11 8, strict := c.b 0 4, slip := c.b 0 5, cueStart := c.b 0 6 }

/-- The fields of the mode and the pace. -/
abbrev paceFields : List Field :=
  [Reg.STEP.CTRL.MODE, Reg.STEP.PACE.PERIOD, Reg.STEP.PACE.SLIP, Reg.STEP.PACE.CUESTART, Reg.STEP.PACE.CUE]

/-- The fields of the mode and the pace with the values that STEP_CONFIGURE writes to them. -/
abbrev StepConfig.pace (k : StepConfig) : List (Field × Nat) :=
  [(Reg.STEP.CTRL.MODE, k.mode), (Reg.STEP.PACE.PERIOD, k.period), (Reg.STEP.PACE.SLIP, b2n k.slip),
    (Reg.STEP.PACE.CUESTART, b2n k.cueStart), (Reg.STEP.PACE.CUE, k.cue)]

/-- The fields that show the pacing in force (R112). -/
abbrev pacingFields : List Field :=
  [Reg.STEP.PACING.MININT, Reg.PWR.PORCHTEMP.LEVEL, Reg.STEP.PACING.BUDGET, Reg.STEP.PACING.THERMAL, Reg.STEP.STAT.BPACED,
    Reg.STEP.STAT.THROTTLED]

/-- The values that a state gives them (R79, R94). -/
def State.pacingValues (s : State) : List Nat :=
  [min (ceilDiv s.minFs fsTick) (2 ^ 24 - 1), s.thermalLevel, b2n (s.budgetFs != 0 && s.budgetFs == s.minFs),
    b2n (s.thermalFs != 0 && s.thermalFs == s.minFs), b2n (s.budgetFs != 0), b2n (s.thermalFs != 0)]

theorem paceFields_valid : ∀ f ∈ paceFields, f.valid := by decide

theorem pacingFields_valid : ∀ f ∈ pacingFields, f.valid := by decide

theorem paceFields_apart_pacing : ∀ f ∈ paceFields, ∀ g ∈ pacingFields, g.apart f := by decide

theorem StepConfig.pace_field {k : StepConfig} {x : Field × Nat} (hx : x ∈ k.pace) : x.1 ∈ paceFields :=
  List.mem_map_of_mem (f := Prod.fst) hx

theorem StepConfig.pace_apart (k : StepConfig) : k.pace.Pairwise fun x y => y.1.apart x.1 :=
  List.Pairwise.of_map (S := fun f g : Field => g.apart f) Prod.fst (fun _ _ h => h)
    (show paceFields.Pairwise fun f g => g.apart f by decide)

theorem State.pacingSync_eq (s : State) : s.pacingSync = s.wrAll Prod.fst Prod.snd (pacingFields.zip s.pacingValues) := by
  simp only [State.pacingSync, State.wrb, State.wrAll, pacingFields, State.pacingValues, List.zip_cons_cons, List.zip_nil_left,
    List.foldl_cons, List.foldl_nil]

theorem State.pacingSync_frame (s : State) : ∃ r, s.pacingSync = { s with regs := r } := by
  rw [State.pacingSync_eq]
  exact State.wrAll_frame Prod.fst Prod.snd (pacingFields.zip s.pacingValues) s

theorem State.pacingSync_rd (s : State) {f : Field} (hf : ∀ g ∈ pacingFields, g.apart f) : s.pacingSync.rd f = s.rd f := by
  rw [State.pacingSync_eq]
  exact State.rd_wrAll_of_apart Prod.fst Prod.snd (fun _ hx => pacingFields_valid _ (List.of_mem_zip hx).1)
    (fun _ hx => hf _ (List.of_mem_zip hx).1) s

/-! ### What is configured -/

/-- Whether grants must be in full. -/
def State.setStrict (s : State) (strict : Bool) : State := { s with step := { s.step with strict := strict } }

theorem State.setStrict_rd (s : State) (strict : Bool) (f : Field) : (s.setStrict strict).rd f = s.rd f := rfl

/-- The state that a STEP_CONFIGURE leaves whose demand is `d` where the ledger has `room`, but for its reply. -/
def State.configured (s : State) (d room : Nat) (k : StepConfig) : State :=
  ((((s.demandGranted d room).reelLeft.startCueMoved k.cueStart k.cue).wrAll Prod.fst Prod.snd k.pace).setStrict
    k.strict).pacingSync

/-- A STEP_CONFIGURE replies with the grant and the demand that it leaves. -/
def State.configReply (t : State) (c : Cmd) : State :=
  t.answer c stOk (t.rd Reg.STEP.BUDGET.GRANT + t.rd Reg.STEP.BUDGET.DEMAND * 2 ^ 16) []

/-- What a STEP_CONFIGURE asks for that nothing refuses (R93, R111). -/
structure StepConfig.Allowed (k : StepConfig) (s : State) : Prop where
  mode : k.mode ≠ 3
  period : k.mode = 1 → 20 ≤ k.period ∧ maxList (s.promises s.ctxMode s.ctxsInUse) ≤ k.period
  halted : s.engine = seHalted
  free : s.engineBusy = false
  cue : k.cueStart = true → s.cueFree k.cue fnStep = true
  room : s.demandOf k.mode s.ctxMode k.period s.ctxsInUse ≤ s.holds 0x0A + s.freeBu ∨
    (k.strict = false ∧ s.holds 0x0A + s.freeBu ≠ 0)

theorem stepConfigureBody_ok {c : Cmd} (hf : c.fail = none) (u : State)
    (hb0 : onlyBits c.payload 0 [(1, 0), (4, 4), (5, 5), (6, 6), (11, 8)] = true) (hb1 : onlyBits c.payload 1 [(19, 0)] = true)
    (h : c.stepConfig.Allowed u) :
    stepConfigureBody c u =
      (u.configured (u.demandOf (c.f 0 1 0) u.ctxMode (c.f 1 19 0) u.ctxsInUse) (u.holds 0x0A + u.freeBu)
        c.stepConfig).configReply c := by
  obtain ⟨hmode, hperiod, he, hbusy, hcue, hroom⟩ := h
  simp only [Cmd.stepConfig] at hmode hperiod hcue hroom
  have hgrant := u.requestDemand_granted _ (c.b 0 4) hroom
  have hreserved := Cmd.reserved_two (c := c) rfl hb0 hb1
  have hpace : (c.f 0 1 0 == 1 && (decide (c.f 1 19 0 < 20) ||
      decide (c.f 1 19 0 < maxList (u.promises u.ctxMode u.ctxsInUse)))) = false := by
    by_cases h1 : c.f 0 1 0 = 1
    · obtain ⟨h20, hp⟩ := hperiod h1
      simp [Nat.not_lt.mpr h20, Nat.not_lt.mpr hp]
    · simp [h1]
  have htaken : (c.b 0 6 && !u.cueFree (c.f 0 11 8) fnStep) = false := by
    cases h : c.b 0 6
    · rfl
    · simp [hcue h]
  unfold stepConfigureBody
  refine (State.checked_pass u c _ _ hf ?_).trans ?_
  · simp [hreserved, hmode, hpace, he, hbusy, htaken, hgrant]
  · simp only [hgrant, Option.getD_some]
    rfl

section
variable (s : State) (d room : Nat) (k : StepConfig)

theorem State.configured_frame :
    ∃ r x, s.configured d room k = { (s.setHeld 0x0A (min d room)).setStrict k.strict with regs := r, time := x } := by
  unfold State.configured
  obtain ⟨r0, h0⟩ := s.demandGranted_frame d room
  obtain ⟨⟨r, x, h⟩, _⟩ :=
    ((s.demandGranted d room).timeOnly_reelLeft).trans (State.timeOnly_startCueMoved _ k.cueStart k.cue)
  rw [h, h0]
  obtain ⟨r', h'⟩ := State.wrAll_frame Prod.fst Prod.snd k.pace { s.setHeld 0x0A (min d room) with regs := r, time := x }
  rw [h']
  obtain ⟨r'', h''⟩ := State.pacingSync_frame
    { (s.setHeld 0x0A (min d room)).setStrict k.strict with regs := r', time := x }
  exact ⟨r'', x, h''⟩

/-- A field of the mode or the pace reads as STEP_CONFIGURE sets it. -/
theorem State.configured_pace {x : Field × Nat} (hx : x ∈ k.pace) :
    (s.configured d room k).rd x.1 = x.2 % 2 ^ (x.1.hi + 1 - x.1.lo) := by
  rw [State.configured, State.pacingSync_rd _ (paceFields_apart_pacing _ (StepConfig.pace_field hx)), State.setStrict_rd]
  exact State.rd_wrAll_of_mem Prod.fst Prod.snd (fun y hy => paceFields_valid _ (StepConfig.pace_field hy)) k.pace_apart hx _

/-- Other fields of the step engine read as once the demand is granted, but those that show the pacing. -/
theorem State.configured_rd {f : Field} (hf : f.addr < 0x40000) (hpace : ∀ g ∈ paceFields, g.apart f)
    (hpacing : ∀ g ∈ pacingFields, g.apart f) : (s.configured d room k).rd f = (s.demandGranted d room).rd f := by
  rw [State.configured, State.pacingSync_rd _ hpacing, State.setStrict_rd, State.rd_wrAll_of_apart Prod.fst Prod.snd
    (fun y hy => paceFields_valid _ (StepConfig.pace_field hy)) (fun y hy => hpace _ (StepConfig.pace_field hy)),
    (State.timeOnly_startCueMoved _ k.cueStart k.cue).rd hf, (State.timeOnly_reelLeft _).rd hf]

end

theorem rdb_of_rd {s : State} {f : Field} {b : Bool} (h : s.rd f = b2n b % 2) : s.rdb f = b := by
  rw [State.rdb, h]
  cases b <;> rfl

/-- `t` is as STEP_CONFIGURE leaves `s` whose demand is `d` where the ledger has `room` (R93, R111). -/
structure Configured (s : State) (d room : Nat) (k : StepConfig) (t : State) : Prop where
  holds : t.holds 0x0A = min d room
  grant : t.rd Reg.STEP.BUDGET.GRANT = if d ≤ room then min d 2047 else room % 2048
  mode : t.rd Reg.STEP.CTRL.MODE = k.mode
  period : t.rd Reg.STEP.PACE.PERIOD = k.period
  slip : t.rdb Reg.STEP.PACE.SLIP = k.slip
  cueStart : t.rdb Reg.STEP.PACE.CUESTART = k.cueStart
  cue : t.rd Reg.STEP.PACE.CUE = k.cue
  strict : t.step.strict = k.strict
  engine : t.engine = s.engine
  demand : t.rd Reg.STEP.BUDGET.DEMAND = min d 2047
  fab : t.fab = s.fab
  cfg : t.cfg = s.cfg
  g6 : t.g6 = s.g6
  noc : t.noc = s.noc

theorem State.configured_spec (s : State) (d room : Nat) {k : StepConfig} (hmode : k.mode < 4) (hperiod : k.period < 2 ^ 20)
    (hcue : k.cue < 16) : Configured s d room k (s.configured d room k) := by
  have hpace {x : Field × Nat} (hx : x ∈ k.pace) := s.configured_pace d room k hx
  have hgranted {f : Field} (h0 : f.addr < 0x40000) (h1 : ∀ g ∈ paceFields, g.apart f) (h2 : ∀ g ∈ pacingFields, g.apart f) :=
    s.configured_rd d room k h0 h1 h2
  have hengine : (s.demandGranted d room).engine = s.engine :=
    (State.rd_wr_of_addr _ Reg.STEP.BUDGET.GRANT Reg.STEP.STAT.STATE _ (by decide)).trans
      (State.rd_wr_of_addr _ Reg.STEP.BUDGET.DEMAND Reg.STEP.STAT.STATE _ (by decide))
  obtain ⟨r, x, ht⟩ := s.configured_frame d room k
  exact {
    holds := by rw [ht]; exact s.holds_setHeld 0x0A (min d room)
    grant := (hgranted (by decide) (by decide) (by decide)).trans (s.demandGranted_grant d room)
    mode := (hpace (x := (Reg.STEP.CTRL.MODE, k.mode)) (by simp)).trans (Nat.mod_eq_of_lt hmode)
    period := (hpace (x := (Reg.STEP.PACE.PERIOD, k.period)) (by simp)).trans (Nat.mod_eq_of_lt hperiod)
    slip := rdb_of_rd (hpace (x := (Reg.STEP.PACE.SLIP, b2n k.slip)) (by simp))
    cueStart := rdb_of_rd (hpace (x := (Reg.STEP.PACE.CUESTART, b2n k.cueStart)) (by simp))
    cue := (hpace (x := (Reg.STEP.PACE.CUE, k.cue)) (by simp)).trans (Nat.mod_eq_of_lt hcue)
    strict := by rw [ht]; rfl
    engine := (hgranted (f := Reg.STEP.STAT.STATE) (by decide) (by decide) (by decide)).trans hengine
    demand := (hgranted (by decide) (by decide) (by decide)).trans (s.demandGranted_demand d room)
    fab := by rw [ht]; rfl
    cfg := by rw [ht]; rfl
    g6 := by rw [ht]; rfl
    noc := by rw [ht]; rfl }

/-- The reply changes nothing of it. -/
theorem Configured.hostOnly {s t u : State} {d room : Nat} {k : StepConfig} (h : Configured s d room k t) (hu : HostOnly t u) :
    Configured s d room k u := by
  have hrd (f : Field) (hf : 0x20000 ≤ f.addr) : u.rd f = t.rd f := hu.rd (.inr hf)
  have hrdb (f : Field) (hf : 0x20000 ≤ f.addr) : u.rdb f = t.rdb f := hu.rdb (.inr hf)
  exact {
    holds := (congrArg (fun l : Ledger => l.held.at 0 0x0A) hu.ledger).trans h.holds
    grant := (hrd _ (by decide)).trans h.grant
    mode := (hrd _ (by decide)).trans h.mode
    period := (hrd _ (by decide)).trans h.period
    slip := (hrdb _ (by decide)).trans h.slip
    cueStart := (hrdb _ (by decide)).trans h.cueStart
    cue := (hrd _ (by decide)).trans h.cue
    strict := (congrArg _ hu.step).trans h.strict
    engine := (hrd _ (by decide)).trans h.engine
    demand := (hrd _ (by decide)).trans h.demand
    fab := hu.fab.trans h.fab
    cfg := hu.cfg.trans h.cfg
    g6 := hu.g6.trans h.g6
    noc := hu.noc.trans h.noc }

/-- That a command starts changes nothing of it either. -/
theorem Configured.of_begun {s t : State} {op d room : Nat} {hdr : CmdHdr} {ws : List Word} {k : StepConfig}
    (h : Configured (s.begun op hdr ws) d room k t) : Configured s d room k t :=
  { h with
    engine := h.engine.trans (State.begun_engine _ _ _ _)
    fab := h.fab.trans (State.begun_fab _ _ _ _)
    cfg := h.cfg.trans (State.begun_cfg _ _ _ _)
    g6 := h.g6.trans (State.begun_g6 _ _ _ _)
    noc := h.noc.trans (State.begun_noc _ _ _ _) }

/-- Nor does the time that passes before it. -/
theorem Configured.after {s : State} {dt d room : Nat} {k : StepConfig} {f : State → State}
    (h : Configured (s.elapse dt) d room k (f (s.elapse dt))) : Configured s d room k (s.after dt f) :=
  ⟨h.holds, h.grant, h.mode, h.period, h.slip, h.cueStart, h.cue, h.strict, h.engine, h.demand, h.fab, h.cfg, h.g6, h.noc⟩

end Sys2Proof.Machine
end

section
/-! CARD_LOAD, STEP_RUN, STEP_SINGLE and STEP_HALT: their meanings where nothing refuses them. -/

namespace Sys2Proof.Machine

/-! ### CARD_LOAD -/

theorem cardLoadLen_of_length {ws : List Word}
    (h : decide (ws.length = 1 + (fieldOf (ws.getD 0 0) 44 32 + 1) / 2) = true) : cardLoadLen ws = true := by
  cases ws with
  | nil =>
    have hl := of_decide_eq_true h
    simp only [List.length_nil] at hl
    omega
  | cons w ws =>
    have hl := of_decide_eq_true h
    simp only [List.length_cons, List.getD_cons_zero] at hl
    simp only [cardLoadLen, beq_iff_eq]
    omega

/-- A range of the card that meets no other segment, or is the whole of one (R102). -/
theorem cardRange_free {u : State} {seg base len : Nat}
    (h : ∀ k < 4, k ≠ seg → rangesMeet base len (u.rd (Reg.STEP.CARDSEG.BASE k)) (u.rd (Reg.STEP.CARDSEG.LEN k)) = false ∨
      (u.rd (Reg.STEP.CARDSEG.BASE k) = base ∧ u.rd (Reg.STEP.CARDSEG.LEN k) = len)) :
    ([0, 1, 2, 3].any fun k => k != seg &&
      (rangesMeet base len (u.rd (Reg.STEP.CARDSEG.BASE k)) (u.rd (Reg.STEP.CARDSEG.LEN k)) &&
        !(u.rd (Reg.STEP.CARDSEG.BASE k) == base && u.rd (Reg.STEP.CARDSEG.LEN k) == len))) = false := by
  refine List.any_eq_false.mpr fun k hk => ?_
  have hk4 : k < 4 := by simp only [List.mem_cons, List.not_mem_nil, or_false] at hk; omega
  by_cases hseg : k = seg
  · simp [hseg]
  · rcases h k hk4 hseg with hm | ⟨hb, hl⟩
    · simp [hm]
    · simp [hb, hl]

theorem cardLoadBody_ok {c : Cmd} (hf : c.fail = none) {u : State}
    (hb : onlyBits c.payload 0 [(1, 0), (27, 16), (44, 32)] = true) (hes : ∀ e ∈ c.cardWords, e < 2 ^ 17)
    (hspare : c.f 0 44 32 % 2 = 1 → bits (c.w ((c.f 0 44 32 + 1) / 2)) 63 32 = 0) (hend : c.f 0 27 16 + c.f 0 44 32 ≤ 4096)
    (hfree : ([0, 1, 2, 3].any fun k => k != c.f 0 1 0 &&
      (rangesMeet (c.f 0 27 16) (c.f 0 44 32) (u.rd (Reg.STEP.CARDSEG.BASE k)) (u.rd (Reg.STEP.CARDSEG.LEN k)) &&
        !(u.rd (Reg.STEP.CARDSEG.BASE k) == c.f 0 27 16 && u.rd (Reg.STEP.CARDSEG.LEN k) == c.f 0 44 32))) = false)
    (he : u.engine = seHalted ∨ u.engine = seUnconfigured) (hw : u.step.startWait = none) :
    cardLoadBody c u = (u.loadCard (c.f 0 1 0) (c.f 0 27 16) c.cardWords).ok c [] := by
  have hbits : badBits (c.w 0) [(1, 0), (27, 16), (44, 32)] = false := (onlyBits_iff _ _ _).mp hb
  have hwide : (c.cardWords.any fun e => decide (2 ^ 17 ≤ e)) = false :=
    List.any_eq_false.mpr fun e h => by simpa using hes e h
  have hspare' : (c.f 0 44 32 % 2 == 1 && bits (c.w ((c.f 0 44 32 + 1) / 2)) 63 32 != 0) = false := by
    by_cases h : c.f 0 44 32 % 2 = 1
    · simp [hspare h]
    · simp [h]
  have hengine : (decide (u.engine ≠ seHalted) && decide (u.engine ≠ seUnconfigured)) = false := by
    rcases he with h | h <;> simp [h]
  unfold cardLoadBody
  refine State.checked_pass u c _ _ hf ?_
  simp only [List.mem_cons, List.not_mem_nil, or_false, forall_eq_or_imp, forall_eq, hbits, hwide, hspare', hfree, hengine, hw,
    Option.isSome_none, Bool.or_false, Bool.false_or, and_true, decide_eq_false_iff_not, Nat.not_lt]
  exact hend

/-! ### STEP_RUN and STEP_SINGLE -/

/-- What a run that a command starts leaves: out of HOLD, and after the closing SWITCH where one is owed (R124, R567). -/
def State.runStarted (s : State) (id : Nat) (left : Option Nat) : State :=
  let t := s.leaveHold
  if t.step.closingOwed = true then
    (({ t with step := { t.step with startWait := some (some id, left) } }).startRefills t.nextCtx 3).resumeStart
  else (t.beginRun left).complete id stOk 0 []

theorem State.startRun_some (s : State) (id : Nat) (left : Option Nat) : s.startRun (some id) left = s.runStarted id left := rfl

section
variable {c : Cmd} (hf : c.fail = none) {u : State} (h : ∀ r ∈ u.runRefusals, r.1 = false)
include hf h

theorem stepRunBody_ok (hm : u.rd Reg.STEP.CTRL.MODE ≠ 2) : stepRunBody c u = u.runStarted c.id none := by
  refine (State.checked_pass u c _ _ hf ?_).trans (u.startRun_some c.id none)
  exact List.forall_mem_cons.mpr ⟨decide_eq_false hm, h⟩

theorem stepSingleBody_ok (hb : onlyBits c.payload 0 [(31, 0)] = true) (hn : c.f 0 31 0 ≠ 0) :
    stepSingleBody c u = u.runStarted c.id (some (c.f 0 31 0)) := by
  have hbits : badBits (c.w 0) [(31, 0)] = false := (onlyBits_iff _ _ _).mp hb
  unfold stepSingleBody
  refine (State.checked_pass u c _ _ hf ?_).trans (u.startRun_some c.id _)
  exact List.forall_mem_cons.mpr ⟨by simp [hbits, hn], h⟩

end

/-! ### STEP_HALT -/

theorem stepHaltBody_ok {c : Cmd} (hf : c.fail = none) (u : State) : stepHaltBody c u = u.requestHalt (some c.id) :=
  State.checked_pass u c [] _ hf (fun _ hr => nomatch hr)

/-- STEP_HALT requests a halt, and has the effect of that request. -/
theorem exec_stepHalt_accepted {s : State} {dt : Nat} {h : CmdHdr} {ws : List Word}
    (ha : s.accepts dt h (decide (ws.length = 0)) false false = true) (effect : Cmd → State → State)
    (he : ∀ (c : Cmd) (u : State), c = (s.elapse dt).cmdOf 0x0104 h ws → u = (s.elapse dt).begun 0x0104 h ws →
      u.requestHalt (some c.id) = effect c u) :
    exec (.stepHalt dt h ws) s = .next (s.afterCmd dt 0x0104 h ws effect) :=
  exec_accepted rfl ha stepHaltCmd rfl exactly_of_length rfl rfl _ fun c u hf _ hc hu =>
    (stepHaltBody_ok hf u).trans (he c u hc hu)

/-- Where the engine does not run, a STEP_HALT replies at once (R83). -/
theorem State.requestHalt_replies {s : State} (hw : s.step.startWait = none) (h : s.stepping = false) {c : Cmd}
    (hc : s.running c.id = some c) (hid : c.id ∉ s.step.haltCmds) : s.requestHalt (some c.id) = s.ok c [] := by
  have hfilter : (s.step.haltCmds ++ (some c.id).toList).filter (· ≠ c.id) = s.step.haltCmds := by
    rw [List.filter_append, List.filter_eq_self.mpr fun x hx => decide_eq_true (ne_of_mem_of_not_mem hx hid)]
    simp
  rw [State.requestHalt_unmoving hw _ h, Option.elim_some, hfilter]
  unfold State.complete
  simp only [hc]
  rfl

section
variable {s : State} {dt : Nat} {h : CmdHdr} {ws : List Word}

/-- A STEP_HALT by what the engine does. -/
theorem exec_stepHalt_cases (hw : s.step.startWait = none)
    (ha : s.accepts dt h (decide (ws.length = 0)) false false = true) :
    (s.freshId → s.stepping = false →
      exec (.stepHalt dt h ws) s = .next (s.afterCmd dt 0x0104 h ws fun c u => u.ok c [])) ∧
    (s.engine = seRunning → s.step.ret.isSome = true →
      exec (.stepHalt dt h ws) s = .next (s.afterCmd dt 0x0104 h ws fun c u => u.haltKept (some c.id))) ∧
    (s.engine = seRunning → s.step.ret = none →
      exec (.stepHalt dt h ws) s = .next (s.afterCmd dt 0x0104 h ws fun c u =>
        if s.rd Reg.STEP.CTRL.MODE = 3 then (u.haltWanted (some c.id)).reelStop
        else if u.step.cur = none then (u.haltWanted (some c.id)).stopEngine 1 seHalted else u.haltWanted (some c.id))) ∧
    (s.engine = seHung → s.step.ret = none →
      exec (.stepHalt dt h ws) s = .next (s.afterCmd dt 0x0104 h ws fun c u => (u.haltKept (some c.id)).hangHalts)) := by
  have hstep {u : State} (hu : u = (s.elapse dt).begun 0x0104 h ws) : u.step = s.step := by
    rw [hu, State.begun_step, State.elapse_step]
  have hengine {u : State} (hu : u = (s.elapse dt).begun 0x0104 h ws) : u.engine = s.engine := by
    rw [hu, State.begun_engine, State.engine, State.elapse_rd, State.engine]
  refine ⟨fun hid hst => exec_stepHalt_accepted ha _ fun c u hc hu => ?_,
    fun he hret => exec_stepHalt_accepted ha _ fun c u _ hu => ?_, fun he hret => exec_stepHalt_accepted ha _ fun c u _ hu => ?_,
    fun he hret => exec_stepHalt_accepted ha _ fun c u _ hu => ?_⟩
  · have hrun : u.running c.id = some c := by
      rw [hu, hc]
      exact State.begun_find (s.elapse dt) 0x0104 h ws hid
    refine State.requestHalt_replies (by rw [hstep hu, hw]) ?_ hrun ?_
    · rw [State.stepping, hengine hu]
      exact hst
    · rw [hstep hu, hc]
      exact hid.2
  · exact State.requestHalt_returning (by rw [hstep hu, hw]) _ ((hengine hu).trans he) (by rw [hstep hu, hret])
  · have hmode : u.rd Reg.STEP.CTRL.MODE = s.rd Reg.STEP.CTRL.MODE := by
      rw [hu, State.begun_rd _ _ _ _ (by decide), State.elapse_rd]
    rw [State.requestHalt_running (by rw [hstep hu, hw]) _ ((hengine hu).trans he) (by rw [hstep hu, hret]), hmode]
  · exact State.requestHalt_hung (by rw [hstep hu, hw]) _ ((hengine hu).trans he) (by rw [hstep hu, hret])

end

/-! ### STEP_CONFIGURE -/

/-- What the payload of a STEP_CONFIGURE asks for (R111). -/
def stepConfigOf (ws : List Word) : StepConfig :=
  { mode := fieldOf (ws.getD 0 0) 1 0, period := fieldOf (ws.getD 1 0) 19 0, cue := fieldOf (ws.getD 0 0) 11 8
    strict := flagOf (ws.getD 0 0) 4, slip := flagOf (ws.getD 0 0) 5, cueStart := flagOf (ws.getD 0 0) 6 }

/-- A STEP_CONFIGURE that nothing refuses leaves the device configured. -/
theorem exec_stepConfigure_allowed {s : State} {dt : Nat} {h : CmdHdr} {ws : List Word}
    (ha : s.accepts dt h (decide (ws.length = 2)) false false = true)
    (hb0 : onlyBits ws 0 [(1, 0), (4, 4), (5, 5), (6, 6), (11, 8)] = true) (hb1 : onlyBits ws 1 [(19, 0)] = true)
    {u : State} (hu : u = (s.elapse dt).begun 0x0101 h ws) (hok : (stepConfigOf ws).Allowed u) {d room : Nat}
    (hd : d = u.demandOf (stepConfigOf ws).mode u.ctxMode (stepConfigOf ws).period u.ctxsInUse)
    (hroom : room = u.holds 0x0A + u.freeBu) :
    ∃ t, exec (.stepConfigure dt h ws) s = .next t ∧ Configured s d room (stepConfigOf ws) t := by
  refine ⟨_, exec_accepted rfl ha stepConfigureCmd rfl exactly_of_length rfl rfl
    (fun c v => (v.configured d room (stepConfigOf ws)).configReply c) fun c v hf hp _ hv => ?_, ?_⟩
  · subst hp
    have huv : u = v := hu.trans hv.symm
    subst huv hd hroom
    exact stepConfigureBody_ok hf u hb0 hb1 hok
  · have hk := State.configured_spec ((s.elapse dt).begun 0x0101 h ws) d room (k := stepConfigOf ws) (fieldOf_lt _ 1 0)
      (fieldOf_lt _ 19 0) (fieldOf_lt _ 11 8)
    exact Configured.after (Configured.of_begun (hk.hostOnly (State.hostOnly_answer _ _ _ _ _)))

/-- Settles O28: each command by its meaning where nothing refuses it. -/
theorem stepCommandsAct : Obligations.StepCommandsAct := by
  refine ⟨?_, fun s dt h ws => ⟨?_, ⟨?_, ?_⟩, fun hw ha => ?_⟩⟩
  · intro s dt h ws ha hb0 hb1 mode period cue u demand hmode hperiod he hbusy hcue hgrant room
    have hue : u.engine = seHalted := (State.begun_engine _ _ _ _).trans he
    obtain ⟨t, ht, hc⟩ := exec_stepConfigure_allowed ha hb0 hb1 (u := u) rfl ⟨hmode, hperiod, hue, hbusy, hcue, hgrant⟩ rfl rfl
    exact ⟨t, ht, hc.holds, hc.grant, hc.mode, hc.period, hc.slip, hc.cueStart, hc.cue, hc.strict, hc.engine.trans he, hc.demand,
      hc.fab, hc.cfg, hc.g6, hc.noc⟩
  · intro seg base len entry ha hb hes hspare hend hfree he hw
    refine exec_accepted rfl ha cardLoadCmd rfl cardLoadLen_of_length rfl rfl _ fun c u hf hp _ hu => ?_
    have hrd (f : Field) (hf : f.addr ≠ Reg.HIF.MBOXCTL.BUSY.addr) : u.rd f = s.rd f := by
      rw [hu, State.begun_rd _ _ _ _ hf, State.elapse_rd]
    subst hp
    refine cardLoadBody_ok hf hb ?_ hspare hend (cardRange_free fun k hk hne => ?_) ?_ ?_
    · intro e hmem
      obtain ⟨i, hi, rfl⟩ := List.mem_map.mp hmem
      exact hes i (List.mem_range.mp hi)
    · have hk' : Reg.HIF.MBOXCTL.BUSY.addr < (Reg.STEP.CARDSEG.BASE k).addr := by
        simp only [Reg.HIF.MBOXCTL.BUSY, Reg.STEP.CARDSEG.BASE]; omega
      rw [hrd (Reg.STEP.CARDSEG.BASE k) hk'.ne', hrd (Reg.STEP.CARDSEG.LEN k) hk'.ne']
      exact hfree k hk hne
    · rwa [State.engine, hrd _ (by decide)]
    · rw [hu, State.begun_step]
      exact hw
  · intro hok hm ha
    refine exec_accepted rfl ha stepRunCmd rfl exactly_of_length rfl rfl _ fun c u hf _ _ hu => ?_
    refine stepRunBody_ok hf (hu ▸ hok) ?_
    rw [hu, State.begun_rd _ _ _ _ (by decide)]
    exact hm
  · intro hok hb hn ha
    refine exec_accepted rfl ha stepSingleCmd rfl exactly_of_length rfl rfl _ fun c u hf hp _ hu => ?_
    subst hp
    exact stepSingleBody_ok hf (hu ▸ hok) hb hn
  · obtain ⟨hidle, hreturns, hruns, hhung⟩ := exec_stepHalt_cases hw ha
    refine ⟨hidle, hreturns, fun he hret hm => ?_, fun he hret hm => ?_, hhung⟩
    · rw [hruns he hret]
      simp only [if_neg hm]
      rfl
    · rw [hruns he hret]
      simp only [if_pos hm]
      rfl

end Sys2Proof.Machine
end

section
/-! CTX_STAGE and the end of a staging (R144-R151): what a staging that starts leaves, and which of its ends is taken. -/

namespace Sys2Proof.Machine

/-! ### What the start of a command and the end of an event leave -/

section
variable (s : State)

theorem State.begun_out (op : Nat) (h : CmdHdr) (ws : List Word) : (s.begun op h ws).out = s.out := by
  unfold State.begun; split <;> rfl

theorem State.begun_ledger (op : Nat) (h : CmdHdr) (ws : List Word) : (s.begun op h ws).ledger = s.ledger := by
  unfold State.begun; split <;> rfl

theorem State.begun_plane (op : Nat) (h : CmdHdr) (ws : List Word) (c : Nat) : (s.begun op h ws).plane c = s.plane c :=
  s.begun_rd op h ws (f := planeStateF c) (show (0x30010 : Nat) ≠ Reg.HIF.MBOXCTL.BUSY.addr by decide)

theorem State.elapse_plane (dt c : Nat) : (s.elapse dt).plane c = s.plane c := rfl

section
variable (dt : Nat) (f : State → State)
theorem State.after_cfg : (s.after dt f).cfg = (f (s.elapse dt)).cfg := rfl
theorem State.after_plane (c : Nat) : (s.after dt f).plane c = (f (s.elapse dt)).plane c := rfl
theorem State.after_holds (h : Nat) : (s.after dt f).holds h = (f (s.elapse dt)).holds h := rfl
end

end

/-! ### CTX_STAGE -/

/-- A payload word of which every bit is used has no reserved bit. -/
theorem badBits_whole_word (w : Word) : badBits w.toNat [(63, 0)] = false := badBits_low _ _ w.isLt

/-- The staging that a CTX_STAGE starts (R144). -/
def Cmd.stagingOf (c : Cmd) (s : State) : Staging :=
  { cmd := c.id, ctx := c.f 0 1 0, prev := s.plane (c.f 0 1 0), prevFresh := s.rdb (planeFreshF (c.f 0 1 0)), gddr := c.b 0 8,
    length := c.w 2, stream := Stream.new (c.w 1) s.now, status := none }

/-- A staging in progress, with its BU (R144, R149). -/
def State.stagingHeld (s : State) (st : Staging) : State :=
  { s with cfg := { s.cfg with staging := some st } }.grantAlways 0x0D 6

/-- The fields that show a staging, with the values that its start writes to them (R149, R155). -/
def Staging.shown (st : Staging) : List (Field × Nat) :=
  [(planeStateF st.ctx, 1), (Reg.CTX.STAGE.CTX, st.ctx), (Reg.CTX.STAGE.BUSY, 1), (Reg.CTX.STAGE.DONEKIB, 0)]

/-- A staging that has started. -/
def State.stagingStarted (s : State) (st : Staging) : State := (s.stagingHeld st).wrAll Prod.fst Prod.snd st.shown

/-- A CTX_STAGE that nothing refuses (R151). -/
structure StageAllowed (c : Cmd) (s : State) : Prop where
  word0 : onlyBits c.payload 0 [(1, 0), (8, 8)] = true
  word2 : onlyBits c.payload 2 [(39, 0)] = true
  length : 64 ≤ c.w 2
  aligned : c.b 0 8 = true → c.w 1 % 8 = 0
  cool : s.tripped = false
  notInUse : s.plane (c.f 0 1 0) ≠ 3
  notStaging : s.plane (c.f 0 1 0) ≠ 1
  idle : s.cfg.staging = none
  closed : s.streamOpen = false
  room : 6 ≤ s.freeBu

theorem ctxStageBody_ok {c : Cmd} (hf : c.fail = none) {s : State} (h : StageAllowed c s) :
    ctxStageBody c s = s.stagingStarted (c.stagingOf s) := by
  have hreserved : c.reserved [[(1, 0), (8, 8)], [(63, 0)], [(39, 0)]] = false := by
    have h0 : badBits (c.w 0) [(1, 0), (8, 8)] = false := (onlyBits_iff _ _ _).mp h.word0
    have h1 : badBits (c.w 1) [(63, 0)] = false := badBits_whole_word _
    have h2 : badBits (c.w 2) [(39, 0)] = false := (onlyBits_iff _ _ _).mp h.word2
    simp [Cmd.reserved, h0, h1, h2]
  have haligned : (c.b 0 8 && c.w 1 % 8 != 0) = false := by
    cases hb : c.b 0 8
    · rfl
    · simp [h.aligned hb]
  unfold ctxStageBody
  refine (State.checked_pass s c _ _ hf ?_).trans rfl
  simp [hreserved, haligned, h.length, h.cool, h.notInUse, h.notStaging, h.idle, h.closed, h.room]

theorem Staging.shown_valid {st : Staging} (hc : st.ctx < 4) : ∀ x ∈ st.shown, x.1.valid := by
  have hplane : (planeStateF st.ctx).valid := ⟨by simp only [planeStateF]; omega, by simp only [planeStateF]; omega⟩
  have hstage : ∀ f ∈ [Reg.CTX.STAGE.CTX, Reg.CTX.STAGE.BUSY, Reg.CTX.STAGE.DONEKIB], f.valid := by decide
  simpa [Staging.shown] using And.intro hplane (by simpa using hstage)

theorem Staging.shown_apart (st : Staging) : st.shown.Pairwise fun x y => y.1.apart x.1 := by
  have hstage : [Reg.CTX.STAGE.CTX, Reg.CTX.STAGE.BUSY, Reg.CTX.STAGE.DONEKIB].Pairwise fun f g => g.apart f := by decide
  refine List.Pairwise.of_map (S := fun f g : Field => g.apart f) Prod.fst (fun _ _ h => h)
    (List.pairwise_cons.mpr ⟨?_, hstage⟩)
  have haddr : ∀ f ∈ [Reg.CTX.STAGE.CTX, Reg.CTX.STAGE.BUSY, Reg.CTX.STAGE.DONEKIB], f.addr ≠ 0x30010 := by decide
  exact fun f hf => .inl (haddr f hf).symm

section
variable (s : State) (st : Staging)

/-- A staging that starts changes registers, the configuration's staging and the BU of staging only. -/
theorem State.stagingStarted_frame : ∃ r, s.stagingStarted st = { s.stagingHeld st with regs := r } :=
  State.wrAll_frame _ _ _ _

theorem State.stagingStarted_cfg : (s.stagingStarted st).cfg = { s.cfg with staging := some st } := by
  obtain ⟨r, h⟩ := s.stagingStarted_frame st
  rw [h]; rfl

theorem State.stagingStarted_fab : (s.stagingStarted st).fab = s.fab := by
  obtain ⟨r, h⟩ := s.stagingStarted_frame st
  rw [h]; rfl

theorem State.stagingStarted_out : (s.stagingStarted st).out = s.out := by
  obtain ⟨r, h⟩ := s.stagingStarted_frame st
  rw [h]; rfl

theorem State.stagingStarted_hif : (s.stagingStarted st).hif = s.hif := by
  obtain ⟨r, h⟩ := s.stagingStarted_frame st
  rw [h]; rfl

theorem State.stagingStarted_holds : (s.stagingStarted st).holds 0x0D = s.holds 0x0D + 6 := by
  obtain ⟨r, h⟩ := s.stagingStarted_frame st
  rw [h]
  exact State.holds_setHeld s 0x0D _

/-- Each field that shows a staging reads as its start writes it. -/
theorem State.stagingStarted_rd (hc : st.ctx < 4) {x : Field × Nat} (hx : x ∈ st.shown) :
    (s.stagingStarted st).rd x.1 = x.2 % 2 ^ (x.1.hi + 1 - x.1.lo) :=
  State.rd_wrAll_of_mem _ _ (Staging.shown_valid hc) st.shown_apart hx _

theorem State.stagingStarted_plane (hc : st.ctx < 4) : (s.stagingStarted st).plane st.ctx = 1 := by
  have hwidth : (planeStateF st.ctx).hi + 1 - (planeStateF st.ctx).lo = 3 := by simp only [planeStateF]; omega
  refine (s.stagingStarted_rd st hc (x := (planeStateF st.ctx, 1)) (by simp [Staging.shown])).trans ?_
  rw [hwidth]
  rfl

theorem State.stagingStarted_ctx (hc : st.ctx < 4) : (s.stagingStarted st).rd Reg.CTX.STAGE.CTX = st.ctx :=
  (s.stagingStarted_rd st hc (x := (Reg.CTX.STAGE.CTX, st.ctx)) (by simp [Staging.shown])).trans (Nat.mod_eq_of_lt hc)

theorem State.stagingStarted_busy (hc : st.ctx < 4) : (s.stagingStarted st).rd Reg.CTX.STAGE.BUSY = 1 :=
  s.stagingStarted_rd st hc (x := (Reg.CTX.STAGE.BUSY, 1)) (by simp [Staging.shown])

theorem State.stagingStarted_doneKib (hc : st.ctx < 4) : (s.stagingStarted st).rd Reg.CTX.STAGE.DONEKIB = 0 :=
  s.stagingStarted_rd st hc (x := (Reg.CTX.STAGE.DONEKIB, 0)) (by simp [Staging.shown])

end

theorem exec_ctxStage_allowed {s : State} {dt : Nat} {h : CmdHdr} {ws : List Word}
    (ha : s.accepts dt h (decide (ws.length = 3)) false false = true)
    (hok : StageAllowed ((s.elapse dt).cmdOf 0x0201 h ws) ((s.elapse dt).begun 0x0201 h ws)) :
    exec (.ctxStage dt h ws) s = .next (s.afterCmd dt 0x0201 h ws fun c u => u.stagingStarted (c.stagingOf u)) :=
  exec_accepted rfl ha ctxStageCmd rfl exactly_of_length rfl rfl _ fun _ _ hf _ hc hu =>
    ctxStageBody_ok hf (hc ▸ hu ▸ hok)

/-! ### The end of a staging -/

theorem exec_ctxStageComplete (s : State) (dt : Nat) : exec (.ctxStageComplete dt) s = execCtxStageComplete dt s := rfl

/-- Time that passes changes no verdict on a container. -/
theorem State.elapse_stageStatus (s : State) (dt : Nat) (st : Staging) : (s.elapse dt).stageStatus st = s.stageStatus st := rfl

section
variable {s : State} {dt : Nat} {st : Staging} (hr : s.inReset = false) (hst : s.cfg.staging = some st)
include hr hst

theorem exec_ctxStageComplete_stopped {status : Nat} (h : st.status = some status) :
    exec (.ctxStageComplete dt) s = .next (s.after dt fun u => u.stageFails st status) := by
  refine (exec_ctxStageComplete s dt).trans (State.event_eq hr dt _ _ ?_)
  simp only [State.elapse_cfg, hst, h]

theorem exec_ctxStageComplete_badContainer {reason index : Nat} (h : st.status = none)
    (hx : st.stream.failed = some (reason, index)) :
    exec (.ctxStageComplete dt) s = .next (s.after dt fun u => u.stageFails st (reasonStatus reason)) := by
  refine (exec_ctxStageComplete s dt).trans (State.event_eq hr dt _ _ ?_)
  simp only [State.elapse_cfg, hst, h, hx]

section
variable (hn : st.status = none) (hx : st.stream.failed = none) (hw : st.stream.whole = true)
include hn hx hw

theorem exec_ctxStageComplete_fails {status : Nat} (h : s.stageStatus st = some status) :
    exec (.ctxStageComplete dt) s = .next (s.after dt fun u => u.stageFails st status) := by
  refine (exec_ctxStageComplete s dt).trans (State.event_eq hr dt _ _ ?_)
  simp only [State.elapse_cfg, hst, hn, hx, State.whenever, hw, if_true, State.elapse_stageStatus, h]

theorem exec_ctxStageComplete_verified (h : s.stageStatus st = none) (hsel : st.stream.selected = true) :
    exec (.ctxStageComplete dt) s = .next (s.after dt fun u => u.stageDone st) := by
  refine (exec_ctxStageComplete s dt).trans (State.event_eq hr dt _ _ ?_)
  simp only [State.elapse_cfg, hst, hn, hx, State.whenever, hw, if_true, State.elapse_stageStatus, h, hsel]

theorem exec_ctxStageComplete_otherDevice (h : s.stageStatus st = none) (hsel : st.stream.selected = false) :
    exec (.ctxStageComplete dt) s = .next (s.after dt fun u =>
      ((u.wr (planeStateF st.ctx) st.prev).wrb (planeFreshF st.ctx) st.prevFresh).stageEnds st stOk (2 ^ 24)) := by
  refine (exec_ctxStageComplete s dt).trans (State.event_eq hr dt _ _ ?_)
  simp only [State.elapse_cfg, hst, hn, hx, State.whenever, hw, if_true, State.elapse_stageStatus, h, hsel, Bool.false_eq_true,
    if_false]

end

end

/-- Settles O37: CTX_STAGE by the staging that it starts, the completion by what is known of the container. -/
theorem contextStaging : Obligations.ContextStaging := by
  refine ⟨fun s dt h ws ha => ?_, fun s dt st hr hst => ⟨fun status => exec_ctxStageComplete_stopped hr hst,
    fun reason index => exec_ctxStageComplete_badContainer hr hst, fun hn hx hw => ⟨fun status =>
      exec_ctxStageComplete_fails hr hst hn hx hw, exec_ctxStageComplete_verified hr hst hn hx hw,
      exec_ctxStageComplete_otherDevice hr hst hn hx hw⟩⟩⟩
  intro v ctx hb0 hb2 hlen haligned hcool huse hstaging hidle hclosed hroom
  have hvcfg : v.cfg = s.cfg := State.begun_cfg _ _ _ _
  have hctx : ctx < 4 := fieldOf_lt _ 1 0
  have hprev : v.plane ctx = s.plane ctx := by rw [State.begun_plane, State.elapse_plane]
  have hexec := exec_ctxStage_allowed ha
    ⟨hb0, hb2, hlen, haligned, hcool, huse, hstaging, (congrArg Cfg.staging hvcfg).trans hidle, hclosed, hroom⟩
  refine ⟨_, ((s.elapse dt).cmdOf 0x0201 h ws).stagingOf v, hexec, ?_, rfl, rfl, rfl, hprev, rfl, rfl, rfl,
    ?_, ?_, ?_, ?_, ?_, ?_, ?_, (s.elapse dt).cmdOf 0x0201 h ws, ?_, rfl, rfl⟩
  · rw [State.afterCmd, State.after_cfg, State.stagingStarted_cfg, hvcfg]
  · rw [State.afterCmd, State.after_plane]
    exact State.stagingStarted_plane _ _ hctx
  · rw [State.afterCmd, State.after_rd]
    exact State.stagingStarted_ctx _ _ hctx
  · rw [State.afterCmd, State.after_rd]
    exact State.stagingStarted_busy _ _ hctx
  · rw [State.afterCmd, State.after_rd]
    exact State.stagingStarted_doneKib _ _ hctx
  · rw [State.afterCmd, State.after_holds, State.stagingStarted_holds, State.holds, State.begun_ledger]
    rfl
  · rw [State.afterCmd, State.after_fab, State.stagingStarted_fab, State.begun_fab, State.elapse_fab]
  · rw [State.afterCmd, State.after_out, State.stagingStarted_out, State.begun_out, State.elapse_out]
  · rw [State.afterCmd, State.after_hif, State.stagingStarted_hif, State.begun_running]
    exact List.mem_append_right _ (List.mem_singleton_self _)

end Sys2Proof.Machine
end

section
/-! CTX_MODE and CTX_SELECT (R151-R153): the set of contexts they ask for, and the order in which it comes into use. -/

namespace Sys2Proof.Machine

/-! ### The set of contexts -/

theorem mem_newSet_rotation (sel q len slots c : Nat) :
    c ∈ newSet 2 sel q len slots ↔ ∃ i < len, c = slots / 4 ^ i % 4 := by
  have hslot (i : Nat) : bits slots (2 * i + 1) (2 * i) = slots / 4 ^ i % 4 := by
    rw [bits, show 2 * i + 1 + 1 - 2 * i = 2 by omega, pow_mul]
    rfl
  simp [newSet, hslot, eq_comm]

/-! ### The commands -/

section
variable {s : State} {c : Cmd} {mode sel q len slots : Nat}

theorem State.bringSet_granted {t : State} (h : s.askSet mode (newSet mode sel q len slots) = some t) :
    s.bringSet c mode sel q len slots =
      ((s.askSet mode (newSet mode sel q len slots)).getD s).beginSet (s.setOp c.id mode sel q len slots) := by
  simp only [State.bringSet, h, Option.getD_some]

theorem State.bringSet_refused (h : s.askSet mode (newSet mode sel q len slots) = none) :
    s.bringSet c mode sel q len slots = s.answer c stBudget 0 [] := by
  simp only [State.bringSet, h]

end

theorem State.afterCmd_congr {s : State} {dt op : Nat} {h : CmdHdr} {ws : List Word} {f g : Cmd → State → State}
    (hfg : f ((s.elapse dt).cmdOf op h ws) ((s.elapse dt).begun op h ws) =
      g ((s.elapse dt).cmdOf op h ws) ((s.elapse dt).begun op h ws)) : s.afterCmd dt op h ws f = s.afterCmd dt op h ws g :=
  State.after_congr hfg

/-- A command that brings a new set into use begins it where the ledger grants what the set needs, else replies REFUSED_BUDGET
(R153). -/
theorem afterCmd_bringSet {s : State} {dt op : Nat} {h : CmdHdr} {ws : List Word} {mode sel q len slots : Nat}
    {a : Answer}
    (ha : a = .next (s.afterCmd dt op h ws fun c u => u.bringSet c mode sel q len slots)) :
    let cs := newSet mode sel q len slots
    let v := (s.elapse dt).begun op h ws
    (∀ t, v.askSet mode cs = some t → a = .next (s.afterCmd dt op h ws fun c u =>
      ((u.askSet mode cs).getD u).beginSet (u.setOp c.id mode sel q len slots))) ∧
    (v.askSet mode cs = none → a = .next (s.afterCmd dt op h ws fun c u => u.answer c stBudget 0 [])) :=
  ⟨fun _ ht => ha.trans (congrArg _ (State.afterCmd_congr (State.bringSet_granted ht))),
    fun hn => ha.trans (congrArg _ (State.afterCmd_congr (State.bringSet_refused hn)))⟩

/-- The set of contexts that a CTX_MODE asks for (R119). -/
def Cmd.modeCtxs (c : Cmd) : List Nat := newSet (c.f 0 1 0) (c.f 0 5 4) (c.f 0 10 8) (c.f 0 20 16) (c.f 1 31 0)

/-- A CTX_MODE that nothing refuses but the ledger (R133, R151, R153, R206). -/
structure ModeAllowed (c : Cmd) (s : State) : Prop where
  word0 : onlyBits c.payload 0 [(1, 0), (5, 4), (10, 8), (20, 16)] = true
  word1 : onlyBits c.payload 1 [(31, 0)] = true
  mode : c.f 0 1 0 ≠ 3
  fold : c.f 0 1 0 = 1 → 2 ≤ c.f 0 10 8 ∧ c.f 0 10 8 ≤ 4 ∧ foldOk s.cfg.ctxs (c.f 0 10 8) = true
  rotation : c.f 0 1 0 = 2 → 1 ≤ c.f 0 20 16 ∧ c.f 0 20 16 ≤ 16
  slices : c.f 0 1 0 ≠ 0 → ∀ d ∈ c.modeCtxs, (s.ctx d).ownsSlice = false
  state : ∀ r ∈ s.setRefusals false (c.f 0 1 0) c.modeCtxs, r.1 = false

theorem ctxModeBody_ok {c : Cmd} (hf : c.fail = none) {s : State} (h : ModeAllowed c s) :
    ctxModeBody c s = s.bringSet c (c.f 0 1 0) (c.f 0 5 4) (c.f 0 10 8) (c.f 0 20 16) (c.f 1 31 0) := by
  obtain ⟨hb0, hb1, hmode, hfold, hrotation, hslices, hr⟩ := h
  have hreserved := Cmd.reserved_two (c := c) rfl hb0 hb1
  unfold ctxModeBody
  refine State.checked_pass s c _ _ hf (List.forall_mem_cons.mpr ⟨?_, hr⟩)
  simp only [hreserved, Bool.false_or, Bool.or_eq_false_iff]
  refine ⟨⟨⟨⟨?_, ?_⟩, ?_⟩, ?_⟩, ?_⟩
  · simpa using hmode
  · by_cases h1 : c.f 0 1 0 = 1
    · obtain ⟨h2, h4, -⟩ := hfold h1
      simp [h2, h4]
    · simp [h1]
  · by_cases h2 : c.f 0 1 0 = 2
    · obtain ⟨h1, h16⟩ := hrotation h2
      simp [h1, h16]
    · simp [h2]
  · by_cases h1 : c.f 0 1 0 = 1
    · obtain ⟨-, -, hok⟩ := hfold h1
      simp [hok]
    · simp [h1]
  · by_cases h0 : c.f 0 1 0 = 0
    · simp [h0]
    · simp only [Bool.and_eq_false_iff, List.any_eq_false]
      exact .inr fun d hd => by simp [hslices h0 d hd]

theorem ctxSelectBody_ok {c : Cmd} (hf : c.fail = none) {s : State} (hb : onlyBits c.payload 0 [(1, 0)] = true)
    (hm : s.ctxMode = 0) (hr : ∀ r ∈ s.setRefusals false 0 [c.f 0 1 0], r.1 = false) :
    ctxSelectBody c s = s.bringSet c 0 (c.f 0 1 0) 0 0 0 := by
  have hsolo : (s.ctxMode != 0) = false := by simp [hm]
  unfold ctxSelectBody
  rw [hsolo]
  exact State.checked_pass s c _ _ hf (List.forall_mem_cons.mpr ⟨Cmd.reserved_one rfl hb, hr⟩)

/-! ### The order of refills and switches -/

section
variable {s : State} {o : CtxOp}

/-- A set that begins has its wings powered and its first refill on its way (R152, R164). -/
theorem State.beginSet_todo {x : Nat × Bool} {rest : List (Nat × Bool)} (h : o.todo = x :: rest) :
    s.beginSet o = State.opNext (o.todo.length + 1)
      (State.startRefills { s with
        step := { s.step with op := some o }, fab := { s.fab with powered := s.fab.powered ++ o.wings } } x.1 2) := by
  simp only [State.beginSet, h]

variable {c : Nat} {sw : Bool}

/-- The SWITCH into a context that has been refilled, where one is due, and what is still to do (R152). -/
def State.opShown (s : State) (o : CtxOp) (c : Nat) (sw : Bool) (rest : List (Nat × Bool)) : State :=
  let t := if sw = true then s.doSwitch c else s
  { t with step := { t.step with op := some { o with todo := rest } } }

theorem State.opNext_last (n : Nat) (ho : s.step.op = some o) (hr : s.refilled 2 = true) (h : o.todo = [(c, sw)]) :
    State.opNext (n + 1) s = (s.opShown o c sw []).opDone { o with todo := [] } := by
  simp only [State.opNext, ho, hr, h, State.opShown, Bool.not_true, Bool.false_eq_true, if_false]

theorem State.opNext_more (n : Nat) (ho : s.step.op = some o) (hr : s.refilled 2 = true) {d : Nat} {sw' : Bool}
    {rest : List (Nat × Bool)} (h : o.todo = (c, sw) :: (d, sw') :: rest) :
    State.opNext (n + 1) s = State.opNext n ((s.opShown o c sw ((d, sw') :: rest)).startRefills d 2) := by
  rw [State.opNext]
  simp only [ho, hr, h, State.opShown, Bool.not_true, Bool.false_eq_true, if_false]

end

/-- Settles O38: the commands by what the ledger grants, the set by its mode, its coming into use by what is still to do. -/
theorem contextsComeIntoUse : Obligations.ContextsComeIntoUse := by
  refine ⟨fun s dt h ws => ⟨?_, ?_⟩, fun sel q len slots => ⟨rfl, rfl, mem_newSet_rotation sel q len slots⟩,
    fun s cmd mode sel q len slots => ⟨rfl, rfl, rfl, fun d => ?_, fun c sw rest => State.beginSet_todo⟩,
    fun s o c sw n ho hr => ⟨State.opNext_last n ho hr, fun d sw' rest => State.opNext_more n ho hr⟩⟩
  · intro v mode sel q len slots cs ha hb0 hb1 hmode hfold hrotation hslices hrefuse
    refine afterCmd_bringSet (exec_accepted rfl ha ctxModeCmd rfl exactly_of_length rfl rfl _ fun c u hf hp _ hu => ?_)
    have hcfg : u.cfg = s.cfg := by rw [hu, State.begun_cfg, State.elapse_cfg]
    subst hp
    exact ctxModeBody_ok hf ⟨hb0, hb1, hmode, hcfg ▸ hfold, hrotation, hu ▸ hslices, hu ▸ hrefuse⟩
  · intro v sel ha hb hm hrefuse
    refine afterCmd_bringSet (exec_accepted rfl ha ctxSelectCmd rfl exactly_of_length rfl rfl _ fun c u hf hp _ hu => ?_)
    subst hp
    exact ctxSelectBody_ok hf hb (hu ▸ hm) (hu ▸ hrefuse)
  · exact List.mem_filter

end Sys2Proof.Machine
end

section
/-! The logs and statistics: ATC_ERRLOG, G6_ERRLOG, CRYPT_STATUS and NOC_STATS reply, and clear on request. -/

namespace Sys2Proof.Machine

/-- A command row whose meaning refuses nothing but a reserved bit of its one payload word has its effect where no such bit is
set (R482). -/
theorem exec_unreserved {i : Instr} {dt op : Nat} {h : CmdHdr} {ws : List Word} (hi : i.asCommand = some (dt, op, h, ws))
    {s : State} (ha : s.accepts dt h (decide (ws.length = 1)) false false = true) {body : Cmd → State → State}
    (hk : commandOf op = command op (exactly 1) body) {fields : List (Nat × Nat)} (hb : onlyBits ws 0 fields = true)
    {effect : Cmd → State → State}
    (hbody : ∀ c u, c.payload = ws → body c u = u.checked c [(c.reserved [fields], stBadParam, 0)] (effect c)) :
    exec i s = .next (s.afterCmd dt op h ws effect) :=
  exec_accepted hi ha _ hk exactly_of_length rfl rfl effect fun c u hf hp _ _ =>
    (hbody c u hp).trans (State.checked_pass u c _ _ hf (by simp [Cmd.reserved_one hp hb]))

/-- NOC_STATS over a range of initiators that exist replies with their records, and clears their counters on request (R296). -/
theorem nocStatsBody_ok {c : Cmd} (hf : c.fail = none) (u : State)
    (hb : onlyBits c.payload 0 [(10, 0), (26, 16), (32, 32)] = true) (h1 : 1 ≤ c.f 0 26 16) (h1024 : c.f 0 26 16 ≤ 1024)
    (hend : c.f 0 10 0 + c.f 0 26 16 ≤ 1028) :
    nocStatsBody c u =
      let is := (List.range (c.f 0 26 16)).map (c.f 0 10 0 + ·)
      (if c.b 0 32 then is.foldl State.clearIni u else u).ok c (is.flatMap u.iniWords) := by
  unfold nocStatsBody
  refine State.checked_pass u c _ _ hf ?_
  simp [Cmd.reserved_one rfl hb, h1024, hend]
  omega

/-- Settles O26: each command is accepted, no bit of its payload refuses it, and its meaning replies. -/
theorem logsReplyAndClear : Obligations.LogsReplyAndClear := by
  intro s dt h ws ha clear
  refine ⟨fun hb => ?_, fun hb => ?_, fun hb => ?_, fun hb => ?_⟩
  · exact exec_unreserved rfl ha (body := atcErrlogBody) rfl hb fun c u hp => by subst hp; rfl
  · exact exec_unreserved rfl ha (body := g6ErrlogBody) rfl hb fun c u hp => by subst hp; rfl
  · exact exec_unreserved rfl ha (body := cryptStatusBody) rfl hb fun c u hp => by subst hp; rfl
  · intro first n h1 h1024 hend
    refine exec_accepted rfl ha nocStatsCmd rfl exactly_of_length rfl rfl _ fun c u hf hp _ _ => ?_
    subst hp
    exact nocStatsBody_ok hf u hb h1 h1024 hend

end Sys2Proof.Machine
end

section
/-! SCRUB and ATC_FILL (R246-R251, R675): their start, the lines that they move, and their end. -/

namespace Sys2Proof.Machine

/-! ### The commands -/

section
variable {c : Cmd} (hf : c.fail = none) {u : State}
include hf

theorem scrubBody_ok (hrange : rangeBad (c.w 0) (c.w 1) = false) (hb : onlyBits c.payload 2 [(0, 0)] = true)
    (hbusy : u.maintBusy (c.w 0) (c.w 1) = false) (hbu : 4 * (rangeTowers (c.w 0) (c.w 1)).length ≤ u.freeBu) :
    scrubBody c u = u.beginMaint c false (c.b 2 0) none := by
  have hw : badBits (c.w 2) [(0, 0)] = false := (onlyBits_iff _ _ _).mp hb
  unfold scrubBody
  refine State.checked_pass u c _ _ hf ?_
  simp [hrange, hw, hbusy, hbu]

/-- An ATC_FILL over blocks that are neither retired, nor the trace's, nor owned by a context in use while the engine steps
(R246). -/
theorem atcFillBody_ok (hrange : rangeBad (c.w 0) (c.w 1) = false) (hb : onlyBits c.payload 2 [(0, 0)] = true)
    (hblocks : ∀ b ∈ rangeBlocks (c.w 0) (c.w 1), u.attic.isRetired b.1 b.2 = false ∧
      u.attic.ownerOf b.1 b.2 ≠ some .trace ∧
      ∀ o, u.attic.ownerOf b.1 b.2 = some o → u.stepping = true → ∀ k ∈ u.ctxsInUse, o.has k = false)
    (hbusy : u.maintBusy (c.w 0) (c.w 1) = false) (hbu : 4 * (rangeTowers (c.w 0) (c.w 1)).length ≤ u.freeBu) :
    atcFillBody c u = u.beginMaint c true false (if c.b 2 0 then some (toWord (c.w 3)) else none) := by
  have hw : badBits (c.w 2) [(0, 0)] = false := (onlyBits_iff _ _ _).mp hb
  have hretired : ((rangeBlocks (c.w 0) (c.w 1)).any fun b => u.attic.isRetired b.1 b.2) = false :=
    List.any_eq_false.mpr fun b hmem => by
      obtain ⟨hkept, -, -⟩ := hblocks b hmem
      simp [hkept]
  have htrace : ((rangeBlocks (c.w 0) (c.w 1)).any fun b => u.attic.ownerOf b.1 b.2 == some .trace) = false :=
    List.any_eq_false.mpr fun b hmem => by
      obtain ⟨-, hother, -⟩ := hblocks b hmem
      simpa using hother
  have howned : (u.stepping && (rangeBlocks (c.w 0) (c.w 1)).any fun b =>
      (u.attic.ownerOf b.1 b.2).any fun o => u.ctxsInUse.any o.has) = false := by
    refine Bool.and_eq_false_imp.mpr fun hstep => List.any_eq_false.mpr fun b hmem => ?_
    obtain ⟨-, -, hunused⟩ := hblocks b hmem
    cases ho : u.attic.ownerOf b.1 b.2 with
    | none => simp
    | some o => simpa using hunused o ho hstep
  unfold atcFillBody
  refine State.checked_pass u c _ _ hf ?_
  simp [hrange, hw, hretired, htrace, howned, hbusy, hbu]

end

/-! ### A line -/

-- Time that passes changes neither the lines under way nor what lets one move.
@[simp] theorem State.elapse_lineJob (s : State) (dt wing : Nat) : (s.elapse dt).lineJob wing = s.lineJob wing := rfl
@[simp] theorem State.elapse_atticUp (s : State) (dt : Nat) : (s.elapse dt).atticUp = s.atticUp := rfl
@[simp] theorem State.elapse_towerReady (s : State) (dt t : Nat) : (s.elapse dt).towerReady t = s.towerReady t := rfl
@[simp] theorem State.elapse_lineRoom (s : State) (dt : Nat) (j : MaintJob) (wing k : Nat) :
    (s.elapse dt).lineRoom j wing k = s.lineRoom j wing k := rfl

section
variable {s : State} {dt : Nat} (hr : s.inReset = false)
include hr

theorem exec_maintenanceLine_ends {wing k ends : Nat} {j : MaintJob} (hj : s.lineJob wing = some (j, k, ends))
    (ht : ends ≤ s.now + dt) (hup : s.atticUp = true) (hready : s.towerReady (wing / 64) = true)
    (hroom : s.lineRoom j wing k = true) :
    exec (.maintenanceLine dt wing) s = .next (s.after dt fun u =>
      let v := (u.touch (wing / 64)).charge iniKeeper (8 * (lineWords j.start j.length wing k).2.2.length)
      let r := if j.fill then ((j.fillWrites wing k).foldl State.maintWrite v, j) else v.scrubLine j wing k
      (r.1.setLine r.2 wing (k + 1) ends).nextLine wing) := by
  refine (show exec (.maintenanceLine dt wing) s = execMaintenanceLine dt wing s from rfl).trans
    (State.event_eq hr dt _ _ ?_)
  simp only [State.elapse_lineJob, hj]
  exact State.whenever_true _ _ _ (by simp [ht, hup, hready, hroom])

/-! ### The end -/

theorem exec_towerMoved (tower : Nat) (fill : Bool) :
    exec (if fill then .atcFillComplete dt tower else .scrubComplete dt tower) s =
      .next (s.after dt fun u => u.towerMoved tower fill) := by
  cases fill
  · exact (show _ = execScrubComplete dt tower s from rfl).trans (State.event_outside hr dt _)
  · exact (show _ = execAtcFillComplete dt tower s from rfl).trans (State.event_outside hr dt _)

end

/-- A tower that has moved every line of a job leaves it; the last one ends the job (R248). -/
theorem State.towerMoved_of_moved {s : State} {tower : Nat} {fill : Bool} {j : MaintJob}
    (hj : s.attic.jobs.find? (fun j => j.fill = fill ∧ j.towersLeft.contains tower ∧ j.movedIn tower) = some j) :
    s.towerMoved tower fill =
      let j' := { j with towersLeft := j.towersLeft.filter (· ≠ tower) }
      if j'.towersLeft = [] then s.maintEnds j' stOk
      else { s with attic := { s.attic with jobs := s.attic.jobs.map fun (i : MaintJob) =>
        if i.cmd = j.cmd then j' else i } } := by
  simp only [State.towerMoved, hj, List.isEmpty_iff]

end Sys2Proof.Machine
end

section
/-! BLOCK_REMAP, the check of a line and the stewards (R222-R226, R233-R235, R243). -/

namespace Sys2Proof.Machine

/-! ### BLOCK_REMAP -/

/-- A BLOCK_REMAP of a block that exists is answered by what is recorded of the wing (R243). -/
theorem blockRemapBody_ok {c : Cmd} (hf : c.fail = none) (u : State)
    (hb : onlyBits c.payload 0 [(2, 0), (13, 8), (20, 16), (24, 24)] = true) (hab : c.f 0 20 16 ≤ 23) :
    blockRemapBody c u =
      let tower := c.f 0 2 0
      let wing := 64 * tower + c.f 0 13 8
      let ab := c.f 0 20 16
      let retire := c.b 0 24
      let goes := if retire then u.attic.phys wing ab else 24
      if (wing, ab, retire) ∈ u.attic.moves then u.answer c stOk goes []
      else if 256 ≤ u.dev.ledger.length then u.answer c stState 2 []
      else if retire = false ∧ u.attic.spareOpen wing = false then u.answer c stHwFault 1 []
      else
        let t := { u with attic := { u.attic with moves := u.attic.moves ++ [(wing, ab, retire)] } }
        ((t.addRepair { kind := if retire then 4 else 3, wing := wing, item := ab, bonds := [] }).post 0x0307 sevInfo tower
          (towerBlock wing ab)).answer c stOk goes [] := by
  unfold blockRemapBody
  refine (State.checked_pass u c _ _ hf ?_).trans ?_
  · simp [Cmd.reserved_one rfl hb, hab]
  · simp only [List.contains_iff_mem, Bool.and_eq_true, Bool.not_eq_true']

section
variable {s : State} {dt : Nat} (hr : s.inReset = false)
include hr

/-! ### The check of a line -/

theorem exec_outerCheckComplete_found {tower : Nat} {x : OuterCheck}
    (hx : s.attic.checks.find? (fun c => c.wing / 64 = tower) = some x) :
    exec (.outerCheckComplete dt tower) s = .next (s.after dt fun u =>
      let t := { u with attic := { u.attic with checks := u.attic.checks.erase x } }
      (t.readLine x.source x.wing x.block (x.word / 8) [] (some (x.word, x.fixed))
        (t.rdb (Reg.ATC.CTRL.SOR tower) || x.writeback)).1) := by
  refine (show exec (.outerCheckComplete dt tower) s = execOuterCheckComplete dt tower s from rfl).trans
    (State.event_eq hr dt _ _ ?_)
  simp only [State.elapse_attic, hx]

end

/-! ### The stewards -/

-- Time that passes changes neither what a steward refuses nor the room for writes.
@[simp] theorem State.elapse_stewardRefuses (s : State) (dt : Nat) (p : Packet) :
    (s.elapse dt).stewardRefuses p = s.stewardRefuses p := rfl
@[simp] theorem State.elapse_maintRoom (s : State) (dt wing : Nat) : (s.elapse dt).maintRoom wing = s.maintRoom wing := rfl

section
variable (s : State) (tower : Nat) (x : Nat × Packet)

/-- Taking a request changes the hallway's queues, the count of older requests, and the tower's last access (R222). -/
theorem State.leaveTarget_touch_frame : ∃ n g d, (s.leaveTarget x).touch tower =
    { s with noc := n, g6 := g, pwr := { s.pwr with domIdle := d } } := by
  obtain ⟨d, h⟩ := (s.leaveTarget x).touch_frame tower
  exact ⟨_, _, d, h⟩

-- Taking a request changes nothing that the steward's answer goes by.
@[simp] theorem State.leaveTarget_touch_expired (p : Packet) :
    ((s.leaveTarget x).touch tower).expired p = s.expired p := by
  obtain ⟨n, g, d, h⟩ := s.leaveTarget_touch_frame tower x
  rw [h]; rfl

@[simp] theorem State.leaveTarget_touch_atticUp : ((s.leaveTarget x).touch tower).atticUp = s.atticUp := by
  obtain ⟨n, g, d, h⟩ := s.leaveTarget_touch_frame tower x
  rw [h]; rfl

@[simp] theorem State.leaveTarget_touch_stewardRefuses (p : Packet) :
    ((s.leaveTarget x).touch tower).stewardRefuses p = s.stewardRefuses p := by
  obtain ⟨n, g, d, h⟩ := s.leaveTarget_touch_frame tower x
  rw [h]; rfl

@[simp] theorem State.leaveTarget_touch_responseRouter (t : Nat) (p : Packet) :
    ((s.leaveTarget x).touch tower).responseRouter t p = s.responseRouter t p := by
  obtain ⟨n, g, d, h⟩ := s.leaveTarget_touch_frame tower x
  rw [h]; rfl

end

section
variable {s : State} {dt : Nat} (hr : s.inReset = false)
include hr

/-- A steward serves its oldest request by the request's age, the attics' state and R226. -/
theorem exec_stewardRequest_oldest {tower : Nat} {x : Nat × Packet} (ht : tower < 8)
    (hx : s.noc.targets.find? (fun x => x.1 = tower) = some x) :
    exec (.stewardRequest dt tower) s = .next (s.after dt fun u =>
      let t := (u.leaveTarget x).touch tower
      if (s.elapse dt).expired x.2 then t.countExpired (u.responseRouter tower x.2)
      else if s.atticUp = false then t.respond tower x.2 hsReset 0 []
      else if s.stewardRefuses x.2 then t.respond tower x.2 hsRefused 0 []
      else if x.2.type = 2 then t.stewardWrite tower x.2
      else t.stewardRead tower x.2) := by
  refine (show exec (.stewardRequest dt tower) s = execStewardRequest dt tower s from rfl).trans
    (State.event_eq hr dt _ _ ?_)
  simp only [State.elapse_noc, hx]
  refine (State.whenever_true _ _ _ (decide_eq_true ht)).trans ?_
  simp only [State.leaveTarget_touch_expired, State.leaveTarget_touch_atticUp,
    State.leaveTarget_touch_stewardRefuses, State.leaveTarget_touch_responseRouter, State.elapse_atticUp,
    State.elapse_stewardRefuses, Bool.not_eq_true']

theorem exec_stewardWriteAccept_room {wing : Nat} {m : MaintWrite} {r : Option (Nat × Packet)} :
    s.attic.waiting.find? (fun x => x.1.wing = wing) = some (m, r) → s.maintRoom wing = true →
    exec (.stewardWriteAccept dt wing) s = .next (s.after dt fun u =>
      let t := ({ u with attic := { u.attic with waiting := u.attic.waiting.erase (m, r) } }).acceptMaint m
      match r with
      | some q => t.respond q.1 q.2 hsOk 0 []
      | none => t) := by
  intro hx hroom
  refine (show exec (.stewardWriteAccept dt wing) s = execStewardWriteAccept dt wing s from rfl).trans
    (State.event_eq hr dt _ _ ?_)
  simp only [State.elapse_attic, hx]
  refine (State.whenever_true _ _ _ ((s.elapse_maintRoom dt wing).trans hroom)).trans ?_
  cases r <;> rfl

end

/-- Settles O49: the commands by what refuses them, each event by the condition under which it happens. -/
theorem maintenanceAndStewards : Obligations.MaintenanceAndStewards := by
  refine ⟨fun s dt h ws => ?_, fun s dt h ws => ?_, fun s dt wing k ends j hr hj ht hup hready hroom =>
    exec_maintenanceLine_ends hr hj ht hup hready hroom, fun s dt tower fill j hr hj => ?_, fun s dt h ws => ?_,
    fun s dt tower x hr hx => exec_outerCheckComplete_found hr hx, fun s dt tower x hr ht hx => ?_,
    fun s dt wing m r hr hx hroom => exec_stewardWriteAccept_room hr hx hroom⟩
  · intro v a n ha hrange hb hbusy hbu
    refine exec_accepted rfl ha scrubCmd rfl exactly_of_length rfl rfl _ fun c u hf hp _ hu => ?_
    subst hp hu
    exact scrubBody_ok hf hrange hb hbusy hbu
  · intro v a n ha hrange hb hblocks hbusy hbu
    refine exec_accepted rfl ha atcFillCmd rfl exactly_of_length rfl rfl _ fun c u hf hp _ hu => ?_
    subst hp hu
    refine (atcFillBody_ok hf hrange hb hblocks hbusy hbu).trans ?_
    rw [toWord, Cmd.w, BitVec.ofNat_toNat, BitVec.setWidth_eq]
    rfl
  · rw [exec_towerMoved hr]
    refine congrArg _ (State.after_congr ((State.towerMoved_of_moved (s := s.elapse dt) hj).trans ?_))
    have hfound := List.find?_some hj
    obtain ⟨rfl, -⟩ := decide_eq_true_iff.mp hfound
    rfl
  · intro v tower wing ab retire goes ha hb hab
    have hexec (effect : Cmd → State → State)
        (he : ∀ c : Cmd, c.fail = none → c.payload = ws → blockRemapBody c v = effect c v) :
        exec (.blockRemap dt h ws) s = .next (s.afterCmd dt 0x0304 h ws effect) :=
      exec_accepted rfl ha blockRemapCmd rfl exactly_of_length rfl rfl effect fun c u hf hp _ hu => hu ▸ he c hf hp
    refine ⟨fun hm => hexec _ fun c hf hp => ?_, fun hm hl => hexec _ fun c hf hp => ?_,
      fun hm hl hretire hspare => hexec _ fun c hf hp => ?_, fun hm hl hspare => hexec _ fun c hf hp => ?_⟩
    all_goals
      subst hp
      refine (blockRemapBody_ok hf v hb hab).trans ?_
    · exact if_pos hm
    · exact (if_neg hm).trans (if_pos hl)
    · exact (if_neg hm).trans ((if_neg (Nat.not_le.mpr hl)).trans (if_pos ⟨hretire, hspare⟩))
    · refine (if_neg hm).trans ((if_neg (Nat.not_le.mpr hl)).trans (if_neg fun ⟨hretire, hclosed⟩ => ?_))
      exact Bool.false_ne_true (hclosed.symm.trans (hspare hretire))
  · intro taken
    rw [exec_stewardRequest_oldest hr ht hx]
    refine ⟨fun he => ?_, fun he hup => ?_, fun he hup hrefuse => ?_, fun he hup hrefuse hw => ?_,
      fun he hup hrefuse hw => ?_⟩
    all_goals refine congrArg _ (State.after_congr ?_)
    · exact if_pos he
    · exact (if_neg (ne_true_of_eq_false he)).trans (if_pos hup)
    · exact (if_neg (ne_true_of_eq_false he)).trans ((if_neg (ne_false_of_eq_true hup)).trans (if_pos hrefuse))
    · exact (if_neg (ne_true_of_eq_false he)).trans ((if_neg (ne_false_of_eq_true hup)).trans
        ((if_neg (ne_true_of_eq_false hrefuse)).trans (if_pos hw)))
    · exact (if_neg (ne_true_of_eq_false he)).trans ((if_neg (ne_false_of_eq_true hup)).trans
        ((if_neg (ne_true_of_eq_false hrefuse)).trans (if_neg hw)))

end Sys2Proof.Machine
end

section
/-! Corridors (R259-R263): the token or acknowledge that a slot carries, the handshake, the walking pattern, and re-maps. -/

namespace Sys2Proof.Machine

/-! ### The groups that tokens wait for -/

section
variable (s : State) (r : StepRun) (dir group slot : Nat) (t : Token)

/-- Whether the next corridor of a token is crossed on a slot of a group. -/
def State.onSlot : Bool :=
  match t.hops with
  | h :: _ => h.dir == dir && s.corr.place (s.phaseCtx r) h == (group, slot)
  | [] => false

/-- Whether a token waits to cross a corridor on a group. -/
def State.onGroup : Bool :=
  match t.hops with
  | h :: _ => h.dir == dir && (s.corr.place (s.phaseCtx r) h).1 == group
  | [] => false

@[simp] theorem State.elapse_onSlot (dt : Nat) : (s.elapse dt).onSlot r dir group slot t = s.onSlot r dir group slot t := rfl
@[simp] theorem State.elapse_onGroup (dt : Nat) : (s.elapse dt).onGroup r dir group t = s.onGroup r dir group t := rfl

variable {t}

theorem State.onGroup_eq_false
    (h : ∀ h, t.hops.head? = some h → h.dir = dir → (s.corr.place (s.phaseCtx r) h).1 ≠ group) :
    s.onGroup r dir group t = false := by
  unfold State.onGroup
  split
  next hop rest hh => simpa using h hop (by rw [hh]; rfl)
  next => rfl

end

/-! ### Transfers -/

section
variable (s : State) (r : StepRun) {t : Token} (dir g : Nat) (wires : List Nat)

/-- An acknowledge crosses where every wire is right, else its group fails (R260). -/
theorem State.transfer_ack (h : t.isAck = true) :
    s.transfer r t dir g wires = if wires = [] then s.tokenCrosses r t t.value else s.groupFails dir g := by
  refine (if_pos h).trans ?_
  cases wires <;> rfl

/-- A token crosses as the group sees its check (R259, R260). -/
theorem State.transfer_token (h : ¬ t.isAck = true) :
    s.transfer r t dir g wires =
      let fails := s.count (Reg.CORR.CHK.CHKFAIL dir) 1
      let again := fun (high : Bool) =>
        let v := (fails.count (Reg.CORR.CHK.HALFXFER dir) 1).noteCheck dir g high
        ({ v with corr := { v.corr with halfNow := v.corr.halfNow ++ [(dir, g, !high)] } }).tokenCrosses r t t.value
      match s.corr.seen dir g (xferEnd wires) with
      | .clean => s.tokenCrosses r t (if xferEnd wires = .clean then xferData t.value wires else t.value)
      | .failLow => again false
      | .failHigh => again true
      | .failBoth => fails.groupFails dir g :=
  if_neg h

theorem execCorridorTransfer_eq (dt slot : Nat) :
    execCorridorTransfer dt dir g slot wires s = s.event dt fun u =>
      match u.step.cur with
      | none => u
      | some r =>
        match r.tokens.find? fun t => u.onSlot r dir g slot t && decide (t.ready ≤ u.now) && !u.routeCut t.hops with
        | some t => u.whenever (u.corr.usable dir g) fun v => v.transfer r t dir g wires
        | none => u := rfl

theorem execIdlePatternBeat_eq (dt : Nat) (failsLow failsHigh failsOther : Bool) :
    execIdlePatternBeat dt dir g failsLow failsHigh failsOther s = s.event dt fun u =>
      let low := failsLow && u.corr.state dir g != 3
      let high := failsHigh && u.corr.state dir g != 2
      u.whenever (decide (dir < dirCount) && decide (g < 34) && (u.corr.usable dir g || u.corr.state dir g == 5) &&
          !(u.step.cur.any fun r => r.tokens.any fun t => u.onGroup r dir g t) &&
          decide (u.corr.lastXfer.at 0 (groupKey dir g) + 20 * fsNs ≤ u.now) && (low || high || failsOther)) fun v =>
        (v.markFailing dir g (if failsOther || (low && high) then none else some high)).repairNow := rfl

end

section
variable {s : State} {dt dir group : Nat} (hr : s.inReset = false)
include hr

theorem exec_corridorTransfer_waiting {slot : Nat} (wires : List Nat) {r : StepRun} {t : Token} (hc : s.step.cur = some r)
    (hu : s.corr.usable dir group = true)
    (ht : r.tokens.find? (fun t => s.onSlot r dir group slot t && decide (t.ready ≤ s.now + dt) &&
      !s.routeCut t.hops) = some t) :
    exec (.corridorTransfer dt dir group slot wires) s = .next (s.after dt fun u => u.transfer r t dir group wires) := by
  refine (show _ = execCorridorTransfer dt dir group slot wires s from rfl).trans
    ((execCorridorTransfer_eq s dir group wires dt slot).trans (State.event_eq hr dt _ _ ?_))
  rw [← s.elapse_now dt] at ht
  simp only [State.elapse_step, hc, State.elapse_onSlot, State.elapse_routeCut, ht]
  exact State.whenever_true _ _ _ hu

/-- A group that carries a channel of the phase fails with its handshake (R260). -/
theorem exec_handshakeTimeout_carries {r : StepRun} (hc : s.step.cur = some r) (hu : s.corr.usable dir group = true)
    (hcarries : ∃ h ∈ s.dirHops (s.phaseCtx r) dir, (s.corr.place (s.phaseCtx r) h).1 = group) :
    exec (.handshakeTimeout dt dir group) s = .next (s.after dt fun u => u.groupFails dir group) := by
  refine (show _ = execHandshakeTimeout dt dir group s from rfl).trans (State.event_eq hr dt _ _ ?_)
  simp only [State.elapse_step, hc]
  obtain ⟨h, hmem, hplace⟩ := hcarries
  exact State.whenever_true _ _ _ (Bool.and_eq_true_iff.mpr ⟨hu, List.any_eq_true.mpr ⟨h, hmem, beq_iff_eq.mpr hplace⟩⟩)

/-! ### The walking pattern and re-maps -/

/-- On a group that no token waits for and that has been idle for 20 ns, the walking pattern marks what of it fails (R261, R262). -/
theorem exec_idlePatternBeat_idle {failsLow failsHigh failsOther : Bool} (hdir : dir < dirCount) (hgroup : group < 34)
    (hruns : s.corr.usable dir group = true ∨ s.corr.state dir group = 5)
    (hidle : s.corr.lastXfer.at 0 (groupKey dir group) + 20 * fsNs ≤ s.now + dt)
    (hwaits : ∀ r, ∀ t : Token, s.step.cur = some r → t ∈ r.tokens → s.onGroup r dir group t = false) {low high : Bool}
    (hlow : (failsLow && s.corr.state dir group != 3) = low) (hhigh : (failsHigh && s.corr.state dir group != 2) = high)
    (hfails : (low || high || failsOther) = true) :
    exec (.idlePatternBeat dt dir group failsLow failsHigh failsOther) s = .next (s.after dt fun u =>
      (u.markFailing dir group (if failsOther || (low && high) then none else some high)).repairNow) := by
  subst hlow hhigh
  have hnone : (s.step.cur.any fun r => r.tokens.any fun t => s.onGroup r dir group t) = false := by
    cases hc : s.step.cur with
    | none => rfl
    | some r => exact List.any_eq_false.mpr fun t ht => ne_true_of_eq_false (hwaits r t hc ht)
  refine (show _ = execIdlePatternBeat dt dir group failsLow failsHigh failsOther s from rfl).trans
    ((execIdlePatternBeat_eq s dir group dt failsLow failsHigh failsOther).trans (State.event_eq hr dt _ _ ?_))
  refine State.whenever_true _ _ _ ?_
  simp only [State.elapse_corr, State.elapse_step, State.elapse_onGroup, State.elapse_now, hnone, hfails, hdir, hgroup, hidle,
    decide_true, Bool.true_and, Bool.and_true, Bool.not_false, Bool.or_eq_true, beq_iff_eq]
  exact hruns

/-- A re-map that is due while the towers at both ends are ready moves the channels of the retired groups (R263). -/
theorem exec_remapComplete_due (hmine : ∃ m ∈ s.corr.remaps, m.1 = dir)
    (hfrom : 8 ≤ (dirEnds dir).1 ∨ s.towerReady (dirEnds dir).1 = true)
    (hto : 8 ≤ (dirEnds dir).2 ∨ s.towerReady (dirEnds dir).2 = true) :
    exec (.remapComplete dt dir) s = .next (s.after dt fun u =>
      let moved := u.remapAll [0, 1, 2, 3] dir
      let v := moved.getD u
      let v := { v with corr := { v.corr with remaps := v.corr.remaps.filter fun m => m.1 ≠ dir } }
      let v := (u.corr.remaps.filter fun m => m.1 = dir).foldl (fun (w : State) m =>
        let stall := min (ceilDiv (w.now - m.2.2) (10 * fsNs)) 65535
        (w.post 0x0403 sevError srcDevice (dir + m.2.1 * 2 ^ 8 + stall * 2 ^ 16)).corrAtRisk 3 dir m.2.1) v
      if moved.isNone then (v.corrSync.exhaust dir).corrSync.enterFault else v.corrSync) := by
  refine (show _ = execRemapComplete dt dir s from rfl).trans (State.event_eq hr dt _ _ (State.whenever_true _ _ _ ?_))
  obtain ⟨m, hmem, hm⟩ := hmine
  have hpending : (s.corr.remaps.filter fun m => m.1 = dir) ≠ [] := fun he =>
    List.filter_eq_nil_iff.mp he m hmem (decide_eq_true hm)
  simp only [State.elapse_corr, State.elapse_towerReady, Bool.and_eq_true, Bool.or_eq_true, decide_eq_true_eq,
    Bool.not_eq_true', List.isEmpty_eq_false_iff]
  exact ⟨⟨hpending, hfrom⟩, hto⟩

end

/-- Settles O50: a transfer by what its slot carries, each other event by the condition under which it happens. -/
theorem corridorsCarryAndRepair : Obligations.CorridorsCarryAndRepair := by
  refine ⟨fun s dt dir group slot wires r t hr hc hu ht => ?_,
    fun s dt dir group r hr hc hu hcarries => exec_handshakeTimeout_carries hr hc hu hcarries,
    fun s dt dir group failsLow failsHigh failsOther hr hdir hgroup hruns hidle hwaits => ?_,
    fun s dt dir hr hmine hfrom hto => exec_remapComplete_due hr hmine hfrom hto⟩
  · refine (exec_corridorTransfer_waiting hr wires hc hu ht).trans (congrArg _ (State.after_congr ?_))
    by_cases hack : t.isAck = true
    · exact (State.transfer_ack _ r dir group wires hack).trans (if_pos hack).symm
    · exact (State.transfer_token _ r dir group wires hack).trans (if_neg hack).symm
  · intro low high
    have hlow : low ↔ (failsLow && s.corr.state dir group != 3) = true := by simp [low]
    have hhigh : high ↔ (failsHigh && s.corr.state dir group != 2) = true := by simp [high]
    have hfree : ∀ r, ∀ t : Token, s.step.cur = some r → t ∈ r.tokens → s.onGroup r dir group t = false :=
      fun r t hcur hmem => s.onGroup_eq_false r dir group fun h => hwaits r h t hcur hmem
    refine ⟨fun hboth => ?_, fun hl hh hother => ?_, fun hl hh hother => ?_⟩
    · have hall : (failsOther || (failsLow && s.corr.state dir group != 3) &&
          (failsHigh && s.corr.state dir group != 2)) = true := by
        rw [Bool.or_eq_true, Bool.and_eq_true, ← hlow, ← hhigh]
        exact hboth
      have hfails : (failsLow && s.corr.state dir group != 3 || failsHigh && s.corr.state dir group != 2 || failsOther) =
          true := by
        rcases hboth with h | ⟨h, -⟩
        · simp [h]
        · simp [hlow.mp h]
      refine (exec_idlePatternBeat_idle hr hdir hgroup hruns hidle hfree rfl rfl hfails).trans ?_
      simp only [hall, if_true]
    · subst hother
      exact exec_idlePatternBeat_idle hr hdir hgroup hruns hidle hfree (hlow.mp hl) (Bool.eq_false_iff.mpr (mt hhigh.mpr hh)) rfl
    · subst hother
      exact exec_idlePatternBeat_idle hr hdir hgroup hruns hidle hfree (Bool.eq_false_iff.mpr (mt hlow.mpr hl)) (hhigh.mp hh) rfl

end Sys2Proof.Machine
end

section
/-! The hallway's packets (R272-R278, R286, R290): routers, responses that arrive, packets that grow old, drains. -/

namespace Sys2Proof.Machine

-- Time that passes leaves the limit of a tag.
@[simp] theorem State.elapse_tagLimit (s : State) (dt : Nat) : (s.elapse dt).tagLimit = s.tagLimit := rfl

/-! ### A packet at a router -/

/-- A router answers a request that it does not let through. -/
def State.refuseAt (s : State) (r : Nat) (p : Packet) (status : Nat) : State :=
  s.enterRouter r { p.response status 0 [] with ready := s.now }

/-- A router sends a packet on towards its goal; where none leads on, a request is answered NOROUTE (R277, R290). -/
def State.sendOn (s : State) (r : Nat) (p : Packet) : State :=
  match s.nextRouter r (p.goal r) with
  | some n => s.enterRouter n.1 (Packet.onLink { p with alt := p.alt || n.2 } r n.1)
  | none =>
    if 8 ≤ p.type then s
    else ((s.count Reg.NOC.ABORTS.NOROUTE 1).postLimited 0x0409 p.init sevError srcDevice
      (p.init + p.dest * 2 ^ 16)).refuseAt r p hsNoroute

section
variable {s : State} {r : Nat} {p : Packet}

theorem State.sendOn_some {n : Nat × Bool} (h : s.nextRouter r (p.goal r) = some n) :
    s.sendOn r p = s.enterRouter n.1 (Packet.onLink { p with alt := p.alt || n.2 } r n.1) := by
  simp only [State.sendOn, h]

theorem State.sendOn_none (h : s.nextRouter r (p.goal r) = none) :
    s.sendOn r p = if 8 ≤ p.type then s
      else ((s.count Reg.NOC.ABORTS.NOROUTE 1).postLimited 0x0409 p.init sevError srcDevice
        (p.init + p.dest * 2 ^ 16)).refuseAt r p hsNoroute := by
  simp only [State.sendOn, h]

theorem State.routePacket_badType (h : ¬ [1, 2, 8, 9, 0xA].contains p.type = true) :
    s.routePacket r p = s.count Reg.NOC.DISCARD.BADTYPE 1 :=
  if_pos (by rw [Bool.eq_false_iff.mpr h]; rfl)

variable (hk : [1, 2, 8, 9, 0xA].contains p.type = true)
include hk

theorem State.routePacket_expired (he : s.expired p = true) : s.routePacket r p = s.countExpired r :=
  (if_neg (by rw [hk]; decide)).trans (if_pos he)

/-- A packet of a known TYPE that is young enough is refused, delivered or sent on (R276-R278). -/
theorem State.routePacket_young (he : s.expired p = false) :
    s.routePacket r p =
      if p.type < 8 ∧ p.dest < 0x10 ∧ s.towerReady (p.dest % 8) = false then s.refuseAt r p hsReset
      else if p.goal r = r then s.deliverPacket r p else s.sendOn r p := by
  refine (if_neg (by rw [hk]; decide)).trans ((if_neg (ne_true_of_eq_false he)).trans ?_)
  simp only [Bool.not_eq_true']
  rfl

end

section
variable {s : State} {dt : Nat} (hr : s.inReset = false)
include hr

/-- A router in service routes the front packet, as its header reads where that passes its check (R272, R273). -/
theorem exec_packetAtRouter_front {router output : Nat} {response : Bool} (inverted : List Nat) {p : Packet}
    (hp : (s.elapse dt).pump.routerFront router output response = some p) (hup : (s.elapse dt).pump.routerUp router = true) :
    exec (.packetAtRouter dt router ⟨output, response, inverted⟩) s = .next (s.after dt fun u =>
      let v := u.pump.leaveRouter router p
      let h := inverted.foldl (fun (h : Nat) i => Nat.xor h (2 ^ i)) p.header
      if inverted = [] then v.routePacket router p
      else if headerOk h then v.routePacket router (p.withHeader h)
      else v.count Reg.NOC.DISCARD.HCHK 1) := by
  refine (show _ = execPacketAtRouter dt router ⟨output, response, inverted⟩ s from rfl).trans (State.event_eq hr dt _ _ ?_)
  simp only [hp]
  refine (State.whenever_true _ _ _ hup).trans ?_
  simp only [State.routeHeader, List.isEmpty_iff, Bool.not_eq_true', ← Bool.not_eq_true, ite_not]

/-! ### Responses -/

/-- An initiator discards its oldest response for its age, or takes it, stale or not, unless the buffer of its tag's wing port is
full (R284, R286, R289). -/
theorem exec_responseArrival_oldest {i : Nat} {p : Packet} (hx : s.noc.arrived.find? (fun x => x.1 = i) = some (i, p))
    (hroom : (s.elapse dt).expired p = true ∨
      (s.noc.tags.find? fun t => t.tag = p.tag ∧ t.gen = p.gen ∧ t.init = i ∧ t.quarantine = none).any
        (s.elapse dt).portFull = false) :
    exec (.responseArrival dt i) s = .next (s.after dt fun u =>
      let taken := { u with noc := { u.noc with arrived := u.noc.arrived.erase (i, p) } }
      if (s.elapse dt).expired p then taken.countExpired (p.goal 0)
      else (s.noc.tags.find? fun t => t.tag = p.tag ∧ t.gen = p.gen ∧ t.init = i ∧ t.quarantine = none).elim
        (taken.staleCompletion i) (taken.takeResponse i p)) := by
  refine (show _ = execResponseArrival dt i s from rfl).trans (State.event_eq hr dt _ _ ?_)
  simp only [State.elapse_noc, hx]
  generalize s.noc.tags.find? (fun t => t.tag = p.tag ∧ t.gen = p.gen ∧ t.init = i ∧ t.quarantine = none) = mine at hroom ⊢
  refine (State.whenever_true _ _ _ ?_).trans ?_
  · rcases hroom with h | h <;> simp [h]
  · cases mine <;> rfl

/-! ### Tags -/

/-- A tag whose limit has passed goes into quarantine, and its transaction completes with a timeout (R285). -/
theorem exec_tagTimeout_late {tag : Nat} {x : TagUse}
    (hx : s.noc.tags.find? (fun t => t.tag = tag ∧ t.quarantine = none) = some x)
    (hlate : x.entry + s.tagLimit ≤ s.now + dt) (hroom : (s.elapse dt).portFull x = false) :
    exec (.tagTimeout dt tag) s = .next (s.after dt fun u =>
      let tags := u.noc.tags.map fun (t : TagUse) => if t.tag = tag then { t with quarantine := some u.now } else t
      let v := ({ u with noc := { u.noc with tags := tags } }).count (Reg.NOC.INI.LAT.TIMEOUTS x.init) 1
      (v.postLimited 0x0406 x.init sevWarn srcDevice x.init).transactionDone x.purpose x.init tag x.write hsTimeout
        (if x.write then [] else onesFor x.words)) := by
  refine (show _ = execTagTimeout dt tag s from rfl).trans (State.event_eq hr dt _ _ ?_)
  simp only [State.elapse_noc, hx]
  exact State.whenever_true _ _ _ (by simp [hlate, hroom])

/-- A tag is free with its next generation once its quarantine is over (R285). -/
theorem exec_quarantineEnd_over {tag : Nat} {x : TagUse}
    (hx : s.noc.tags.find? (fun t => t.tag = tag && t.quarantine.any fun q => decide (q + 64 * fsUs ≤ s.now + dt)) = some x) :
    exec (.quarantineEnd dt tag) s = .next (s.after dt fun u =>
      let v := { u with noc := { u.noc with
        tags := u.noc.tags.filter fun t => t.tag ≠ tag
        gens := u.noc.gens.upd 0 tag ((u.noc.gens.at 0 tag + 1) % 4) } }
      (v.tagSync x.init).pump) := by
  refine (show _ = execQuarantineEnd dt tag s from rfl).trans (State.event_eq hr dt _ _ ?_)
  rw [← s.elapse_now dt] at hx
  simp only [State.elapse_noc, hx]

/-! ### Old packets -/

section
variable {router : Nat} {x : Nat × Packet}

theorem exec_packetExpiry_router
    (hx : (s.elapse dt).noc.routers.find? (fun x => x.1 = router && (s.elapse dt).expired x.2) = some x) :
    exec (.packetExpiry dt router) s = .next (s.after dt fun u => (u.leaveRouter router x.2).countExpired router) := by
  refine (show _ = execPacketExpiry dt router s from rfl).trans (State.event_eq hr dt _ _ ?_)
  simp only [hx]

variable (hrouters : (s.elapse dt).noc.routers.find? (fun x => x.1 = router && (s.elapse dt).expired x.2) = none)
include hrouters

theorem exec_packetExpiry_target
    (hx : (s.elapse dt).noc.targets.find? (fun x => (s.elapse dt).responseRouter x.1 x.2 = router &&
      (s.elapse dt).expired x.2 && !(s.elapse dt).g6.answered.contains x.2) = some x) :
    exec (.packetExpiry dt router) s = .next (s.after dt fun u =>
      let v := (u.leaveTarget x).countExpired router
      if 0x20 ≤ x.1 then v.rtSync (x.1 - 0x20) else v) := by
  refine (show _ = execPacketExpiry dt router s from rfl).trans (State.event_eq hr dt _ _ ?_)
  simp only [hrouters, hx]

theorem exec_packetExpiry_initiator
    (htargets : (s.elapse dt).noc.targets.find? (fun x => (s.elapse dt).responseRouter x.1 x.2 = router &&
      (s.elapse dt).expired x.2 && !(s.elapse dt).g6.answered.contains x.2) = none)
    (hx : (s.elapse dt).noc.arrived.find? (fun x => x.2.goal router = router && (s.elapse dt).expired x.2) = some x) :
    exec (.packetExpiry dt router) s = .next (s.after dt fun u =>
      ({ u with noc := { u.noc with arrived := u.noc.arrived.erase x } }).countExpired router) := by
  refine (show _ = execPacketExpiry dt router s from rfl).trans (State.event_eq hr dt _ _ ?_)
  simp only [hrouters, htargets, hx]

end

/-! ### Drains -/

/-- A drain ends with the last packet of the tower's routers, or after 10 µs (R290). -/
theorem exec_drainEnd_due {tower since next : Nat}
    (hd : s.noc.drains.find? (fun d => d.1 = tower) = some (tower, since, next))
    (hdue : (∀ x ∈ s.noc.routers, x.1 ∉ towerRouters tower) ∨ since + 10 * fsUs ≤ s.now + dt) :
    exec (.drainEnd dt tower) s = .next (s.after dt fun u => u.drainEnds tower) := by
  refine (show _ = execDrainEnd dt tower s from rfl).trans (State.event_eq hr dt _ _ ?_)
  simp only [State.elapse_noc, hd]
  refine State.whenever_true _ _ _ ?_
  rcases hdue with hempty | hlate
  · simpa using .inl fun a b hmem => hempty (a, b) hmem
  · simp [hlate]

end

/-- Settles O51: a packet by what its router finds, each event by the response, tag, packet or drain that it is about. -/
theorem packetsAndTagsMove : Obligations.PacketsAndTagsMove := by
  refine ⟨fun s dt router output response inverted p hr hp hup => exec_packetAtRouter_front hr inverted hp hup,
    fun v r p => ?_, fun s dt i p hr hx => ?_,
    fun s dt tag x hr => ⟨exec_tagTimeout_late hr, exec_quarantineEnd_over hr⟩,
    fun s dt router hr => ⟨fun x => exec_packetExpiry_router hr, fun x => exec_packetExpiry_target hr,
      fun x => exec_packetExpiry_initiator hr⟩,
    fun s dt tower since next hr hd hdue => exec_drainEnd_due hr hd hdue⟩
  · intro known cut refused
    refine ⟨State.routePacket_badType, State.routePacket_expired, fun hk he hc => ?_, fun hk he hc hg => ?_,
      fun n hk he hc hg hn => ?_, fun hk he hc hg hn => ?_⟩
    all_goals refine (State.routePacket_young hk he).trans ?_
    · exact if_pos hc
    · exact (if_neg hc).trans (if_pos hg)
    · exact (if_neg hc).trans ((if_neg hg).trans (State.sendOn_some hn))
    · exact (if_neg hc).trans ((if_neg hg).trans (State.sendOn_none hn))
  · intro old taken mine
    refine ⟨fun he => ?_, fun x he hm hroom => ?_, fun he hm => ?_⟩
    · exact (exec_responseArrival_oldest hr hx (.inl he)).trans (congrArg _ (State.after_congr (if_pos he)))
    · refine (exec_responseArrival_oldest hr hx (.inr ((congrArg (Option.any _) hm).trans hroom))).trans
        (congrArg _ (State.after_congr ?_))
      exact (if_neg (ne_true_of_eq_false he)).trans (congrArg (Option.elim · _ _) hm)
    · refine (exec_responseArrival_oldest hr hx (.inr (congrArg (Option.any _) hm))).trans
        (congrArg _ (State.after_congr ?_))
      exact (if_neg (ne_true_of_eq_false he)).trans (congrArg (Option.elim · _ _) hm)

end Sys2Proof.Machine
end

section
/-! NOC_QUOTA (R283, R296, R298): what it is granted and waits for, the quotas that apply, and its timeout. -/

namespace Sys2Proof.Machine

/-! ### The command -/

/-- A list without a repetition keeps every element. -/
theorem eraseDups_of_nodup {l : List Nat} (h : l.Nodup) : l.eraseDups = l := by
  induction l with
  | nil => rfl
  | cons a l ih =>
    obtain ⟨ha, hl⟩ := List.nodup_cons.mp h
    have hkept : (l.filter fun b => !b == a) = l := List.filter_eq_self.mpr fun b hb => by
      have hne : b ≠ a := fun he => ha (he ▸ hb)
      simpa using hne
    rw [List.eraseDups_cons, hkept, ih hl]

/-- An entry of a NOC_QUOTA that R296 and R298 allow: initiator, tags, urgency, reservation. -/
structure QuotaAllowed (s : State) (e : Nat × Nat × Nat × Nat) : Prop where
  initiator : e.1 ≤ 1027
  blocks : 16 ∣ e.2.1
  reserve : e.2.2.2 ≤ 10
  least : e.1 = iniPcie ∨ e.1 = iniConfig ∨ e.1 = iniTrace → 256 ≤ e.2.1
  keeper : e.1 = iniKeeper → e.2.1 = s.rd (Reg.NOC.INI.TAGS.QUOTA iniKeeper) ∧
    e.2.2.1 = s.rd (Reg.NOC.INI.TAGS.URG iniKeeper) ∧ e.2.2.2 = s.rd (Reg.NOC.INI.TAGS.RESERVE iniKeeper)

theorem QuotaAllowed.notBad {s : State} {e : Nat × Nat × Nat × Nat} (h : QuotaAllowed s e) : s.quotaBad e = false := by
  obtain ⟨hinit, hblocks, hreserve, hleast, hkeeper⟩ := h
  simp only [State.quotaBad, Bool.or_eq_false_iff, Bool.and_eq_false_iff, decide_eq_false_iff_not]
  refine ⟨⟨⟨⟨Nat.not_lt.mpr hinit, not_not.mpr (Nat.mod_eq_zero_of_dvd hblocks)⟩, Nat.not_lt.mpr hreserve⟩, ?_⟩, ?_⟩
  · by_cases hk : e.1 = iniKeeper
    · obtain ⟨htags, hurg, hres⟩ := hkeeper hk
      exact .inr (by simp [hk, htags, hurg, hres])
    · exact .inl (beq_eq_false_iff_ne.mpr hk)
  · by_cases hl : e.1 = iniPcie ∨ e.1 = iniConfig ∨ e.1 = iniTrace
    · exact .inr (Nat.not_lt.mpr (hleast hl))
    · exact .inl (by simpa using hl)

/-- A NOC_QUOTA that nothing refuses (R296, R298). -/
structure QuotasAllowed (c : Cmd) (s : State) : Prop where
  word0 : onlyBits c.payload 0 [(10, 0)] = true
  some : 1 ≤ c.f 0 10 0
  most : c.f 0 10 0 ≤ 1028
  words : ∀ i < c.f 0 10 0, onlyBits c.payload (1 + i) [(10, 0), (32, 16), (42, 40), (51, 48)] = true
  distinct : (c.quotas.map Prod.fst).Nodup
  entries : ∀ e ∈ c.quotas, QuotaAllowed s e
  tags : s.quotaTotal c.quotas ≤ 65536
  bu : s.quotaRise c.quotas ≤ s.freeBu

/-- A NOC_QUOTA waits with the rise of its reservations granted (R298). -/
def State.quotaWaits (s : State) (c : Cmd) : State :=
  let t := s.grantAlways 0x08 (s.quotaRise c.quotas)
  { t with noc := { s.noc with
    quotas := s.noc.quotas ++ [{ cmd := c.id, entries := c.quotas, began := s.now, bu := s.quotaRise c.quotas }] } }

theorem nocQuotaBody_ok {c : Cmd} (hf : c.fail = none) {s : State} (h : QuotasAllowed c s) :
    nocQuotaBody c s = s.quotaWaits c := by
  obtain ⟨hword0, hsome, hmost, hwords, hdistinct, hentries, htags, hbu⟩ := h
  have hw0 : badBits (c.w 0) [(10, 0)] = false := (onlyBits_iff _ _ _).mp hword0
  have hws : (List.range (c.f 0 10 0)).any (fun i => badBits (c.w (1 + i)) [(10, 0), (32, 16), (42, 40), (51, 48)]) = false :=
    List.any_eq_false.mpr fun i hi => ne_true_of_eq_false ((onlyBits_iff _ _ _).mp (hwords i (List.mem_range.mp hi)))
  have hes : c.quotas.any s.quotaBad = false :=
    List.any_eq_false.mpr fun e he => ne_true_of_eq_false (hentries e he).notBad
  have hnames : (c.quotas.map fun e => e.1).eraseDups.length = c.f 0 10 0 := by
    rw [eraseDups_of_nodup hdistinct, Cmd.quotas, List.length_map, List.length_map, List.length_range]
  unfold nocQuotaBody
  refine State.checked_pass s c _ _ hf ?_
  simp [hw0, hws, hes, hnames, hmost, htags, hbu]
  omega

/-! ### Its end -/

section
variable {s : State} {dt : Nat} (hr : s.inReset = false) {q : QuotaJob}
include hr

/-- The oldest NOC_QUOTA that can apply does (R298). -/
theorem exec_nocQuotaApply_ready (hq : s.noc.quotas.find? s.quotaReady = some q) :
    exec (.nocQuotaApply dt) s = .next (s.after dt fun u =>
      let t := (u.ungrant 0x08 (q.bu + u.quotaFall q.entries)).grantAlways 0x08 (u.quotaRise q.entries)
      let t := t.applyQuotas q.entries
      let t := ({ t with noc := { t.noc with quotas := t.noc.quotas.erase q } }).freeTagSync
      (t.complete q.cmd stOk 0 []).pump) := by
  have hq' : (s.elapse dt).noc.quotas.find? (s.elapse dt).quotaReady = some q := hq
  refine (show _ = execNocQuotaApply dt s from rfl).trans (State.event_eq hr dt _ _ ?_)
  simp only [hq']

/-- A NOC_QUOTA that has waited 10 ms ends BUSY (R298). -/
theorem exec_nocQuotaTimeout_late (hq : s.noc.quotas.find? (fun q => decide (q.began + 10 * fsMs ≤ s.now + dt)) = some q) :
    exec (.nocQuotaTimeout dt) s = .next (s.after dt fun u =>
      let t := u.ungrant 0x08 q.bu
      ({ t with noc := { t.noc with quotas := t.noc.quotas.erase q } }).complete q.cmd stBusy 0 []) := by
  refine (show _ = execNocQuotaTimeout dt s from rfl).trans (State.event_eq hr dt _ _ ?_)
  rw [← s.elapse_now dt] at hq
  simp only [State.elapse_noc, hq]
  rfl

end

/-- Settles O52: NOC_QUOTA by its meaning where nothing refuses it, its end by the oldest that can apply or is late. -/
theorem nocQuotaWaitsAndApplies : Obligations.NocQuotaWaitsAndApplies := by
  refine ⟨fun s dt h ws => ?_, fun s dt q hr => ⟨exec_nocQuotaApply_ready hr, exec_nocQuotaTimeout_late hr⟩⟩
  intro v n es ha hword0 hsome hmost hwords hdistinct hentries htags hbu
  refine exec_accepted rfl ha nocQuotaCmd rfl (fun hl => beq_iff_eq.mpr (of_decide_eq_true hl)) rfl rfl _
    fun c u hf hp _ hu => ?_
  subst hp hu
  refine nocQuotaBody_ok hf ⟨hword0, hsome, hmost, hwords, hdistinct, fun e he => ?_, htags, hbu⟩
  obtain ⟨hinit, hblocks, hreserve, hleast, hkeeper⟩ := hentries e he
  exact ⟨hinit, hblocks, hreserve, hleast, hkeeper⟩

end Sys2Proof.Machine
end

section
/-! The GDDR6 commands and events (R312-R337): G6_INIT and its end, G6_MAP, G6_QOS, requests, refresh, self-refresh, retraining. -/

namespace Sys2Proof.Machine

/-! ### G6_INIT -/

/-- The operands of a G6_INIT that R336 allows. -/
structure TrainingAllowed (c : Cmd) : Prop where
  word0 : onlyBits c.payload 0 [(0, 0), (9, 4), (23, 16), (47, 32)] = true
  word1 : onlyBits c.payload 1 [(19, 0), (41, 32)] = true
  rate : 14 ≤ c.f 0 23 16 ∧ c.f 0 23 16 ≤ 20
  sridle : 1 ≤ c.f 1 19 0 ∧ c.f 1 19 0 ≤ 1000000
  trainper : 1 ≤ c.f 1 41 32 ∧ c.f 1 41 32 ≤ 1000

section
variable {c : Cmd} (hf : c.fail = none) (ha : TrainingAllowed c) {u : State} (hidle : u.g6.job = none)
include hf ha hidle

/-- A full G6_INIT marks the requests that are queued, takes its BU and puts every controller in training (R319, R335, R337). -/
theorem g6InitBody_full (hfull : c.b 0 0 = false) (hstep : u.stepping = false) (hregions : u.g6.regions = [])
    (hfits : u.fits 0x0F (g6Bu (c.f 0 23 16) (c.b 0 5) (c.b 0 6)) = true) :
    g6InitBody c u =
      let j : G6Job :=
        { cmd := c.id, map := u.g6.pend
          older := (List.range 8).foldl (fun (m : Cells Nat) k => m.upd 0 k (u.g6Queue k).length) []
          full := true, word0 := c.w 0, channels := c.f 0 47 32, left := [], failed := 0, sridle := c.f 1 19 0
          trainper := c.f 1 41 32 }
      (List.range 8).foldl (fun (t : State) k => t.setCtrl k 1)
        (State.setHeld { u with g6 := { u.g6 with job := some j } } 0x0F (g6Bu (c.f 0 23 16) (c.b 0 5) (c.b 0 6))) := by
  obtain ⟨hw0, hw1, ⟨hr14, hr20⟩, ⟨hs1, hs⟩, ht1, ht⟩ := ha
  unfold g6InitBody
  refine (State.checked_pass u c _ _ hf ?_).trans ?_
  · simp [Cmd.reserved_two rfl hw0 hw1, hr20, hs, ht, hfull, hstep, hidle, hregions, hfits]
    omega
  · simp only [hfull, Bool.not_false, if_true]

/-- A RETRAIN begins with the first channel of each porch that it names (R320, R336). -/
theorem g6InitBody_retrain (hretrain : c.b 0 0 = true) (hchannels : c.f 0 47 32 ≠ 0) :
    g6InitBody c u =
      let j : G6Job :=
        { cmd := c.id, map := u.g6.pend, older := [], full := false, word0 := c.w 0, channels := c.f 0 47 32
          left := (List.range 16).filter (bit (c.f 0 47 32)), failed := 0, sridle := c.f 1 19 0, trainper := c.f 1 41 32 }
      State.retrainSync { u with g6 := { u.g6 with job := some j } } := by
  obtain ⟨hw0, hw1, ⟨hr14, hr20⟩, ⟨hs1, hs⟩, ht1, ht⟩ := ha
  unfold g6InitBody
  refine (State.checked_pass u c _ _ hf ?_).trans ?_
  · simp [Cmd.reserved_two rfl hw0 hw1, hr20, hs, ht, hretrain, hidle, hchannels]
    omega
  · simp only [hretrain, Bool.not_true, Bool.false_eq_true, if_false]

end

/-! ### G6_MAP -/

section
variable {c : Cmd} (hf : c.fail = none) (hgood : c.g6mapBad = false)
include hf hgood

theorem g6MapBody_set (u : State) (hop : c.f 0 1 0 = 0) :
    g6MapBody c u = ({ u with g6 := { u.g6 with pend := c.g6map } }).ok c [] := by
  unfold g6MapBody
  refine (State.checked_pass u c _ _ hf ?_).trans ?_
  · simp [hgood, hop]
  · simp only [hop, if_true]

/-- OP 1 reads the active map, and the regions with it (R313, R336). -/
theorem g6MapBody_read {u : State} (hop : c.f 0 1 0 = 1) {m : G6Map} (hm : u.g6.active = some m) :
    g6MapBody c u = u.ok c (m.toWords ++ (List.range 16).flatMap fun i => u.regionWords i) := by
  unfold g6MapBody
  refine (State.checked_pass u c _ _ hf ?_).trans ?_
  · simp [hgood, hop]
  · simp only [hop, hm, one_ne_zero, if_true, if_false]

/-- A map that no full G6_INIT has set reads open values. -/
theorem g6MapBody_readOpen {u : State} (hop : c.f 0 1 0 = 1) (hm : u.g6.active = none) :
    g6MapBody c u = u.openMap.2.ok c (u.openMap.1 ++ (List.range 16).flatMap fun i => u.regionWords i) := by
  unfold g6MapBody
  refine (State.checked_pass u c _ _ hf ?_).trans ?_
  · simp [hgood, hop]
  · simp only [hop, hm, one_ne_zero, if_true, if_false]

theorem g6MapBody_release {u : State} (hop : c.f 0 1 0 = 2) {r : Region} (hr : u.regionAt (c.f 1 3 0) = some r)
    (howner : r.owner = .state) (hsaved : ∀ x, u.g6.save = some x → x.2.1 ≠ r.base) :
    g6MapBody c u =
      ({ u with g6 := { u.g6 with regions := u.g6.regions.filter fun r => r.1 ≠ c.f 1 3 0 } }).ok c [] := by
  have hsaving : (u.g6.save.any fun v => r.base == v.2.1) = false := by
    cases hs : u.g6.save with
    | none => rfl
    | some x => exact beq_eq_false_iff_ne.mpr (hsaved x hs).symm
  unfold g6MapBody
  refine (State.checked_pass u c _ _ hf ?_).trans ?_
  · simp [hgood, hr, howner, hsaving]
  · simp [hop]

end

/-! ### G6_QOS -/

/-- The operands of a G6_QOS that R329 and R336 allow. -/
structure BindingAllowed (c : Cmd) : Prop where
  word0 : onlyBits c.payload 0 [(2, 0), (5, 4), (8, 8), (25, 16), (41, 32), (52, 48)] = true
  levels : c.f 0 41 32 < c.f 0 25 16
  most : c.f 0 52 48 ≤ 16
  words : ∀ i < c.f 0 52 48, onlyBits c.payload (1 + i) [(10, 0)] = true
  inits : ∀ x ∈ c.qosInits, x ≤ 1027

/-- A port's settings and binding are replaced where no other port of the controller has one of the initiators (R329). -/
theorem g6QosBody_ok {c : Cmd} (hf : c.fail = none) (ha : BindingAllowed c) {u : State}
    (hother : ∀ r ∈ u.g6.rt, r.ctrl = c.f 0 2 0 → r.port ≠ c.f 0 5 4 → ∀ x ∈ r.inits, x ∉ c.qosInits) :
    g6QosBody c u =
      let k := c.f 0 2 0
      let j := c.f 0 5 4
      let t := (u.wrb (Reg.MEM.RT.ENABLE (k / 4) (k % 4) j) (c.b 0 8)).wr (Reg.MEM.RT.HI (k / 4) (k % 4) j) (c.f 0 25 16)
      let t := t.wr (Reg.MEM.RT.LO (k / 4) (k % 4) j) (c.f 0 41 32)
      let rest := t.g6.rt.filter fun r => !(r.ctrl == k && r.port == j)
      (({ t with g6 := { t.g6 with rt := rest ++ [RtPort.mk k j c.qosInits] } }).rtSync k).ok c [] := by
  obtain ⟨hword0, hlevels, hmost, hwords, hinits⟩ := ha
  have hw0 : badBits (c.w 0) [(2, 0), (5, 4), (8, 8), (25, 16), (41, 32), (52, 48)] = false := (onlyBits_iff _ _ _).mp hword0
  have hws : (List.range (c.f 0 52 48)).any (fun x => badBits (c.w (1 + x)) [(10, 0)]) = false :=
    List.any_eq_false.mpr fun i hi => ne_true_of_eq_false ((onlyBits_iff _ _ _).mp (hwords i (List.mem_range.mp hi)))
  have his : c.qosInits.any (fun x => decide (1027 < x)) = false :=
    List.any_eq_false.mpr fun x hx => by simpa using hinits x hx
  have htaken : (u.g6.rt.any fun r =>
      r.ctrl == c.f 0 2 0 && r.port != c.f 0 5 4 && r.inits.any c.qosInits.contains) = false :=
    List.any_eq_false.mpr fun r hr => by simpa using hother r hr
  unfold g6QosBody
  refine State.checked_pass u c _ _ hf ?_
  simp [hw0, hws, his, htaken, hmost, hlevels]

/-! ### The events -/

/-- A RETRAIN trains only channels that it has still to train. -/
theorem G6Job.trains_mem {j : G6Job} {ch : Nat} (h : j.trains ch = true) : ch ∈ j.left := by
  obtain ⟨-, hfirst⟩ := Bool.and_eq_true_iff.mp h
  exact List.mem_of_find?_eq_some (beq_iff_eq.mp hfirst)

-- Time that passes changes neither what a controller does nor what waits at it.
@[simp] theorem State.elapse_g6Queue (s : State) (dt k : Nat) : (s.elapse dt).g6Queue k = s.g6Queue k := rfl
@[simp] theorem State.elapse_ctrl (s : State) (dt k : Nat) : (s.elapse dt).ctrl k = s.ctrl k := rfl
@[simp] theorem State.elapse_chanDown (s : State) (dt ch : Nat) : (s.elapse dt).chanDown ch = s.chanDown ch := rfl
@[simp] theorem State.elapse_refreshes (s : State) (dt ch : Nat) : (s.elapse dt).refreshes ch = s.refreshes ch := rfl
@[simp] theorem State.elapse_refreshPeriod (s : State) (dt : Nat) : (s.elapse dt).refreshPeriod = s.refreshPeriod := rfl

section
variable {s : State} {dt : Nat} (hr : s.inReset = false)
include hr

theorem exec_g6InitComplete {j : G6Job} (hj : s.g6.job = some j) (holder : j.older = []) (failed : Nat) :
    exec (.g6InitComplete dt failed) s = .next (s.after dt fun u =>
      if j.full then u.fullEnds j (failed % 65536) else u.retrainEnds j (failed % 65536)) := by
  refine (show _ = execG6InitComplete dt failed s from rfl).trans (State.event_eq hr dt _ _ ?_)
  simp only [State.elapse_g6, hj]
  exact State.whenever_true _ _ _ (List.isEmpty_iff.mpr holder)

/-- A controller serves the request whose turn it is, unless a RETRAIN trains its channel (R320). -/
theorem exec_g6Request {k : Nat} (hk : k < 8) {x : Packet × Option Nat} (hx : (s.elapse dt).g6Turn k = some x)
    (hfree : ∀ j, s.g6.job = some j → j.trains ((s.elapse dt).g6Chan x.1.addr) = false) (link : LinkEnd) (find : LineFind) :
    exec (.g6Request dt k link find) s = .next (s.after dt fun u =>
      u.serveG6 k x.1 x.2 link find.changed find.rootBad) := by
  have hidle : (s.g6.job.any fun j => j.trains ((s.elapse dt).g6Chan x.1.addr)) = false :=
    (Option.any_eq_false _ _).mpr hfree
  refine (show _ = execG6Request dt k link find s from rfl).trans (State.event_eq hr dt _ _ ?_)
  simp only [hx]
  exact State.whenever_true _ _ _ (by simp [hk, hidle])

theorem exec_refreshDue {ch bank : Nat} (hch : ch < 16) (hbank : bank < 16) (hon : s.refreshes ch = true)
    (hdue : s.g6.refreshAt.at 0 (16 * ch + bank) + s.refreshPeriod ≤ s.now + dt) :
    exec (.refreshDue dt ch bank) s = .next (s.after dt fun u => u.refreshed ch (u.refreshBanks ch bank)) := by
  refine (show _ = execRefreshDue dt ch bank s from rfl).trans (State.event_eq hr dt _ _ ?_)
  exact State.whenever_true _ _ _ (by simp [hch, hbank, hon, hdue])

theorem exec_selfRefreshEntry {k : Nat} (hk : k < 8) (hqueue : s.g6Queue k = [])
    (hidle : ∀ c ∈ [2 * k, 2 * k + 1], s.g6.lastAccess.at 0 c + s.g6.sridle * fsUs ≤ s.now + dt) :
    exec (.selfRefreshEntry dt k) s = .next (s.after dt fun u => u.selfRefresh k) := by
  have hlong : ([2 * k, 2 * k + 1].all fun c =>
      decide ((s.elapse dt).g6.lastAccess.at 0 c + (s.elapse dt).g6.sridle * fsUs ≤ (s.elapse dt).now)) = true :=
    List.all_eq_true.mpr fun c hc => decide_eq_true (hidle c hc)
  refine (show _ = execSelfRefreshEntry dt k s from rfl).trans (State.event_eq hr dt _ _ ?_)
  exact State.whenever_true _ _ _ (by rw [hlong]; simp [hk, hqueue])

theorem exec_retrainDue_trains {ch : Nat} {j : G6Job} (hj : s.g6.job = some j) (ht : j.trains ch = true) (ok : Bool) :
    exec (.retrainDue dt ch ok) s = .next (s.after dt fun u => u.channelDone ch ok) := by
  refine (show _ = execRetrainDue dt ch ok s from rfl).trans (State.event_eq hr dt _ _ ?_)
  simp only [State.elapse_g6, hj, Option.any_some, ht, if_true]

/-- A periodic retraining takes place where it is due and no RETRAIN has a channel of its porch still to train (R320). -/
theorem exec_retrainDue_periodic {ch : Nat} (hfree : ∀ j, s.g6.job = some j → ∀ c ∈ j.left, c / 8 ≠ ch / 8) (hch : ch < 16)
    (hup : s.chanDown ch = false) (hdue : s.g6.lastTrain.at 0 ch + s.g6.trainper * fsMs ≤ s.now + dt) (ok : Bool) :
    exec (.retrainDue dt ch ok) s = .next (s.after dt fun u => u.retrainFalls ch ok) := by
  have htrains : (s.g6.job.any fun j => j.trains ch) = false :=
    (Option.any_eq_false _ _).mpr fun j hj => Bool.eq_false_iff.mpr fun ht => hfree j hj ch (G6Job.trains_mem ht) rfl
  have hporch : (s.g6.job.any fun j => j.left.any fun c => c / 8 = ch / 8) = false :=
    (Option.any_eq_false _ _).mpr fun j hj => List.any_eq_false.mpr fun c hc => by simpa using hfree j hj c hc
  refine (show _ = execRetrainDue dt ch ok s from rfl).trans (State.event_eq hr dt _ _ ?_)
  simp only [State.elapse_g6, htrains, hporch, Bool.false_eq_true, if_false]
  exact State.whenever_true _ _ _ (by simp [hch, hdue, hup])

end

/-- In self-refresh a periodic retraining is put off to the exit (R318). -/
theorem State.retrainFalls_selfRefresh {s : State} {ch : Nat} (h : s.ctrl (ch / 2) = 3) (ok : Bool) :
    s.retrainFalls ch ok =
      { s with g6 := { s.g6 with trainOwed := (ch, ok) :: s.g6.trainOwed.filter fun c => c.1 ≠ ch } } := by
  simp only [State.retrainFalls, h, if_true]

/-- On a controller that serves, a periodic retraining takes place, and a failure takes the channel down (R321). -/
theorem State.retrainFalls_ready {s : State} {ch : Nat} (h : s.ctrl (ch / 2) = 2) (ok : Bool) :
    s.retrainFalls ch ok =
      let trained := { s with g6 := { s.g6 with lastTrain := s.g6.lastTrain.upd 0 ch s.now } }
      if ok then trained else trained.channelDown ch := by
  simp [State.retrainFalls, h]

/-! ### The commands' rows -/

section
variable {s : State} {dt : Nat} {h : CmdHdr} {ws : List Word}

/-- An accepted G6_INIT has the effect of its meaning. -/
theorem exec_g6Init (ha : s.accepts dt h (decide (ws.length = 2)) false false = true) (effect : Cmd → State → State)
    (he : ∀ c, c.fail = none → c.payload = ws → g6InitBody c ((s.elapse dt).begun 0x0501 h ws) =
      effect c ((s.elapse dt).begun 0x0501 h ws)) :
    exec (.g6Init dt h ws) s = .next (s.afterCmd dt 0x0501 h ws effect) :=
  exec_accepted rfl ha g6InitCmd rfl exactly_of_length rfl rfl _ fun c u hf hp _ hu => by
    subst hu
    exact he c hf hp

/-- An accepted G6_MAP has the effect of its meaning. -/
theorem exec_g6Map (ha : s.accepts dt h (g6MapLen ws) false false = true) (hgood : (s.cmdOf 0x0502 h ws).g6mapBad = false)
    (effect : Cmd → State → State)
    (he : ∀ c, c.fail = none → c.g6mapBad = false → c.payload = ws → g6MapBody c ((s.elapse dt).begun 0x0502 h ws) =
      effect c ((s.elapse dt).begun 0x0502 h ws)) :
    exec (.g6Map dt h ws) s = .next (s.afterCmd dt 0x0502 h ws effect) :=
  exec_accepted rfl ha g6MapCmd rfl id rfl rfl _ fun c u hf hp hc hu => by
    subst hu
    exact he c hf (hc ▸ hgood) hp

end

/-- Settles O53: each command by its meaning where nothing refuses it, each event by the condition under which it happens. -/
theorem gddr6Acts : Obligations.Gddr6Acts := by
  refine ⟨fun s dt h ws => ?_, fun s dt failed j hr hj holder => exec_g6InitComplete hr hj holder failed,
    fun s dt h ws => ?_, fun s dt h ws => ?_,
    fun s dt k x link changed rootBad hr hk hx hfree => exec_g6Request hr hk hx hfree link ⟨changed, rootBad⟩,
    fun s dt ch bank hr hch hbank hon hdue => exec_refreshDue hr hch hbank hon hdue,
    fun s dt k hr hk hqueue hidle => exec_selfRefreshEntry hr hk hqueue hidle,
    fun s dt ch ok hr => ⟨fun j hj ht => exec_retrainDue_trains hr hj ht ok, fun hfree hch hup hdue => ?_⟩⟩
  · intro v full rate sridle trainper bu ha hword0 hword1 hr14 hr20 hs1 hs ht1 ht hidle
    have hallowed : ∀ c : Cmd, c.payload = ws → TrainingAllowed c := by
      rintro c rfl
      exact ⟨hword0, hword1, ⟨hr14, hr20⟩, ⟨hs1, hs⟩, ht1, ht⟩
    refine ⟨fun hfull hstep hregions hfits => exec_g6Init ha _ fun c hf hp => ?_,
      fun hfull hchannels => exec_g6Init ha _ fun c hf hp => ?_⟩
    · have hc := hallowed c hp
      subst hp
      exact g6InitBody_full hf hc hidle (Bool.not_eq_true' _ ▸ hfull) hstep hregions hfits
    · have hc := hallowed c hp
      subst hp
      exact g6InitBody_retrain hf hc hidle (Bool.not_eq_false' _ ▸ hfull) hchannels
  · intro v op entry ha hgood
    refine ⟨fun hop => exec_g6Map ha hgood _ fun c hf hg hp => ?_,
      fun m hop hm => exec_g6Map ha hgood _ fun c hf hg hp => ?_,
      fun hop hm => exec_g6Map ha hgood _ fun c hf hg hp => ?_,
      fun r hop hregion howner hsaved => exec_g6Map ha hgood _ fun c hf hg hp => ?_⟩
    · subst hp
      exact g6MapBody_set hf hg _ hop
    · subst hp
      exact g6MapBody_read hf hg hop hm
    · subst hp
      exact g6MapBody_readOpen hf hg hop hm
    · subst hp
      exact g6MapBody_release hf hg hop hregion howner hsaved
  · intro v k j n inits ha hword0 hlevels hmost hwords hinits hother
    refine exec_accepted rfl ha g6QosCmd rfl (fun hl => beq_iff_eq.mpr (of_decide_eq_true hl)) rfl rfl _
      fun c u hf hp _ hu => ?_
    subst hp hu
    exact g6QosBody_ok hf ⟨hword0, hlevels, hmost, hwords, hinits⟩ hother
  · have hfalls := exec_retrainDue_periodic hr hfree hch hup hdue ok
    refine ⟨fun hctrl => hfalls.trans ?_, fun hctrl => hfalls.trans ?_⟩
    · exact congrArg _ (State.after_congr (State.retrainFalls_selfRefresh ((s.elapse_ctrl dt _).trans hctrl) ok))
    · exact congrArg _ (State.after_congr (State.retrainFalls_ready ((s.elapse_ctrl dt _).trans hctrl) ok))

end Sys2Proof.Machine
end

section
/-! The configuration stream (R342, R525-R531): CFG_BEGIN, CFG_END of a stream that has failed or has not arrived whole, CFG_ABORT
and the stream's timeout. -/

namespace Sys2Proof.Machine

/-! ### What the start of a command leaves -/

section
variable (s : State) (op : Nat) (h : CmdHdr) (ws : List Word)

theorem State.begun_stepping : (s.begun op h ws).stepping = s.stepping := by
  unfold State.stepping; rw [State.begun_engine]

theorem State.begun_tripped : (s.begun op h ws).tripped = s.tripped := s.begun_rdb op h ws (by decide)

theorem State.begun_streamOpen : (s.begun op h ws).streamOpen = s.streamOpen := by
  unfold State.streamOpen; rw [State.begun_cfg]

theorem State.begun_freeBu : (s.begun op h ws).freeBu = s.freeBu := by
  unfold State.freeBu State.cap
  rw [State.begun_ledger, State.begun_rd _ _ _ _ (by decide)]

theorem State.begun_allReady : (s.begun op h ws).allReady = s.allReady := by
  unfold State.allReady State.towerReady
  rw [State.begun_rd _ _ _ _ (by decide)]

end

/-! ### CFG_BEGIN -/

theorem Cmd.reserved_three {c : Cmd} {ws : List Word} (h : c.payload = ws) {f g k : List (Nat × Nat)}
    (hf : onlyBits ws 0 f = true) (hg : onlyBits ws 1 g = true) (hk : onlyBits ws 2 k = true) : c.reserved [f, g, k] = false := by
  rw [onlyBits_iff] at hf hg hk
  simp only [Cmd.reserved, Cmd.w_of h, List.zipIdx_cons, List.zipIdx_nil, List.any_cons, List.any_nil, hf, hg, hk, Bool.or_false]

theorem onlyBits_whole_word (ws : List Word) (i : Nat) : onlyBits ws i [(63, 0)] = true :=
  (onlyBits_iff _ _ _).mpr (badBits_whole_word _)

/-- The operands of a CFG_BEGIN that R542 allows. -/
structure OpeningAllowed (c : Cmd) : Prop where
  word0 : onlyBits c.payload 0 [(0, 0)] = true
  word2 : onlyBits c.payload 2 [(19, 0)] = true
  timeout : 100 ≤ c.f 2 19 0 ∧ c.f 2 19 0 ≤ 600000

/-- A device in which a configuration stream may be opened (R525, R542). -/
structure State.MayOpen (s : State) : Prop where
  halted : s.stepping = false
  cool : s.tripped = false
  closed : s.streamOpen = false
  unstaged : s.cfg.staging = none
  jobless : s.cfg.jobs = []
  ready : s.allReady = true
  room : 6 ≤ s.freeBu

theorem State.MayOpen.begun {s : State} (hs : s.MayOpen) (dt op : Nat) (h : CmdHdr) (ws : List Word) :
    ((s.elapse dt).begun op h ws).MayOpen where
  halted := (State.begun_stepping _ _ _ _).trans hs.halted
  cool := (State.begun_tripped _ _ _ _).trans hs.cool
  closed := (State.begun_streamOpen _ _ _ _).trans hs.closed
  unstaged := (congrArg Cfg.staging (State.begun_cfg _ _ _ _)).trans hs.unstaged
  jobless := (congrArg Cfg.jobs (State.begun_cfg _ _ _ _)).trans hs.jobless
  ready := (State.begun_allReady _ _ _ _).trans hs.ready
  room := hs.room.trans_eq (State.begun_freeBu (s.elapse dt) op h ws).symm

theorem cfgBeginBody_ok {c : Cmd} (hf : c.fail = none) (hc : OpeningAllowed c) {u : State} (hu : u.MayOpen) :
    cfgBeginBody c u = (u.openStream (c.b 0 0) (c.w 1) (c.f 2 19 0)).ok c [] := by
  obtain ⟨hword0, hword2, hleast, hmost⟩ := hc
  obtain ⟨hhalted, hcool, hclosed, hunstaged, hjobless, hready, hroom⟩ := hu
  have hreserved := Cmd.reserved_three (c := c) rfl hword0 (onlyBits_whole_word _ 1) hword2
  unfold cfgBeginBody
  refine State.checked_pass u c _ _ hf ?_
  simp [hreserved, hleast, hmost, hhalted, hcool, hclosed, hunstaged, hjobless, hready, hroom]

/-! ### CFG_END -/

/-- A CFG_END in progress (R530). -/
def State.endAsked (s : State) (id : Nat) : State := { s with cfg := { s.cfg with endCmd := some id } }

/-- DETAIL of a CFG_END of a container for this device (R542). -/
theorem endDetail_selected (index reason : Nat) : endDetail index reason false = index % 2 ^ 16 + reason % 256 * 2 ^ 16 := by
  simp [endDetail, b2n]

section
variable {c : Cmd} (hf : c.fail = none) {u : State} {x : Stream} (hx : u.cfg.stream = some x) (he : u.cfg.endCmd = none)
include hf hx he

/-- A CFG_END of a stream that has failed ends it (R529). -/
theorem cfgEndBody_failed {reason index : Nat} (hfail : x.failed = some (reason, index)) :
    cfgEndBody c u = (u.streamEnds (reasonStatus reason)).answer c (reasonStatus reason)
      (index % 2 ^ 16 + reason % 256 * 2 ^ 16) [] := by
  unfold cfgEndBody
  refine (State.checked_pass u c _ _ hf (by simp [hx, he])).trans ?_
  simp only [hx, hfail, endDetail_selected]

/-- A CFG_END of a stream that has not failed: a container that has arrived whole goes through the steps of R530; one that the window
has not brought whole is short (R528 reason 9); for one in a descriptor list the command waits. -/
theorem cfgEndBody_good (hgood : x.failed = none) :
    cfgEndBody c u =
      if x.whole then (u.endAsked c.id).cfgFinish
      else if u.rdb Reg.CFG.STAT.SRC then (u.endAsked c.id).streamFails 9 x.next else u.endAsked c.id := by
  unfold cfgEndBody
  refine (State.checked_pass u c _ _ hf (by simp [hx, he])).trans ?_
  simp only [hx, hgood, State.endAsked]
  rfl

end

/-! ### CFG_ABORT -/

section
variable {c : Cmd} (hf : c.fail = none) (hb : onlyBits c.payload 0 [(0, 0), (31, 16)] = true) {u : State}
include hf hb

/-- CFG_ABORT of the stream fails it with reason 17 (R531). -/
theorem cfgAbortBody_stream (hwhat : c.b 0 0 = false) (hopen : u.cfg.stream.isSome = true) :
    cfgAbortBody c u = (u.streamFails 17 0).ok c [] := by
  unfold cfgAbortBody
  refine (State.checked_pass u c _ _ hf ?_).trans ?_
  · simp [Cmd.reserved_one rfl hb, hwhat, hopen]
  · simp only [hwhat, Bool.false_eq_true, if_false]

/-- CFG_ABORT of a job ends it as aborted (R535). -/
theorem cfgAbortBody_job (hwhat : c.b 0 0 = true) {j : Job} (hj : u.cfg.jobs.find? (fun j => j.id = c.f 0 31 16) = some j) :
    cfgAbortBody c u = (u.jobEnds j stAborted 17 false).ok c [] := by
  unfold cfgAbortBody
  refine (State.checked_pass u c _ _ hf ?_).trans ?_
  · simp [Cmd.reserved_one rfl hb, hwhat, hj]
  · simp only [hwhat, if_true, hj]

end

/-! ### The stream's timeout -/

/-- A stream that no CFG_END follows within its TIMEOUT fails with reason 10 (R528). -/
theorem exec_cfgStreamTimeout_due {s : State} {dt : Nat} {x : Stream} (hr : s.inReset = false) (hx : s.cfg.stream = some x)
    (hgood : x.failed = none) (he : s.cfg.endCmd = none) (hopen : s.rd Reg.CFG.STAT.STREAM ≠ 4)
    (hdue : x.lastByte + x.timeoutMs * fsMs ≤ s.now + dt) :
    exec (.cfgStreamTimeout dt) s = .next (s.after dt fun u => u.streamFails 10 0) := by
  refine (show _ = execCfgStreamTimeout dt s from rfl).trans (State.event_eq hr dt _ _ ?_)
  simp only [State.elapse_cfg, hx]
  exact State.whenever_true _ _ _ (by simp [hgood, he, hopen, hdue])

/-! ### The commands' rows -/

section
variable {s : State} {dt : Nat} {h : CmdHdr} {ws : List Word}

/-- An accepted CFG_END has the effect of its meaning. -/
theorem exec_cfgEnd (ha : s.accepts dt h (decide (ws.length = 0)) false false = true) (effect : Cmd → State → State)
    (he : ∀ c u, c.fail = none → u.cfg = s.cfg → u.rdb Reg.CFG.STAT.SRC = s.rdb Reg.CFG.STAT.SRC →
      cfgEndBody c u = effect c u) :
    exec (.cfgEnd dt h ws) s = .next (s.afterCmd dt 0x0902 h ws effect) :=
  exec_accepted rfl ha cfgEndCmd rfl exactly_of_length rfl rfl _ fun c u hf _ _ hu =>
    he c u hf (hu ▸ State.begun_cfg _ _ _ _) (hu ▸ State.begun_rdb _ _ _ _ (by decide))

/-- A CFG_END of a stream that has not failed, by what has arrived and how (R528-R530). -/
theorem exec_cfgEnd_good (ha : s.accepts dt h (decide (ws.length = 0)) false false = true) {x : Stream}
    (hx : s.cfg.stream = some x) (he : s.cfg.endCmd = none) (hgood : x.failed = none) :
    exec (.cfgEnd dt h ws) s = .next (s.afterCmd dt 0x0902 h ws fun c u =>
      if x.whole then (u.endAsked c.id).cfgFinish
      else if s.rdb Reg.CFG.STAT.SRC then (u.endAsked c.id).streamFails 9 x.next else u.endAsked c.id) :=
  exec_cfgEnd ha _ fun _ _ hf hcfg hrd => hrd ▸ cfgEndBody_good hf (hcfg ▸ hx) (hcfg ▸ he) hgood

/-- An accepted CFG_ABORT has the effect of its meaning. -/
theorem exec_cfgAbort (ha : s.accepts dt h (decide (ws.length = 1)) false false = true) (effect : Cmd → State → State)
    (he : ∀ c u, c.fail = none → c.payload = ws → u.cfg = s.cfg → cfgAbortBody c u = effect c u) :
    exec (.cfgAbort dt h ws) s = .next (s.afterCmd dt 0x0903 h ws effect) :=
  exec_accepted rfl ha cfgAbortCmd rfl exactly_of_length rfl rfl _ fun c u hf hp _ hu =>
    he c u hf hp (hu ▸ State.begun_cfg _ _ _ _)

end

/-- Settles O34: each command by its meaning where nothing refuses it, the timeout by its instant. -/
theorem configurationStreamsOpenAndEnd : Obligations.ConfigurationStreamsOpenAndEnd := by
  refine ⟨fun s dt h ws ha hword0 hword2 hleast hmost hhalted hcool hclosed hunstaged hjobless hready hroom => ?_,
    fun s dt h ws x ha hx he => ⟨fun reason index hfail => ?_, fun hgood hshort hsrc => ?_, fun hgood hshort hsrc => ?_,
      fun hgood hwhole => ?_⟩,
    fun s dt h ws ha hb => ⟨fun hwhat hopen => ?_, fun j hwhat hj => ?_⟩,
    fun s dt x hr hx hgood he hopen hdue => exec_cfgStreamTimeout_due hr hx hgood he hopen hdue⟩
  · have hs : s.MayOpen := ⟨hhalted, hcool, hclosed, hunstaged, hjobless, hready, hroom⟩
    refine exec_accepted rfl ha cfgBeginCmd rfl exactly_of_length rfl rfl _ fun c u hf hp _ hu => ?_
    subst hp hu
    exact cfgBeginBody_ok hf ⟨hword0, hword2, hleast, hmost⟩ (hs.begun dt 0x0901 h _)
  · exact exec_cfgEnd ha _ fun c u hf hcfg _ => cfgEndBody_failed hf (hcfg ▸ hx) (hcfg ▸ he) hfail
  · rw [exec_cfgEnd_good ha hx he hgood]
    simp only [hshort, hsrc, Bool.false_eq_true, if_false, State.endAsked]
  · rw [exec_cfgEnd_good ha hx he hgood]
    simp only [hshort, hsrc, Bool.false_eq_true, if_false, if_true, State.endAsked]
  · rw [exec_cfgEnd_good ha hx he hgood]
    simp only [hwhole, if_true, State.endAsked]
  · refine exec_cfgAbort ha _ fun c u hf hp hcfg => ?_
    subst hp
    exact cfgAbortBody_stream hf hb hwhat (hcfg ▸ hopen)
  · refine exec_cfgAbort ha _ fun c u hf hp hcfg => ?_
    subst hp
    exact cfgAbortBody_job hf hb hwhat (hcfg ▸ hj)

end Sys2Proof.Machine
end

section
/-! CRYPT.STAT and CRYPT.UNITS (R344, R373) hold how the units are protected: reads and writes of the memory, walks of the tree, failures
and initialisations leave them as they are. -/

namespace Sys2Proof.Machine

/-- `t` has the registers of `s` that say how the units are protected: CRYPT.STAT and CRYPT.UNITS (R373). -/
structure SameProtection (s t : State) : Prop where
  stored : ∀ a, 0xD0000 ≤ a → a < 0xD0018 → t.stored a = s.stored a

theorem SameProtection.refl (s : State) : SameProtection s s := ⟨fun _ _ _ => rfl⟩

theorem SameProtection.trans {s t u : State} (h : SameProtection s t) (k : SameProtection t u) : SameProtection s u :=
  ⟨fun a hlo hhi => (k.stored a hlo hhi).trans (h.stored a hlo hhi)⟩

theorem HostOnly.sameProtection {s t : State} (h : HostOnly s t) : SameProtection s t :=
  ⟨fun a hlo _ => h.stored (.inr (by omega : 0x20000 ≤ a))⟩

/-- A fold whose every step leaves the protection leaves it; `p` is the state in what the fold carries. -/
theorem SameProtection.foldl_proj {α β : Type} (p : β → State) {f : β → α → β} (hf : ∀ b x, SameProtection (p b) (p (f b x)))
    {l : List α} {b : β} : SameProtection (p b) (p (l.foldl f b)) := by
  induction l generalizing b with
  | nil => exact .refl _
  | cons x l ih => exact (hf b x).trans ih

theorem SameProtection.foldl {α : Type} {f : State → α → State} (hf : ∀ u x, SameProtection u (f u x)) {l : List α} {s : State} :
    SameProtection s (l.foldl f s) := .foldl_proj id hf

section
variable {s t : State} (h : SameProtection s t)
include h

theorem SameProtection.rd {f : Field} (hf : 0xD0000 ≤ f.addr ∧ f.addr < 0xD0018) : t.rd f = s.rd f := by
  simp only [State.rd, h.stored f.addr hf.1 hf.2]

/-- What changes no register changes no protection. -/
theorem SameProtection.of_regs {u : State} (hu : u.regs = t.regs := by rfl) : SameProtection s u :=
  h.trans ⟨fun a _ _ => congrArg (fun m => Cells.get regReset m a) hu⟩

theorem SameProtection.wr {f : Field} {v : Nat} (hf : f.addr < 0xD0000 ∨ 0xD0018 ≤ f.addr) : SameProtection s (t.wr f v) :=
  h.trans ⟨fun _ _ _ => t.stored_wr_of_ne f v (by omega)⟩

theorem SameProtection.count {f : Field} {n : Nat} (hf : f.addr < 0xD0000 ∨ 0xD0018 ≤ f.addr) :
    SameProtection s (t.count f n) := h.wr hf

theorem SameProtection.post {code sev src detail : Nat} : SameProtection s (t.post code sev src detail) :=
  h.trans (t.hostOnly_post code sev src detail).sameProtection

theorem SameProtection.postLimited {code key sev src detail : Nat} :
    SameProtection s (t.postLimited code key sev src detail) :=
  h.trans (t.hostOnly_postLimited code key sev src detail).sameProtection

/-! ### The memory -/

theorem SameProtection.cacheCode {k : Nat} : SameProtection s (t.cacheCode k) := h.of_regs

theorem SameProtection.g6Put {k : Nat} {d : Word} : SameProtection s (t.g6Put k d) := by
  refine h.of_regs ?_
  unfold State.g6Put
  split <;> rfl

theorem SameProtection.g6PutLine {a : Nat} {l : BitVec 512} : SameProtection s (t.g6PutLine a l) :=
  h.trans (.foldl fun u _ => (SameProtection.refl u).g6Put)

theorem SameProtection.g6Log {kind ch init addr : Nat} {write : Bool} : SameProtection s (t.g6Log kind ch init addr write) := by
  unfold State.g6Log
  dsimp only
  split
  · exact h
  split
  · exact h.of_regs
  split
  · split
    · exact .post h.of_regs
    split
    · exact .post h.of_regs
    · exact h.of_regs
  · exact .post h.of_regs

theorem SameProtection.countErr {ch : Nat} {f : Nat → Nat → Field} (hf : f = Reg.MEM.ERRCNT.CE ∨ f = Reg.MEM.ERRCNT.UE) :
    SameProtection s (t.count (errF f ch) 1) := by
  refine h.count ?_
  rcases hf with rfl | rfl <;> simp only [errF, Reg.MEM.ERRCNT.CE, Reg.MEM.ERRCNT.UE] <;> omega

theorem SameProtection.g6Read {init k : Nat} {write : Bool} : SameProtection s (t.g6Read init k write).1 := by
  unfold State.g6Read
  dsimp only
  split
  · exact h
  split
  · exact h.cacheCode
  · have hcount := h.cacheCode (k := k) |>.countErr (ch := t.g6Chan (8 * k)) (.inl rfl)
    split
    · exact hcount.postLimited.of_regs
    · exact hcount.postLimited
  · exact (h.cacheCode.countErr (.inr rfl)).g6Log

theorem SameProtection.g6ReadAll {init : Nat} {write : Bool} {ks : List Nat} :
    SameProtection s (t.g6ReadAll init write ks).1 := by
  refine h.trans (SameProtection.foldl_proj Prod.fst (fun acc k => ?_) (b := (t, [], [])))
  exact (SameProtection.refl acc.1).g6Read

/-! ### Failures and the blocked lists -/

theorem SameProtection.cryptLog {kind ch init level addr : Nat} {write : Bool} :
    SameProtection s (t.cryptLog kind ch init level addr write) := by
  unfold State.cryptLog
  dsimp only
  split
  · exact h
  split
  · exact h.of_regs
  split
  · split
    · exact .post h.of_regs
    split
    · exact .post h.of_regs
    · exact h.of_regs
  · exact .post h.of_regs

theorem SameProtection.blockedSync {whole : Option Nat} : SameProtection s (t.blockedSync whole) := by
  unfold State.blockedSync
  exact (h.wr (by decide)).wr (by decide)

theorem SameProtection.blockTree {ch : Nat} : SameProtection s (t.blockTree ch) := by
  unfold State.blockTree
  exact .blockedSync h.of_regs

theorem SameProtection.blockNode {ch level node : Nat} : SameProtection s (t.blockNode ch level node) := by
  unfold State.blockNode
  dsimp only
  split
  · exact h
  split
  · exact h.blockTree
  · exact .blockedSync h.of_regs

theorem SameProtection.treeFails {init ch : Nat} {write : Bool} (bad : TreeFail) :
    SameProtection s (t.treeFails init ch write bad) := by
  cases bad with
  | node level node =>
    exact (h.count (.inr (by simp only [Reg.CRYPT.COUNT.NODEFAIL]; omega))).cryptLog.blockNode
  | root => exact h.cryptLog.blockTree.post

/-! ### The tree -/

theorem SameProtection.cacheNode {n : CacheNode} : SameProtection s (t.cacheNode n) := h.of_regs

theorem SameProtection.trustNode {init : Nat} {write rootBad : Bool} {ch up node : Nat} :
    SameProtection s (State.trustNode init write rootBad ch up t node).st := by
  induction up generalizing t node with
  | zero =>
    unfold State.trustNode
    dsimp only
    split
    · exact h
    split
    · exact h.g6ReadAll
    split
    · exact h.g6ReadAll.cacheNode
    · exact h.g6ReadAll
  | succ up ih =>
    unfold State.trustNode
    dsimp only
    split
    · exact h
    split
    · exact ih h.g6ReadAll
    split
    · exact (ih h.g6ReadAll).cacheNode
    · exact ih h.g6ReadAll

/-! ### An initialisation -/

theorem SameProtection.oldNodes {us : List Nat} : SameProtection s (t.oldNodes us).1 := by
  refine h.trans (SameProtection.foldl_proj Prod.fst (fun acc x => ?_) (b := (t, [])))
  dsimp only
  split
  · exact (SameProtection.refl acc.1).trustNode.treeFails _
  · exact (SameProtection.refl acc.1).trustNode

theorem SameProtection.rebuildTree {x : Seal} {old : List (Nat × Nat × Nat × BitVec 512)} {ch : Nat} :
    SameProtection s (t.rebuildTree x old ch) := by
  unfold State.rebuildTree
  refine (h.trans (SameProtection.foldl (fun u o => ?_) (l := old.filter fun o => o.1 = ch))).of_regs
  dsimp only
  split
  · exact (SameProtection.refl u).g6PutLine.cacheNode
  · exact (SameProtection.refl u).g6PutLine

/-- An initialisation leaves how the units are protected (R357, R370). -/
theorem SameProtection.initUnits {us : List Nat} : SameProtection s (t.initUnits us) := by
  unfold State.initUnits
  dsimp only
  refine SameProtection.blockedSync ?_
  have hold := h.oldNodes (us := us)
  generalize t.oldNodes us = kept at hold ⊢
  split
  · refine SameProtection.trans ?_ (SameProtection.foldl fun u _ => (SameProtection.refl u).rebuildTree)
    exact hold.of_regs
  · exact hold.of_regs

end

end Sys2Proof.Machine
end

section
/-! CRYPT_ENABLE and the end of an initialisation (R365, R368-R372). -/

namespace Sys2Proof.Machine

/-! ### CRYPT_ENABLE -/

/-- The test of CRYPT_ENABLE whether every unit is OFF. -/
theorem State.allUnits_off {u : State} (h : ∀ x < 64, u.unitMode x = 0) :
    ((List.range 64).all fun x => u.unitMode x == 0) = true := by
  simpa using h

theorem State.allUnits_protected {u : State} (h : ∃ x < 64, u.unitMode x ≠ 0) :
    ((List.range 64).all fun x => u.unitMode x == 0) = false := by
  obtain ⟨x, hx, hmode⟩ := h
  exact List.all_eq_false.mpr ⟨x, List.mem_range.mpr hx, by simpa using hmode⟩

/-- A SET that nothing refuses (R345, R371, R372). -/
structure SetAllowed (c : Cmd) (u : State) : Prop where
  limits : u.setBad c = false
  key : u.rdb Reg.CRYPT.STAT.KEY = true
  fitted : u.g6Cap ≠ 0
  off : ∀ x < 64, u.unitMode x = 0
  halted : u.stepping = false
  free : u.setTaken c = false
  room : cryptBu c.setUnits.length c.setTree.length ≤ u.freeBu

/-- A REINIT that nothing refuses (R370, R371). -/
structure ReinitAllowed (c : Cmd) (u : State) : Prop where
  units : ∀ x ∈ c.reinitUnits, u.unitMode x ≠ 0 ∧ u.unitMode x ≠ 3
  key : u.rdb Reg.CRYPT.STAT.KEY = true
  fitted : u.g6Cap ≠ 0
  on : ∃ x < 64, u.unitMode x ≠ 0

section
variable {c : Cmd} (hf : c.fail = none) (hb : onlyBits c.payload 0 [(1, 0)] = true) {u : State} (hjob : u.crypt.job = none)
include hf hb hjob

theorem cryptEnableBody_set (hop : c.f 0 1 0 = 0) (hok : SetAllowed c u) : cryptEnableBody c u = u.cryptSet c := by
  obtain ⟨hlimits, hkey, hfitted, hoff, hhalted, hfree, hroom⟩ := hok
  have hbits : badBits (c.w 0) [(1, 0)] = false := (onlyBits_iff _ _ _).mp hb
  unfold cryptEnableBody
  refine (State.checked_pass u c _ _ hf ?_).trans ?_
  · simp only [State.allUnits_off hoff]
    simp [hop, hbits, hjob, hlimits, hkey, hfitted, hhalted, hfree, hroom]
  · simp [hop]

theorem cryptEnableBody_reinit (hop : c.f 0 1 0 = 2) (hok : ReinitAllowed c u) :
    cryptEnableBody c u =
      State.wr { u with crypt := { u.crypt with refuse := c.reinitUnits, job := some (c.id, c.reinitUnits, false) } }
        Reg.CRYPT.STAT.BUSY 1 := by
  obtain ⟨hunits, hkey, hfitted, hon⟩ := hok
  have hbits : badBits (c.w 0) [(1, 0)] = false := (onlyBits_iff _ _ _).mp hb
  unfold cryptEnableBody
  refine (State.checked_pass u c _ _ hf ?_).trans ?_
  · simp only [State.allUnits_protected hon]
    simpa [hop, hbits, hjob, hkey, hfitted] using hunits
  · simp [hop]

/-- DISABLE writes the cached nodes back and ends protection (R367, R370). -/
theorem cryptEnableBody_disable (hop : c.f 0 1 0 = 1) (hon : ∃ x < 64, u.unitMode x ≠ 0) (hhalted : u.stepping = false) :
    cryptEnableBody c u = u.flushCache.unprotect.ok c [] := by
  have hbits : badBits (c.w 0) [(1, 0)] = false := (onlyBits_iff _ _ _).mp hb
  unfold cryptEnableBody
  refine (State.checked_pass u c _ _ hf ?_).trans ?_
  · simp only [State.allUnits_protected hon]
    simp [hop, hbits, hjob, hhalted]
  · simp [hop]

end

/-- An accepted CRYPT_ENABLE has the effect of its meaning. -/
theorem exec_cryptEnable {s : State} {dt : Nat} {h : CmdHdr} {ws : List Word}
    (ha : s.accepts dt h (cryptEnableLen ws) false false = true) (effect : Cmd → State → State)
    (he : ∀ c, c.fail = none → c.payload = ws → c = s.cmdOf 0x0601 h ws →
      cryptEnableBody c ((s.elapse dt).begun 0x0601 h ws) = effect c ((s.elapse dt).begun 0x0601 h ws)) :
    exec (.cryptEnable dt h ws) s = .next (s.afterCmd dt 0x0601 h ws effect) :=
  exec_accepted rfl ha cryptEnableCmd rfl id rfl rfl _ fun c u hf hp hc hu => by
    subst hu
    exact he c hf hp hc

/-! ### The end of an initialisation -/

/-- DETAIL of CRYPT_READY (R368). -/
def State.cryptReady (s : State) : Nat :=
  s.rd Reg.CRYPT.STAT.PROTECTED % 64 + s.rd Reg.CRYPT.STAT.TREE * 2 ^ 8 + s.rd Reg.CRYPT.STAT.META % 16 * 2 ^ 16

/-- An initialisation leaves what CRYPT_READY reports. -/
theorem State.initUnits_cryptReady (s : State) (us : List Nat) : (s.initUnits us).cryptReady = s.cryptReady := by
  have haddr : ∀ f ∈ [Reg.CRYPT.STAT.PROTECTED, Reg.CRYPT.STAT.TREE, Reg.CRYPT.STAT.META],
      0xD0000 ≤ f.addr ∧ f.addr < 0xD0018 := by decide
  have hrd := fun f hf => ((SameProtection.refl s).initUnits (us := us)).rd (haddr f hf)
  unfold State.cryptReady
  rw [hrd _ (by simp), hrd _ (by simp), hrd _ (by simp)]

theorem exec_cryptInitComplete_ready {s : State} {dt id : Nat} {units : List Nat} {set : Bool} (hr : s.inReset = false)
    (hjob : s.crypt.job = some (id, units, set)) :
    exec (.cryptInitComplete dt) s = .next (s.after dt fun u =>
      ((u.initUnits units).post 0x0601 sevInfo srcDevice (u.initUnits units).cryptReady).cryptJobEnds stOk) := by
  refine (show _ = execCryptInitComplete dt s from rfl).trans (State.event_eq hr dt _ _ ?_)
  simp only [State.elapse_crypt, hjob, State.initUnits_cryptReady]
  rfl

/-- Settles O54: each operation by its meaning where nothing refuses it; the completion, as no initialisation changes what CRYPT_READY
reports. -/
theorem encryptionComesOnAndOff : Obligations.EncryptionComesOnAndOff := by
  refine ⟨fun s dt h ws => ?_, fun s dt id units set hr hjob => exec_cryptInitComplete_ready hr hjob⟩
  intro v c0 op ha hb hjob
  refine ⟨fun hop hlimits hkey hfitted hoff hhalted hfree hroom => exec_cryptEnable ha _ fun c hf hp hc => ?_,
    fun hop hunits hkey hfitted hon => exec_cryptEnable ha _ fun c hf hp hc => ?_,
    fun hop hon hhalted => exec_cryptEnable ha _ fun c hf hp _ => ?_⟩
  · subst hp
    exact cryptEnableBody_set hf hb hjob hop (hc ▸ ⟨hlimits, hkey, hfitted, hoff, hhalted, hfree, hroom⟩)
  · subst hp
    exact cryptEnableBody_reinit hf hb hjob hop ⟨hc ▸ hunits, hkey, hfitted, hon⟩
  · subst hp
    exact cryptEnableBody_disable hf hb hjob hop hon hhalted

end Sys2Proof.Machine
end

section
/-! Lane groups come up and go down, their link's timers, and their wake patterns (R382-R384, R390-R393, R400-R405). -/

namespace Sys2Proof.Machine

-- Time that passes changes neither the groups nor what they can send and receive.
section
variable (s : State) (dt n : Nat)
@[simp] theorem State.elapse_group : (s.elapse dt).group n = s.group n := rfl
@[simp] theorem State.elapse_groupOf : (s.elapse dt).groupOf n = s.groupOf n := rfl
@[simp] theorem State.elapse_laneHears : (s.elapse dt).laneHears n = s.laneHears n := rfl
@[simp] theorem State.elapse_laneSends : (s.elapse dt).laneSends n = s.laneSends n := rfl
@[simp] theorem State.elapse_power : (s.elapse dt).power = s.power := rfl
end

/-- A row whose condition holds has its effect. -/
theorem State.event_whenever {s : State} (hr : s.inReset = false) (dt : Nat) (cond : State → Bool) (effect : State → State)
    (hc : cond (s.elapse dt) = true) : s.event dt (fun u => u.whenever (cond u) effect) = .next (s.after dt effect) :=
  State.event_eq hr dt _ _ (State.whenever_true _ _ _ hc)

/-- A row of a group whose condition holds has its effect. -/
theorem State.event_group {s : State} {first : Nat} {g : Group} (hr : s.inReset = false) (hg : s.group first = some g) (dt : Nat)
    (cond : Group → State → Bool) (effect : Group → State → State) (hc : cond g (s.elapse dt) = true) :
    s.event dt (fun u => match u.group first with
      | none => u
      | some g => u.whenever (cond g u) (effect g)) = .next (s.after dt (effect g)) := by
  refine State.event_eq hr dt _ _ ?_
  simp only [State.elapse_group, hg]
  exact State.whenever_true _ _ _ hc

/-! ### Coming up -/

/-- The skews of a group's lanes. -/
def Group.skewsOf (g : Group) (skews : List Nat) : List Nat := (List.range (2 ^ g.wlog)).map fun i => skews.getD i 0

/-- The skews of a group's lanes, shown in their registers (R382). -/
def State.skewsShown (s : State) (first : Nat) (used : List Nat) : State :=
  used.zipIdx.foldl (fun s x => s.wr (Reg.LANE.STAT.SKEW (first + x.2)) (min x.1 63)) s

/-- A group that sees another partner than the one it was set for goes down as miswired (R383, R384). -/
def State.miswired (s : State) (g : Group) (first seat seenFirst : Nat) : State :=
  (s.groupDown first g.wlog 5).post 0x0703 sevError (laneSource first)
    (first + seat % 1024 * 2 ^ 16 + seenFirst % 64 * 2 ^ 26)

/-- A group that sees its partner is UP, and its Reel link starts (R383). -/
def State.comesUp (s : State) (g : Group) (first : Nat) : State :=
  let s := (s.laneSet Reg.LANE.STAT.STATE first g.wlog 2).laneSet Reg.LANE.STAT.BLOCKLOCK first g.wlog 1
  let s := (s.laneSet Reg.LANE.STAT.LOS first g.wlog 0).laneSet Reg.LANE.STAT.LOL first g.wlog 0
  (s.post 0x0701 sevInfo (laneSource first) (first + g.wlog * 2 ^ 8)).linkStart first

/-- How a group's lanes end their alignment (R382, R383). -/
def State.alignmentEnds (s : State) (g : Group) (first : Nat) (used : List Nat) (seat seenFirst seenWlog : Nat) : State :=
  if used.any fun k => decide (32 < k) then s.groupDown first g.wlog 4
  else if seat ≠ g.pseat ∨ seenFirst ≠ g.pfirst ∨ seenWlog ≠ g.wlog then s.miswired g first seat seenFirst
  else s.comesUp g first

theorem exec_groupUp_tries {s : State} {dt first : Nat} {g : Group} (hr : s.inReset = false) (hg : s.group first = some g)
    (ht : (s.elapse dt).tries g = true) (seat seenFirst seenWlog : Nat) (skews : List Nat) :
    exec (.groupUp dt first seat seenFirst seenWlog skews) s = .next (s.after dt fun u =>
      (u.skewsShown first (g.skewsOf skews)).alignmentEnds g first (g.skewsOf skews) seat seenFirst seenWlog) :=
  (show _ = execGroupUp dt first seat seenFirst seenWlog skews s from rfl).trans
    (State.event_group hr hg dt (fun g u => u.tries g) _ ht)

section
variable (s : State) (g : Group) (first : Nat) {used : List Nat}

theorem State.alignmentEnds_skewed (hskew : ∃ k ∈ used, 32 < k) (seat seenFirst seenWlog : Nat) :
    s.alignmentEnds g first used seat seenFirst seenWlog = s.groupDown first g.wlog 4 :=
  if_pos (by simpa using hskew)

variable (hskew : ∀ k ∈ used, k ≤ 32)
include hskew

theorem State.alignmentEnds_miswired {seat seenFirst seenWlog : Nat}
    (hother : seat ≠ g.pseat ∨ seenFirst ≠ g.pfirst ∨ seenWlog ≠ g.wlog) :
    s.alignmentEnds g first used seat seenFirst seenWlog = s.miswired g first seat seenFirst :=
  (if_neg (by simpa using hskew)).trans (if_pos hother)

theorem State.alignmentEnds_partner : s.alignmentEnds g first used g.pseat g.pfirst g.wlog = s.comesUp g first :=
  (if_neg (by simpa using hskew)).trans (if_neg (by simp))

end

/-! ### Going down and coming back -/

/-- Loss of signal counts where neither direction of the lane sleeps, loss of lock where its receiver does not (R400, R401). -/
theorem State.laneLoss_eq (s : State) (lane : Nat) (cause : DownCause) :
    s.laneLoss lane cause =
      if cause = .los ∧ s.rdb (Reg.LANE.STAT.TXSLEEP lane) = false ∧ s.rdb (Reg.LANE.STAT.RXSLEEP lane) = false then
        (s.wr (Reg.LANE.STAT.LOS lane) 1).count (Reg.LANE.ERR.LOSCNT lane) 1
      else if cause = .lol ∧ s.rdb (Reg.LANE.STAT.RXSLEEP lane) = false then
        (s.wr (Reg.LANE.STAT.LOL lane) 1).count (Reg.LANE.ERR.LOLCNT lane) 1
      else s := by
  unfold State.laneLoss
  cases cause with
  | los => cases s.rdb (Reg.LANE.STAT.TXSLEEP lane) <;> cases s.rdb (Reg.LANE.STAT.RXSLEEP lane) <;> simp
  | lol => cases s.rdb (Reg.LANE.STAT.RXSLEEP lane) <;> simp
  | _ => simp

theorem exec_groupGoesDown_lane {s : State} {dt lane : Nat} {g : Group} (hr : s.inReset = false) (hg : s.groupOf lane = some g)
    (loss : LaneLoss) :
    exec (.groupGoesDown dt lane loss) s = .next (s.after dt fun u =>
      let v := (u.strayBlocks g.first loss.others).laneLoss lane loss.cause
      if v.laneUp g.first then v.groupDown g.first g.wlog (downCode loss.cause) else v) := by
  refine (show _ = execGroupGoesDown dt lane loss s from rfl).trans (State.event_eq hr dt _ _ ?_)
  simp only [State.elapse_groupOf, hg]

theorem exec_ethLinkChange_allowed {s : State} {dt lane : Nat} {up : Bool} (hr : s.inReset = false) (h4 : lane < 4)
    (hmode : s.rd (Reg.ETH.CFG.MODE lane) ≠ 0)
    (hup : up = true → (s.elapse dt).coasts (7 + lane / 2) = false ∧ s.power < 2) :
    exec (.ethLinkChange dt lane up) s = .next (s.after dt fun u => u.ethLink lane up) := by
  refine (show _ = execEthLinkChange dt lane up s from rfl).trans (State.event_whenever hr dt _ _ ?_)
  cases up with
  | false => simp [h4, hmode]
  | true =>
    obtain ⟨hclock, hpower⟩ := hup rfl
    simp [h4, hmode, hclock, hpower]

section
variable {s : State} {dt first : Nat} {g : Group} (hr : s.inReset = false) (hg : s.group first = some g)
include hr hg

theorem exec_miswireRetry_due (hstate : s.rd (Reg.LANE.STAT.STATE first) = 3) (hcause : s.rd (Reg.LANE.STAT.CAUSE first) = 5)
    (hdue : g.downAt + 10 * fsMs ≤ s.now + dt) :
    exec (.miswireRetry dt first) s = .next (s.after dt fun u => u.trainIfAwake g) :=
  (show _ = execMiswireRetry dt first s from rfl).trans (State.event_group hr hg dt _ _ (by simp [hstate, hcause, hdue]))

/-! ### Timers of the link -/

theorem exec_ackTimerExpiry_due (hsends : s.laneSends first = true) (hunacked : g.unacked = true)
    (hdue : g.startAt + fsUs ≤ s.now + dt) :
    exec (.ackTimerExpiry dt first) s = .next (s.after dt fun u => u.sendNow first kindAck 0 []) :=
  (show _ = execAckTimerExpiry dt first s from rfl).trans (State.event_group hr hg dt _ _ (by simp [hsends, hunacked, hdue]))

theorem exec_replayTimeout_due (hsends : s.laneSends first = true) (hheld : g.txHeld ≠ [])
    (hdue : g.ackedAt + 4 * fsUs ≤ s.now + dt) :
    exec (.replayTimeout dt first) s = .next (s.after dt fun u => u.goBack first) :=
  (show _ = execReplayTimeout dt first s from rfl).trans (State.event_group hr hg dt _ _ (by simp [hsends, hheld, hdue]))

theorem exec_nackHoldoffEnd_due {t : Nat} (hnack : g.nackUntil = some t) (hdue : t ≤ s.now + dt) :
    exec (.nackHoldoffEnd dt first) s = .next (s.after dt fun u => u.setGroup { g with nackUntil := none }) :=
  (show _ = execNackHoldoffEnd dt first s from rfl).trans (State.event_group hr hg dt _ _ (by simp [hnack, hdue]))

/-! ### Wake patterns -/

theorem exec_wakePatternEnd_due {t : Nat} (hwake : g.wakeUntil = some t) (hdue : t ≤ s.now + dt) :
    exec (.wakePatternEnd dt first) s = .next (s.after dt fun u => u.setGroup { g with wakeUntil := none }) :=
  (show _ = execWakePatternEnd dt first s from rfl).trans (State.event_group hr hg dt _ _ (by simp [hwake, hdue]))

/-- What a wake pattern does at a sleeping receiver (R403, R404). -/
theorem exec_wakePatternDetect_asleep (hasleep : s.rdb (Reg.LANE.STAT.RXSLEEP first) = true)
    (hpowered : s.rdb (Reg.LANE.CFG.WAKESRC first) = true ∨ s.power < 2) :
    exec (.wakePatternDetect dt first) s = .next (s.after dt fun u =>
      let t := if u.power < 2 then (u.laneSet Reg.LANE.STAT.RXSLEEP first g.wlog 0).trainIfAwake g else u
      let t := t.post 0x0705 sevInfo (laneSource first) (first + b2n (s.rdb (Reg.LANE.CFG.WAKESRC first)) * 2 ^ 8)
      if s.rdb (Reg.LANE.CFG.WAKESRC first) then t.wakeLogic 2 else t) := by
  refine (show _ = execWakePatternDetect dt first s from rfl).trans (State.event_eq hr dt _ _ ?_)
  simp only [State.elapse_group, hg, State.elapse_rdb]
  exact State.whenever_true _ _ _ (by simpa [hasleep] using hpowered)

end

/-! ### Acknowledgement frames -/

/-- An unsequenced frame, by whether it passes its checks (R391). -/
theorem State.hearFrame_eq (s : State) (first : Nat) (f : LaneFrame) (effect : State → State) :
    s.hearFrame first f effect =
      let v := s.strayBlocks first f.others
      if rxGood f = false then v.count (Reg.LANE.LINK1.CRCERR first) 1
      else effect ((v.count (Reg.LANE.LINK0.RXFRAMES first) 1).takeStart first (rxExpseq f) (rxCredit f)) := by
  simp only [State.hearFrame, Bool.not_eq_true']

theorem exec_ackNackReceive_heard {s : State} {dt first : Nat} {frame : LaneFrame} (hr : s.inReset = false)
    (hhears : s.laneHears first = true) (hkind : rxKind frame = kindAck ∨ rxKind frame = kindNack) :
    exec (.ackNackReceive dt first frame.start ⟨frame.word, frame.payload⟩ ⟨frame.crc, frame.others⟩) s =
      .next (s.after dt fun u => u.hearFrame first frame fun v =>
        if rxKind frame = kindNack then (v.count (Reg.LANE.LINK1.NACKS first) 1).goBack first else v) := by
  obtain ⟨start, word, payload, crc, others⟩ := frame
  refine (show _ = execAckNackReceive dt first start ⟨word, payload⟩ ⟨crc, others⟩ s from rfl).trans ?_
  unfold execAckNackReceive
  exact State.event_whenever hr dt _ _ (by simpa [hhears] using hkind)

/-- Settles O48: each event of a group by the condition under which it happens. -/
theorem groupsComeUpAndGoDown : Obligations.GroupsComeUpAndGoDown := by
  refine ⟨fun s dt first seat seenFirst seenWlog skews g hr hg ht => ?_, fun s dt lane cause others g hr hg => ?_,
    fun s dt first g => exec_miswireRetry_due, fun s dt lane up => exec_ethLinkChange_allowed,
    fun s dt first frame hr hhears hkind => ?_, fun s dt first g hr hg => ?_⟩
  · simp only [exec_groupUp_tries hr hg ht]
    exact ⟨fun hskew => congrArg _ (State.after_congr (State.alignmentEnds_skewed _ g first hskew ..)),
      fun hskew hother => congrArg _ (State.after_congr (State.alignmentEnds_miswired _ g first hskew hother)),
      fun hskew => congrArg _ (State.after_congr (State.alignmentEnds_partner _ g first hskew))⟩
  · simp only [exec_groupGoesDown_lane hr hg, State.laneLoss_eq]
  · simp only [exec_ackNackReceive_heard hr hhears hkind, State.hearFrame_eq]
  · refine ⟨exec_ackTimerExpiry_due hr hg, exec_replayTimeout_due hr hg, fun t => exec_nackHoldoffEnd_due hr hg,
      fun t => exec_wakePatternEnd_due hr hg, fun hasleep => ⟨fun hsrc => ?_, fun hsrc hpower => ?_⟩⟩
    · rw [exec_wakePatternDetect_asleep hr hg hasleep (.inl hsrc)]
      simp only [hsrc, if_true, b2n, Nat.one_mul]
    · rw [exec_wakePatternDetect_asleep hr hg hasleep (.inr hpower)]
      refine congrArg _ (State.after_congr ?_)
      simp only [hsrc, State.elapse_power, hpower, if_true, b2n, Bool.false_eq_true, if_false, Nat.zero_mul, Nat.add_zero]

end Sys2Proof.Machine
end

section
/-! LANE_SETUP, LANE_LOOP and LANE_SLEEP, and the end of a loop (R380, R398-R403, R409-R412). -/

namespace Sys2Proof.Machine

/-! ### LANE_SETUP -/

/-- The words of a LANE_SETUP that R380 and R409 allow. -/
structure SetupWords (c : Cmd) : Prop where
  word0 : onlyBits c.payload 0 [(6, 0), (10, 8), (13, 12), (16, 16), (17, 17), (18, 18), (31, 24)] = true
  word1 : onlyBits c.payload 1 [(15, 0), (31, 16), (35, 32)] = true
  word2 : onlyBits c.payload 2 [(9, 0), (21, 16)] = true
  word3 : onlyBits c.payload 3 [(47, 0)] = true
  limits : laneWordsBad (c.w 0) = false

theorem SetupWords.good {c : Cmd} (h : SetupWords c) :
    (c.reserved [[(6, 0), (10, 8), (13, 12), (16, 16), (17, 17), (18, 18), (31, 24)], [(15, 0), (31, 16), (35, 32)],
      [(9, 0), (21, 16)], [(47, 0)]] || laneWordsBad (c.w 0)) = false := by
  obtain ⟨hword0, hword1, hword2, hword3, hlimits⟩ := h
  rw [onlyBits_iff] at hword0 hword1 hword2 hword3
  simp only [Cmd.reserved, Cmd.w_of rfl, List.zipIdx_cons, List.zipIdx_nil, List.any_cons, List.any_nil, hword0, hword1, hword2,
    hword3, Bool.or_false]
  exact hlimits

/-- The test of a command whether its group is in a loop. -/
theorem loopless {o : Option Group} (h : ∀ g, o = some g → g.loop = none) : (o.any fun g => g.loop.isSome) = false := by
  cases o with
  | none => rfl
  | some g => simp [h g rfl]

/-- Lanes that a LANE_SETUP may set up: their group is in no configuration and in no loop, and no other has them (R409). -/
structure State.SpanFree (s : State) (first wlog : Nat) : Prop where
  unused : s.group first = none ∨ s.rdb (Reg.LANE.CFG.INUSE first) = false
  idle : ∀ g, s.group first = some g → g.loop = none
  free : s.lanesTaken first wlog = false

section
variable {c : Cmd} (hf : c.fail = none) (hw : SetupWords c) {u : State}
include hf hw

theorem laneSetupBody_timeLane (hfirst : 64 ≤ c.f 0 6 0) (hidle : ∀ g, u.group (c.f 0 6 0) = some g → g.loop = none)
    (hroom : c.b 0 16 = true → u.rd (Reg.ETH.CFG.MODE (c.f 0 6 0 - 64)) = 0 → 2 ≤ u.freeBu) :
    laneSetupBody c u = (u.setupTimeLane (c.f 0 6 0 - 64) (c.b 0 16) (c.f 0 13 12) (c.f 3 47 0)).ok c [] := by
  have hlane : ¬ c.f 0 6 0 < 64 := by omega
  have hbu : (if c.b 0 16 = true ∧ u.rd (Reg.ETH.CFG.MODE (c.f 0 6 0 - 64)) = 0 then 2 else 0) ≤ u.freeBu := by
    split
    · next h => exact hroom h.1 h.2
    · exact Nat.zero_le _
  unfold laneSetupBody
  refine (State.checked_pass u c _ _ hf ?_).trans ?_
  · simpa [hw.good, hlane, loopless hidle] using hbu
  · simp only [hlane, if_false]

/-- A LANE_SETUP of fabric lanes enables their group where the spread and the ledger let it, or disables it (R378, R410, R412). -/
theorem laneSetupBody_fabric (hfirst : c.f 0 6 0 < 64) (hspan : u.SpanFree (c.f 0 6 0) (c.f 0 10 8))
    (hon : c.b 0 16 = true → u.spreadBad = false ∧
      laneBu (c.f 0 10 8) (c.f 0 13 12) ≤ u.groupHolds (c.f 0 6 0) + u.freeBu) :
    laneSetupBody c u =
      (if c.b 0 16 then u.enableGroup (c.w 0) (c.w 1) (c.w 2) false
        else if (u.group (c.f 0 6 0)).isSome then (u.discardLink (c.f 0 6 0)).laneOff (c.f 0 6 0) else u).ok c [] := by
  obtain ⟨hunused, hidle, hfree⟩ := hspan
  have hinuse : (u.group (c.f 0 6 0)).isSome = true → u.rdb (Reg.LANE.CFG.INUSE (c.f 0 6 0)) = false :=
    fun h => hunused.resolve_left (Option.isSome_iff_ne_none.mp h)
  unfold laneSetupBody
  refine (State.checked_pass u c _ _ hf ?_).trans ?_
  · cases honoff : c.b 0 16 with
    | false => simpa [hw.good, hfirst, hfree, loopless hidle] using hinuse
    | true =>
      obtain ⟨hspread, hroom⟩ := hon honoff
      have hbu (asks : Prop) [Decidable asks] :
          (if asks then u.groupHolds (c.f 0 6 0) else laneBu (c.f 0 10 8) (c.f 0 13 12)) ≤
            u.groupHolds (c.f 0 6 0) + u.freeBu := by
        split
        · exact Nat.le_add_right _ _
        · exact hroom
      simpa [hw.good, hfirst, hfree, loopless hidle, hspread, hbu] using hinuse
  · simp only [hfirst, if_true]

variable (hfirst : c.f 0 6 0 < 64) (hspan : u.SpanFree (c.f 0 6 0) (c.f 0 10 8))
include hfirst hspan

theorem laneSetupBody_enables (hon : c.b 0 16 = true) (hspread : u.spreadBad = false)
    (hroom : laneBu (c.f 0 10 8) (c.f 0 13 12) ≤ u.groupHolds (c.f 0 6 0) + u.freeBu) :
    laneSetupBody c u = (u.enableGroup (c.w 0) (c.w 1) (c.w 2) false).ok c [] := by
  rw [laneSetupBody_fabric hf hw hfirst hspan fun _ => ⟨hspread, hroom⟩, if_pos hon]

theorem laneSetupBody_disables (hoff : c.b 0 16 = false) {g : Group} (hg : u.group (c.f 0 6 0) = some g) :
    laneSetupBody c u = ((u.discardLink (c.f 0 6 0)).laneOff (c.f 0 6 0)).ok c [] := by
  rw [laneSetupBody_fabric hf hw hfirst hspan (by simp [hoff]), if_neg (by simp [hoff]), if_pos (by simp [hg])]

/-- Lanes of no group are disabled already. -/
theorem laneSetupBody_stays (hoff : c.b 0 16 = false) (hg : u.group (c.f 0 6 0) = none) : laneSetupBody c u = u.ok c [] := by
  rw [laneSetupBody_fabric hf hw hfirst hspan (by simp [hoff]), if_neg (by simp [hoff]), if_neg (by simp [hg])]

end

/-! ### LANE_LOOP -/

/-- A LANE_LOOP whose operands R399 allows, of a group that no configuration uses. -/
structure LoopAllowed (c : Cmd) (s : State) (g : Group) : Prop where
  word0 : onlyBits c.payload 0 [(5, 0), (9, 8), (12, 12)] = true
  word1 : onlyBits c.payload 1 [(31, 0)] = true
  duration : c.f 1 31 0 ≤ 10000000
  group : s.groupOf (c.f 0 5 0) = some g
  unused : s.rdb (Reg.LANE.CFG.INUSE g.first) = false

/-- A loop of a group begins (R398, R399); a PRBS loop keeps its command. -/
def State.loopBegins (s : State) (c : Cmd) (g : Group) : State :=
  let until_ := if c.f 1 31 0 = 0 then 0 else s.now + c.f 1 31 0 * fsUs
  let s := s.setGroup { g with loop := some (c.f 0 5 0, c.f 0 9 8, if c.b 0 12 then some c.id else none, until_) }
  let s := (s.laneSet Reg.LANE.STAT.STATE g.first g.wlog 3).wr (Reg.LANE.STAT.STATE (c.f 0 5 0)) 4
  if c.b 0 12 then s else s.ok c []

section
variable {c : Cmd} (hf : c.fail = none) {u : State} {g : Group} (ha : LoopAllowed c u g)
include hf ha

theorem laneLoopBody_begins (hop : c.f 0 9 8 ≠ 0) (hidle : g.loop = none)
    (hprbs : c.b 0 12 = true → c.f 0 9 8 ≠ 3 ∧ c.f 1 31 0 ≠ 0) : laneLoopBody c u = u.loopBegins c g := by
  obtain ⟨hword0, hword1, hduration, hgroup, hunused⟩ := ha
  unfold laneLoopBody
  refine (State.checked_pass u c _ _ hf ?_).trans ?_
  · simp [Cmd.reserved_two rfl hword0 hword1, hduration, hgroup, hunused, hidle]
    exact ⟨fun h => (hprbs h).1, fun h _ => (hprbs h).2⟩
  · simp only [hgroup, hop, if_false, State.loopBegins]

/-- OP 0 ends the loop of the lane that it names; a PRBS loop's command is aborted (R399). -/
theorem laneLoopBody_ends (hop : c.f 0 9 8 = 0) :
    laneLoopBody c u =
      match g.loop with
      | some (l, _, cmd, _) =>
        if l = c.f 0 5 0 then
          (match cmd with
            | some id => (u.endLoop g).complete id stAborted 0 []
            | none => u.endLoop g).ok c []
        else u.ok c []
      | none => u.ok c [] := by
  obtain ⟨hword0, hword1, hduration, hgroup, hunused⟩ := ha
  unfold laneLoopBody
  refine (State.checked_pass u c _ _ hf ?_).trans ?_
  · simp [Cmd.reserved_two rfl hword0 hword1, hduration, hgroup, hunused, hop]
  · simp only [hgroup, hop, if_true]
    cases g.loop with
    | none => rfl
    | some loop => obtain ⟨l, _, _ | id, _⟩ := loop <;> rfl

end

/-- The command of a PRBS loop replies with the bits checked and the bit errors (R399). -/
def State.prbsReplies (s : State) (cmd : Option Nat) (nbits errors : Nat) : State :=
  match cmd with
  | some id => s.complete id stOk 0 [toWord nbits, toWord errors]
  | none => s

/-- A loop whose DURATION has passed ends, a PRBS loop with its counts (R399). -/
theorem exec_loopDurationEnd_due {s : State} {dt lane op end_ : Nat} {cmd : Option Nat} {g : Group} (hr : s.inReset = false)
    (hg : s.groupOf lane = some g) (hloop : g.loop = some (lane, op, cmd, end_)) (hend : end_ ≠ 0) (hdue : end_ ≤ s.now + dt)
    (nbits errors : Nat) :
    exec (.loopDurationEnd dt lane nbits errors) s =
      .next (s.after dt fun u => (u.endLoop g).prbsReplies cmd nbits errors) := by
  refine (show _ = execLoopDurationEnd dt lane nbits errors s from rfl).trans (State.event_eq hr dt _ _ ?_)
  simp only [State.elapse_groupOf, hg, hloop]
  exact State.whenever_true _ _ _ (by simp [hend, hdue])

/-! ### LANE_SLEEP -/

/-- A LANE_SLEEP that nothing refuses (R401, R408, R409, R412). -/
structure SleepAllowed (c : Cmd) (s : State) (g : Group) : Prop where
  word0 : onlyBits c.payload 0 [(5, 0), (8, 8), (9, 9), (10, 10), (12, 12)] = true
  group : s.group (c.f 0 5 0) = some g
  idle : g.loop = none
  unused : s.rdb (Reg.LANE.CFG.INUSE (c.f 0 5 0)) = false
  room : c.b 0 8 = true → c.b 0 10 = false → s.rdb (Reg.LANE.STAT.TXSLEEP (c.f 0 5 0)) = true → 2 ^ g.wlog ≤ s.freeBu

theorem laneSleepBody_ok {c : Cmd} (hf : c.fail = none) {u : State} {g : Group} (ha : SleepAllowed c u g) :
    laneSleepBody c u =
      let t := u.laneSet Reg.LANE.CFG.WAKESRC (c.f 0 5 0) g.wlog (b2n (c.b 0 12))
      (if c.b 0 10 then t.sleepGroup g (c.b 0 8) (c.b 0 9) else t.wakeGroup g (c.b 0 8) (c.b 0 9)).ok c [] := by
  obtain ⟨hword0, hgroup, hidle, hunused, hroom⟩ := ha
  have hbu : (if (c.b 0 8 = true ∧ c.b 0 10 = false) ∧ u.rdb (Reg.LANE.STAT.TXSLEEP (c.f 0 5 0)) = true then 2 ^ g.wlog
      else 0) ≤ u.freeBu := by
    split
    · next h => exact hroom h.1.1 h.1.2 h.2
    · exact Nat.zero_le _
  unfold laneSleepBody
  refine (State.checked_pass u c _ _ hf ?_).trans ?_
  · simpa [Cmd.reserved_one rfl hword0, hgroup, hidle, hunused] using hbu
  · simp only [hgroup]

/-! ### The commands' rows -/

section
variable {s : State} {dt : Nat} {h : CmdHdr} {ws : List Word}

/-- An accepted LANE_SETUP has the effect of its meaning. -/
theorem exec_laneSetup (ha : s.accepts dt h (laneSetupLen ws) false false = true) (effect : Cmd → State → State)
    (he : ∀ c, c.fail = none → c.payload = ws →
      laneSetupBody c ((s.elapse dt).begun 0x0701 h ws) = effect c ((s.elapse dt).begun 0x0701 h ws)) :
    exec (.laneSetup dt h ws) s = .next (s.afterCmd dt 0x0701 h ws effect) :=
  exec_accepted rfl ha laneSetupCmd rfl id rfl rfl _ fun c u hf hp _ hu => by
    subst hu
    exact he c hf hp

/-- An accepted LANE_LOOP has the effect of its meaning. -/
theorem exec_laneLoop (ha : s.accepts dt h (decide (ws.length = 2)) false false = true) (effect : Cmd → State → State)
    (he : ∀ c, c.fail = none → c.payload = ws →
      laneLoopBody c ((s.elapse dt).begun 0x0702 h ws) = effect c ((s.elapse dt).begun 0x0702 h ws)) :
    exec (.laneLoop dt h ws) s = .next (s.afterCmd dt 0x0702 h ws effect) :=
  exec_accepted rfl ha laneLoopCmd rfl exactly_of_length rfl rfl _ fun c u hf hp _ hu => by
    subst hu
    exact he c hf hp

end

/-- Settles O47: each command by its meaning where nothing refuses it, the end of a loop by its instant. -/
theorem laneCommandsAct : Obligations.LaneCommandsAct := by
  refine ⟨fun s dt h ws => ?_, fun s dt h ws g => ?_, fun s dt h ws g => ?_,
    fun s dt lane nbits errors op end_ cmd g hr hg hloop hend hdue => exec_loopDurationEnd_due hr hg hloop hend hdue nbits errors⟩
  · intro v w first wlog rate on ha hword0 hword1 hword2 hword3 hlimits hidle
    refine ⟨fun hfirst hroom => exec_laneSetup ha _ fun c hf hp => ?_, fun hfirst hunused hfree =>
      ⟨fun hon hspread hroom => exec_laneSetup ha _ fun c hf hp => ?_,
        fun hoff g hg => exec_laneSetup ha _ fun c hf hp => ?_, fun hoff hg => exec_laneSetup ha _ fun c hf hp => ?_⟩⟩
    all_goals
      subst hp
      have hw : SetupWords c := ⟨hword0, hword1, hword2, hword3, hlimits⟩
    · exact laneSetupBody_timeLane hf hw hfirst hidle hroom
    · exact laneSetupBody_enables hf hw hfirst ⟨hunused, hidle, hfree⟩ hon hspread hroom
    · exact laneSetupBody_disables hf hw hfirst ⟨hunused, hidle, hfree⟩ hoff hg
    · exact laneSetupBody_stays hf hw hfirst ⟨hunused, hidle, hfree⟩ hoff hg
  · intro v lane op prbs dur ha hword0 hword1 hdur hgroup hunused
    refine ⟨fun hop hidle hprbs => exec_laneLoop ha _ fun c hf hp => ?_, fun l k cmd end_ hop hloop =>
      exec_laneLoop ha _ fun c hf hp => ?_, fun hop hidle => exec_laneLoop ha _ fun c hf hp => ?_⟩
    all_goals
      subst hp
      have hc : LoopAllowed c v g := ⟨hword0, hword1, hdur, hgroup, hunused⟩
    · exact laneLoopBody_begins hf hc hop hidle hprbs
    · rw [laneLoopBody_ends hf hc hop, hloop]
      rfl
    · rw [laneLoopBody_ends hf hc hop, hidle]
  · intro v first tx rx sleep ha hword0 hgroup hidle hunused hroom
    refine exec_accepted rfl ha laneSleepCmd rfl exactly_of_length rfl rfl _ fun c u hf hp _ hu => ?_
    subst hp hu
    exact laneSleepBody_ok hf ⟨hword0, hgroup, hidle, hunused, hroom⟩

end Sys2Proof.Machine
end

section
/-! Frames of fabric lanes: what an accepted one does, and the SYNC exchange (R386, R387, R391, R395-R397, R448-R459). -/

namespace Sys2Proof.Machine

/-! ### Sequenced frames -/

/-- A sequenced frame, by whether it passes its checks and has the expected FSEQ (R391). -/
theorem State.receive_eq (s : State) (first : Nat) (f : LaneFrame) (effect : State → State) :
    s.receive first f effect =
      (let v := s.strayBlocks first f.others
       if rxGood f = false then
         let v := v.count (Reg.LANE.LINK1.CRCERR first) 1
         if sequenced (rxKind f) then v.nack first else v
       else
         let v := v.takeStart first (rxExpseq f) (rxCredit f)
         if rxFseq f = v.rd (Reg.LANE.LINK2.EXPSEQ first) then
           let v := (v.wr (Reg.LANE.LINK2.EXPSEQ first) ((rxFseq f + 1) % 4096)).count (Reg.LANE.LINK0.RXFRAMES first) 1
           effect (match v.group first with
             | some g => v.setGroup { g with nackUntil := none, unacked := true }
             | none => v)
         else v.nack first) :=
  if_congr (by simp) rfl (ite_not _ _ _)

/-- A frame of KIND 0x4, by whether it is of the seat's own reel and by its HKIND (R457). -/
theorem State.takeHoldFrame_eq (s : State) (first : Nat) (word p : Word) :
    s.takeHoldFrame first word p =
      if s.ownReel word = false then s.count (Reg.LANE.LINK1.CRCERR first) 1
      else if fieldOf word 51 48 = 1 then s.takeHold first word p
      else if fieldOf word 51 48 = 2 then s.takeStop first word p
      else s := by
  simp only [State.takeHoldFrame, Bool.not_eq_true']

section
variable {s : State} {dt first fseq expseq ctl : Nat} {word : Word} {payload : List Word} {crc : Nat} {others : List LaneBlock}
  (hr : s.inReset = false) (hhears : s.laneHears first = true)
include hr hhears

theorem exec_valueFrameReceive_heard
    (hkind : rxKind (rxFrame fseq expseq ctl word payload crc others) ≤ 1 ∨
      5 < rxKind (rxFrame fseq expseq ctl word payload crc others)) :
    exec (.valueFrameReceive dt first fseq expseq ctl word payload crc others) s = .next (s.after dt fun u =>
      u.receive first (rxFrame fseq expseq ctl word payload crc others) fun v => v.takeValue first word payload) := by
  refine (show _ = execValueFrameReceive dt first fseq expseq ctl word payload crc others s from rfl).trans ?_
  unfold execValueFrameReceive
  exact State.event_whenever hr dt _ _ (by simpa [hhears] using hkind)

/-- A frame of KIND 0x4 arrives by the row of its HKIND (R457). -/
theorem exec_holdOrStopFrameReceive_heard (hkind : rxKind (rxFrame fseq expseq ctl word payload crc others) = kindHold) :
    exec (if fieldOf word 51 48 = 2 then .stopFrameReceive dt first fseq expseq ctl word payload ⟨crc, others⟩
      else .holdFrameReceive dt first fseq expseq ctl word payload ⟨crc, others⟩) s = .next (s.after dt fun u =>
      u.receive first (rxFrame fseq expseq ctl word payload crc others) fun v =>
        v.takeHoldFrame first word (payload.headD 0)) := by
  have hword : (rxFrame fseq expseq ctl word payload crc others).word = word := rfl
  split
  case isTrue hstop =>
    refine (show _ = execStopFrameReceive dt first fseq expseq ctl word payload ⟨crc, others⟩ s from rfl).trans ?_
    unfold execStopFrameReceive
    exact State.event_whenever hr dt _ _ (by simp [hhears, hkind, hword, hstop])
  case isFalse hhold =>
    refine (show _ = execHoldFrameReceive dt first fseq expseq ctl word payload ⟨crc, others⟩ s from rfl).trans ?_
    unfold execHoldFrameReceive
    exact State.event_whenever hr dt _ _ (by simp [hhears, hkind, hword, hhold])

/-! ### The SYNC exchange -/

theorem exec_syncFrameReceive_heard (hkind : rxKind (rxFrame fseq expseq ctl word payload crc others) = kindSync) :
    exec (.syncFrameReceive dt first fseq expseq ctl word payload ⟨crc, others⟩) s = .next (s.after dt fun u =>
      u.hearFrame first (rxFrame fseq expseq ctl word payload crc others) fun v =>
        v.takeSync first word (payload.getD 0 0) (payload.getD 1 0)) := by
  refine (show _ = execSyncFrameReceive dt first fseq expseq ctl word payload ⟨crc, others⟩ s from rfl).trans ?_
  unfold execSyncFrameReceive
  exact State.event_whenever hr dt _ _ (by simp [hhears, hkind])

end

/-- The measurement that a SYNC frame leaves: a new one where the partner's previous frame and the frame it reports are known
(R397). -/
def Group.syncMeas (g : Group) (word p0 p1 : Word) : Option (Int × Int) :=
  match g.syncTxs.find? fun x => x.1 = fieldOf word 63 48 with
  | some x =>
    if (g.partnerSync + 1) % 65536 = fieldOf word 15 0 then
      some (syncOffset (stampUnits p0) g.syncRx x.2 (stampUnits p1), syncDelay (stampUnits p0) g.syncRx x.2 (stampUnits p1))
    else g.meas
  | none => g.meas

theorem State.takeSync_group {s : State} {first : Nat} {g : Group} (hg : s.group first = some g) (word p0 p1 : Word) :
    s.takeSync first word p0 p1 =
      [0, 1].foldl (fun (w : State) d => if w.domSource d = 3 ∧ (w.dom d).lane = first then w.heard d else w)
        (s.setGroup { g with
          meas := g.syncMeas word p0 p1
          partnerSync := fieldOf word 15 0
          syncRx := s.stampNow false (laneCorrection (s.rd (Reg.LANE.CFG.RATE first))).2 }) := by
  simp only [State.takeSync, hg]
  rfl

/-- The SYNC frame that a group sends: its number and the partner's, when its previous one left and the partner's last one arrived
(R396). -/
def State.sendSync (s : State) (first : Nat) (g : Group) : State :=
  let prev := (g.syncTxs.head?.map Prod.snd).getD 0
  let v := s.sendNow first kindSync (toWord (g.syncNo % 65536 + g.partnerSync % 65536 * 2 ^ 48))
    [stampWord (prev * 65536), stampWord (g.syncRx * 65536)]
  match v.group first with
  | some h =>
    let tx := v.syncStamp h (((h.sent.filter fun f => f.kind = kindSync).getLast?.map LFrame.pos).getD 0)
    v.setGroup { h with
      syncNo := (g.syncNo + 1) % 65536, syncAt := v.now, syncTxs := ((g.syncNo, tx) :: g.syncTxs).take 8 }
  | none => v

theorem exec_syncInterval_due {s : State} {dt first : Nat} {g : Group} (hr : s.inReset = false) (hg : s.group first = some g)
    (hsends : s.laneSends first = true) (hon : s.rdb (Reg.LANE.CFG.SYNCEN first) = true)
    (hdue : g.syncAt + s.rd (Reg.LANE.CFG.SYNCINT first) * fsUs ≤ s.now + dt) :
    exec (.syncInterval dt first) s = .next (s.after dt fun u => u.sendSync first g) :=
  (show _ = execSyncInterval dt first s from rfl).trans
    (State.event_group hr hg dt _ (fun g u => u.sendSync first g) (by simp [hsends, hon, hdue]))

end Sys2Proof.Machine
end

section
/-! Ethernet frames of the time lanes, and the PTP messages of a domain (R406, R407, R414, R431, R435). -/

namespace Sys2Proof.Machine

/-! ### Frames that arrive -/

/-- The codewords of the RS-FEC since the previous frame, counted in mode 3 (R406, R414). -/
def State.fecCounted (s : State) (lane corrected bad : Nat) : State :=
  if s.rd (Reg.ETH.CFG.MODE lane) = 3 then
    (s.count (Reg.ETH.FEC.CORRECTED lane) corrected).count (Reg.ETH.FEC.UNCORRECTED lane) bad
  else s

/-- A frame's arrival stamped, referred to the ball (R432). -/
def State.ethStamped (s : State) (lane : Nat) : State :=
  { s with time := { s.time with
      ethRx := s.time.ethRx.set lane (s.stampNow false (ethCorrection (s.rd (Reg.ETH.CFG.MODE lane))).2) } }

/-- A PTP message of a domain's source measures the domain (R431). -/
def State.ptpTaken (s : State) (lane : Nat) (ptp : Option Int) : State :=
  match ptp with
  | none => s
  | some off => [0, 1].foldl (fun (w : State) d =>
      if w.domSource d = 2 ∧ (w.dom d).lane = 64 + lane then w.measure d (w.asymmetric d (psInt off)) else w) s

theorem State.fecCounted_addr (s : State) (lane corrected bad : Nat) :
    (s.fecCounted lane corrected bad).rd (Reg.ETH.CFG.ADDR lane) = s.rd (Reg.ETH.CFG.ADDR lane) := by
  unfold State.fecCounted
  split
  · exact (State.rd_wr_of_addr _ _ _ _ (by simp [Reg.ETH.CFG.ADDR, Reg.ETH.FEC.UNCORRECTED])).trans
      (State.rd_wr_of_addr _ _ _ _ (by simp [Reg.ETH.CFG.ADDR, Reg.ETH.FEC.CORRECTED]))
  · rfl

/-- The filter of a time lane (R407). -/
theorem State.ethAccepts_iff (s : State) (lane : Nat) (bytes : List Byte) :
    s.ethAccepts lane bytes = true ↔
      beNat (bytes.take 6) = s.rd (Reg.ETH.CFG.ADDR lane) ∨ BitVec.ofNat 48 (beNat (bytes.take 6)) ∈ ptpAddresses := by
  simp [State.ethAccepts]

theorem exec_ethFrameReceive_linked {s : State} {dt lane : Nat} (hr : s.inReset = false) (h4 : lane < 4)
    (hlink : s.rdb (Reg.ETH.STAT.LINK lane) = true) (bytes : List Byte) (corrected bad : Nat) (buffer : Bool) (ptp : Option Int) :
    exec (.ethFrameReceive dt lane bytes corrected bad buffer ptp) s = .next (s.after dt fun u =>
      (u.fecCounted lane corrected bad).ethTake lane bytes buffer ptp) :=
  (show _ = execEthFrameReceive dt lane bytes corrected bad buffer ptp s from rfl).trans
    (State.event_whenever hr dt _ _ (by simp [h4, hlink]))

section
variable (s : State) (lane : Nat) {bytes : List Byte} (buffer : Bool) (ptp : Option Int)

theorem State.ethTake_badFcs (hfcs : ethFcsOk bytes = false) :
    s.ethTake lane bytes buffer ptp = s.count (Reg.ETH.RXCNT.RXFCS lane) 1 := by
  simp [State.ethTake, hfcs]

variable (hfcs : ethFcsOk bytes = true)
include hfcs

theorem State.ethTake_badShape (hshape : ethShapeOk bytes = false) : s.ethTake lane bytes buffer ptp = s := by
  simp [State.ethTake, hfcs, hshape]

variable (hshape : ethShapeOk bytes = true)
include hshape

theorem State.ethTake_pause (hpause : ethPause bytes = true) :
    s.ethTake lane bytes buffer ptp = s.count (Reg.ETH.TXCNT.PAUSE lane) 1 := by
  simp [State.ethTake, hfcs, hshape, hpause]

/-- A frame that is no PAUSE frame is stamped, and Keeper gets what the filter accepts and a buffer takes (R406, R407). -/
theorem State.ethTake_passed (hpause : ethPause bytes = false) :
    s.ethTake lane bytes buffer ptp =
      if s.ethAccepts lane bytes = true ∧ buffer = true then
        ((s.ethStamped lane).count (Reg.ETH.RXCNT.RXOK lane) 1).ptpTaken lane ptp
      else (s.ethStamped lane).count (Reg.ETH.RXCNT.RXDROP lane) 1 := by
  have hdrop : (!s.ethAccepts lane bytes || !buffer) = true ↔ ¬ (s.ethAccepts lane bytes = true ∧ buffer = true) := by
    cases buffer <;> simp
  unfold State.ethTake
  simp only [hfcs, hshape, hpause, Bool.not_true, Bool.false_eq_true, if_false]
  exact (if_congr hdrop rfl rfl).trans (ite_not _ _ _)

end

/-! ### Messages that Keeper sends -/

/-- As slave of a PTP domain, Keeper sends a delay request on the source lane while its link is up (R431). -/
def State.delayRequested (s : State) (domain : Nat) : State :=
  let x := s.dom domain
  if s.domSource domain = 2 ∧ s.rdb (Reg.ETH.STAT.LINK (x.lane - 64)) = true then
    s.ethSend (x.lane - 64) (ptpBytes x.transport)
  else s

/-- What an interval brings on a serving lane of a domain: nothing while its link is down; a lane of timed launch has its FRAME cue
armed within the interval, on another a Sync and its Follow_Up are sent (R431, R435). -/
def State.laneServed (x : Domain) (s : State) (t : Nat) : State :=
  if s.rdb (Reg.ETH.STAT.LINK t) then
    match x.frameCues.find? fun f => f.1 = t with
    | some f =>
      let ahead := (Config.freeWord s.free).toNat % (2 ^ x.synclog * (1000000000 / 128)) * 65536
      ({ s with free := s.free + 1 }).armCue f.2 (s.outUnits + ahead) 0
    | none => s.sendTwoStep t x.transport
  else s

theorem exec_ptpSyncInterval_source {s : State} {dt domain : Nat} (hr : s.inReset = false) (h2 : domain < 2)
    (hsource : s.domSource domain ≠ 0) :
    exec (.ptpSyncInterval dt domain) s = .next (s.after dt fun u =>
      (serveLanes (u.dom domain).serve).foldl (State.laneServed (u.dom domain)) (u.delayRequested domain)) := by
  have helapse : (s.elapse dt).domSource domain = s.domSource domain := rfl
  refine (show _ = execPtpSyncInterval dt domain s from rfl).trans (State.event_eq hr dt _ _ ?_)
  refine (State.whenever_true _ _ _ (by simp [h2, helapse, hsource])).trans ?_
  refine congrArg (fun f => List.foldl f _ _) (funext₂ fun u t => ?_)
  unfold State.laneServed
  cases u.rdb (Reg.ETH.STAT.LINK t) <;> rfl

/-- Settles O46: each frame by the condition under which it is heard and what it then does; the intervals by their instants. -/
theorem framesArrive : Obligations.FramesArrive := by
  refine ⟨fun s dt first fseq expseq ctl word payload crc others hr hhears => ?_, State.receive_eq,
    fun s first g word p0 p1 hg => State.takeSync_group hg word p0 p1,
    fun s dt first g hr hg hsends hon hdue => exec_syncInterval_due hr hg hsends hon hdue,
    fun s dt lane bytes corrected bad buffer ptp hr h4 hlink => ?_,
    fun s dt domain hr h2 hsource => exec_ptpSyncInterval_source hr h2 hsource⟩
  · intro frame
    refine ⟨fun hkind => exec_valueFrameReceive_heard hr hhears hkind, fun hkind => ?_, fun hkind => ?_⟩
    · simp only [exec_holdOrStopFrameReceive_heard hr hhears hkind, State.takeHoldFrame_eq]
      rfl
    · simp only [exec_syncFrameReceive_heard hr hhears hkind, State.hearFrame_eq]
      rfl
  · intro fec stamped accepted event
    have hexec := exec_ethFrameReceive_linked (dt := dt) hr h4 hlink bytes corrected bad buffer ptp
    have haccepted : ((s.elapse dt).fecCounted lane corrected bad).ethAccepts lane bytes = true ∧ buffer = true ↔ accepted := by
      rw [State.ethAccepts_iff, State.fecCounted_addr, State.elapse_rd]
    refine ⟨fun hfcs => hexec.trans ?_, fun hfcs hshape => hexec.trans ?_, fun hfcs hshape hpause => hexec.trans ?_,
      fun hfcs hshape hpause hdrop => hexec.trans ?_, fun hfcs hshape hpause htake => hexec.trans ?_⟩ <;>
      refine congrArg _ (State.after_congr ?_)
    · exact State.ethTake_badFcs _ lane buffer ptp hfcs
    · exact State.ethTake_badShape _ lane buffer ptp hfcs hshape
    · exact State.ethTake_pause _ lane buffer ptp hfcs hshape hpause
    · exact (State.ethTake_passed _ lane buffer ptp hfcs hshape hpause).trans (if_neg (mt haccepted.mp hdrop))
    · exact (State.ethTake_passed _ lane buffer ptp hfcs hshape hpause).trans (if_pos (haccepted.mpr htake))

end Sys2Proof.Machine
end

section
/-! The output time and the cues as the host uses them: the read of `TIME.NOWNS`, POP of a capture input, TIME_SELECT and CUE_SET
(R419, R425-R427, R437-R443). -/

namespace Sys2Proof.Machine

/-! ### Reads of the output time -/

/-- The nanoseconds and the visible fraction of a time, as `TIME.NOWNS` shows them. -/
def TimeU.nowns (x : TimeU) : Nat := setBits (setBits 0 15 0 x.frac) 47 16 x.nanos

theorem TimeU.nowns_eq (x : TimeU) : x.nowns = x.nanos * 2 ^ 16 + x.frac := by
  have hnanos : x.nanos < 1000000000 := Nat.mod_lt _ (by decide)
  have hfrac : x.frac < 65536 := Nat.mod_lt _ (by decide)
  rw [TimeU.nowns, setBits_eq, setBits_eq]
  norm_num
  omega

theorem TimeU.nowns_lt (x : TimeU) : x.nowns < 2 ^ 48 := by
  have hnanos : x.nanos < 1000000000 := Nat.mod_lt _ (by decide)
  have hfrac : x.frac < 65536 := Nat.mod_lt _ (by decide)
  rw [TimeU.nowns_eq]
  omega

theorem TimeU.nowns_word (x : TimeU) : (toWord x.nowns).toNat = x.nowns :=
  (BitVec.toNat_ofNat _ _).trans (Nat.mod_eq_of_lt (x.nowns_lt.trans (by decide)))

theorem TimeU.nowns_fields (x : TimeU) :
    fieldOf (toWord x.nowns) Reg.TIME.NOWNS.NS.hi Reg.TIME.NOWNS.NS.lo = x.nanos ∧
      fieldOf (toWord x.nowns) Reg.TIME.NOWNS.FRAC.hi Reg.TIME.NOWNS.FRAC.lo = x.frac := by
  have hnanos : x.nanos < 1000000000 := Nat.mod_lt _ (by decide)
  have hfrac : x.frac < 65536 := Nat.mod_lt _ (by decide)
  rw [fieldOf, fieldOf, x.nowns_word]
  constructor
  · exact (bits_setBits _ _ _ _).trans (Nat.mod_eq_of_lt (hnanos.trans (by decide)))
  · refine (bits_setBits_below _ _ _ _ _ _ (by decide)).trans ((bits_setBits _ _ _ _).trans (Nat.mod_eq_of_lt hfrac))

/-- The row of the table that defines `TIME.NOWNS`. -/
def nownsRow : RegSpec := ⟨0x40000, [], [⟨15, 0, .ro, 0⟩, ⟨47, 16, .ro, 0⟩]⟩

theorem findReg_nowns : findReg Reg.TIME.NOWNS.NS.addr = some nownsRow := by decide

theorem State.readReg_nowns (s : State) : s.readReg Reg.TIME.NOWNS.NS.addr = toWord s.time.nowns := by
  have hview : s.view Reg.TIME.NOWNS.NS.addr (s.stored Reg.TIME.NOWNS.NS.addr) = some (toWord s.time.nowns) := rfl
  have hmask : nownsRow.mask = 2 ^ 48 - 1 := by decide
  have hland : Nat.land s.time.nowns (2 ^ 48 - 1) = s.time.nowns :=
    (Nat.and_two_pow_sub_one_eq_mod _ _).trans (Nat.mod_eq_of_lt s.time.nowns_lt)
  unfold State.readReg
  rw [findReg_nowns]
  dsimp only
  rw [hview, Option.getD_some, s.time.nowns_word, hmask, hland]

/-- A 64-bit read of `TIME.NOWNS` latches the seconds (R419). -/
theorem State.readAccess_nowns (s : State) :
    s.readAccess Reg.TIME.NOWNS.NS.addr 8 = (toWord s.time.nowns, s.wr Reg.TIME.NOWSEC.SEC s.time.secs) := by
  have hwo : fieldsAt Reg.TIME.NOWNS.NS.addr .wo = [] := by decide
  have hrc : fieldsAt Reg.TIME.NOWNS.NS.addr .rc = [] := by decide
  have hwhole : bits s.time.nowns 63 0 = s.time.nowns :=
    (Nat.mod_eq_of_lt ((Nat.div_le_self _ _).trans_lt (s.time.nowns_lt.trans (by decide)))).trans (Nat.div_one _)
  have hbase : Reg.TIME.NOWNS.NS.addr / 8 * 8 = Reg.TIME.NOWNS.NS.addr := by decide
  unfold State.readAccess
  simp only [hbase, hwo, hrc, List.filter_nil, List.foldl_nil, and_self, if_true, State.readReg_nowns, TimeU.nowns_word]
  exact congrArg (fun n => (toWord n, _)) hwhole

/-! ### Accesses that the hallway carries -/

/-- An access to a register of the step engine or of the time unit; it is a wake source (R476, R566). -/
theorem State.access_carried (s : State) {a : Nat} (f : State → State) (ha : 0x20000 ≤ a ∧ a < 0x90000) (hp : s.hif.perst = false)
    (hb : s.bar0Status a = hsOk) : s.access a f = (f s).wakeLogic 1 := by
  have hhome : registerHome a = 0x10 := by
    unfold registerHome
    rw [if_neg (by omega), if_neg (by omega), if_neg (by omega), if_neg (by omega), if_neg (by omega)]
  simp [State.access, hp, hb, hhome]

theorem exec_timeNownsRead_reached {s : State} {dt : Nat} (hr : s.inReset = false) (hp : s.hif.perst = false) (hw : s.power < 2)
    (ht : s.pwr.target = none) (hb : s.bar0Status Reg.TIME.NOWNS.NS.addr = hsOk) :
    exec (.timeNownsRead dt) s = .next (s.after dt fun u =>
      (u.wr Reg.TIME.NOWSEC.SEC u.time.secs).send (.readData Reg.TIME.NOWNS.NS.addr 8 (toWord u.time.nowns))) := by
  have hb' : (s.elapse dt).bar0Status Reg.TIME.NOWNS.NS.addr = hsOk := (s.elapse_bar0Status dt _).trans hb
  have hok : accessOk Reg.TIME.NOWNS.NS.addr 8 = true := by decide
  refine (show _ = execTimeNownsRead dt s from rfl).trans (State.event_eq hr dt _ _ ?_)
  simp only [State.bar0Read, hok, hb', Bool.not_true, beq_self_eq_true, Bool.true_or, Bool.false_eq_true, if_false, if_true,
    State.readAccess_nowns]
  rw [(s.elapse dt).access_carried _ (by decide) hp hb']
  refine State.wakeLogic_awake _ ?_ ?_ 1
  · exact (State.rd_wr_of_addr _ Reg.TIME.NOWSEC.SEC Reg.PWR.STATE.STATE _ (by decide)).trans_lt hw
  · exact ht

theorem exec_capturePop_reached {s : State} {dt input : Nat} (hr : s.inReset = false) (hp : s.hif.perst = false)
    (h8 : input < 8) (hb : s.bar0Status (Reg.TIME.CAP.HI.POP input).addr = hsOk) :
    exec (.capturePop dt input) s = .next (s.after dt fun u => (u.popCapture input).wakeLogic 1) := by
  have hb' : (s.elapse dt).bar0Status (Reg.TIME.CAP.HI.POP input).addr = hsOk := (s.elapse_bar0Status dt _).trans hb
  have hblock : 0x20000 ≤ (Reg.TIME.CAP.HI.POP input).addr ∧ (Reg.TIME.CAP.HI.POP input).addr < 0x90000 := by
    simp only [Reg.TIME.CAP.HI.POP]
    omega
  exact (show _ = execCapturePop dt input s from rfl).trans (State.event_eq hr dt _ _
    ((State.whenever_true _ _ _ (decide_eq_true h8)).trans ((s.elapse dt).access_carried _ hblock hp hb')))

/-- Settles O15: the read by what a 64-bit read of `TIME.NOWNS` returns and latches, POP by the access that carries it. -/
theorem timeReadLatchesAndPopRemoves : Obligations.TimeReadLatchesAndPopRemoves := by
  refine ⟨fun s dt hr hp hw ht hb => ?_, fun s dt input hr hp h8 hb => exec_capturePop_reached hr hp h8 hb⟩
  obtain ⟨hns, hfrac⟩ := (s.elapse dt).time.nowns_fields
  have hsecs : (s.elapse dt).time.secs < 2 ^ 48 := Nat.mod_lt _ (by decide)
  refine ⟨_, _, exec_timeNownsRead_reached hr hp hw ht hb, rfl, hns, hfrac, ?_, fun a ha => State.stored_wr_of_ne _ _ _ ha⟩
  exact (State.rd_wr_self _ Reg.TIME.NOWSEC.SEC _ (by decide)).trans (Nat.mod_eq_of_lt hsecs)

end Sys2Proof.Machine
end

section
/-! TIME_SELECT and CUE_SET where nothing refuses them (R425-R427, R437-R442). -/

namespace Sys2Proof.Machine

/-! ### What the start of a command leaves of the time unit -/

section
variable (s : State) (op : Nat) (h : CmdHdr) (ws : List Word)

theorem State.begun_time : (s.begun op h ws).time = s.time := by unfold State.begun; split <;> rfl

/-- The mailbox's register is none of the time unit's. -/
theorem State.begun_rd_time {f : Field} (hf : 0x20000 ≤ f.addr) : (s.begun op h ws).rd f = s.rd f :=
  s.begun_rd op h ws (Nat.ne_of_gt (Nat.lt_of_lt_of_le (by decide) hf))

theorem State.begun_rdb_time {f : Field} (hf : 0x20000 ≤ f.addr) : (s.begun op h ws).rdb f = s.rdb f := by
  simp only [State.rdb, s.begun_rd_time op h ws hf]

theorem domStateF_addr (d : Nat) : (domStateF d).addr = Reg.TIME.STAT.SEL.addr := by
  unfold domStateF
  split <;> rfl

theorem State.begun_domState (d : Nat) : (s.begun op h ws).domState d = s.domState d :=
  s.begun_rd_time op h ws (by rw [domStateF_addr]; decide)

theorem State.begun_cueFunc (k : Nat) : (s.begun op h ws).cueFunc k = s.cueFunc k :=
  s.begun_rd_time op h ws (by simp only [Reg.TIME.CUE.THI.FUNC]; omega)

theorem State.begun_cueFree (k f : Nat) : (s.begun op h ws).cueFree k f = s.cueFree k f := by
  simp only [State.cueFree, State.begun_cueFunc]

theorem State.begun_cueArmed (k : Nat) : (s.begun op h ws).cueArmed k = s.cueArmed k :=
  s.begun_rdb_time op h ws (by simp only [Reg.TIME.CUE.THI.ARMED]; omega)

theorem State.begun_anyArmed : (s.begun op h ws).anyArmed = s.anyArmed :=
  congrArg (List.any (List.range 16)) (funext fun k => s.begun_cueArmed op h ws k)

end

/-! ### TIME_SELECT -/

/-- A TIME_SELECT that R426 allows. -/
structure SelectAllowed (c : Cmd) (u : State) : Prop where
  word0 : onlyBits c.payload 0 [(0, 0), (1, 1), (2, 2)] = true
  on : u.domState (c.f 0 0 0) ≠ dsOff
  jump : c.b 0 2 = true → u.anyArmed = false ∧ u.rd Reg.STEP.CTRL.MODE ≠ 3

theorem timeSelectBody_ok {c : Cmd} (hf : c.fail = none) {u : State} (ha : SelectAllowed c u) :
    timeSelectBody c u = ((u.wrb Reg.TIME.STAT.AUTO (c.b 0 1)).selectDomain (c.f 0 0 0) false (c.b 0 2)).ok c [] := by
  obtain ⟨hword0, hon, hjump⟩ := ha
  unfold timeSelectBody
  exact State.checked_pass u c _ _ hf (by simpa [Cmd.reserved_one rfl hword0, hon] using hjump)

/-! ### CUE_SET -/

theorem Cmd.reserved_four {c : Cmd} {ws : List Word} (h : c.payload = ws) {f g k l : List (Nat × Nat)}
    (hf : onlyBits ws 0 f = true) (hg : onlyBits ws 1 g = true) (hk : onlyBits ws 2 k = true) (hl : onlyBits ws 3 l = true) :
    c.reserved [f, g, k, l] = false := by
  rw [onlyBits_iff] at hf hg hk hl
  simp only [Cmd.reserved, Cmd.w_of h, List.zipIdx_cons, List.zipIdx_nil, List.any_cons, List.any_nil, hf, hg, hk, hl,
    Bool.or_false]

/-- The words of a CUE_SET that set no reserved bit (R441). -/
structure CueWords (c : Cmd) : Prop where
  word0 : onlyBits c.payload 0 [(1, 0), (7, 4), (11, 8), (12, 12), (17, 16)] = true
  word1 : onlyBits c.payload 1 [(47, 0)] = true
  word2 : onlyBits c.payload 2 [(47, 0)] = true
  word3 : onlyBits c.payload 3 [(39, 0)] = true

theorem CueWords.good {c : Cmd} (h : CueWords c) :
    c.reserved [[(1, 0), (7, 4), (11, 8), (12, 12), (17, 16)], [(47, 0)], [(47, 0)], [(39, 0)]] = false :=
  Cmd.reserved_four rfl h.word0 h.word1 h.word2 h.word3

/-- The operands of CUE_SET (R441): what it does, to which cue or capture input, and for which function. -/
abbrev Cmd.cueOp (c : Cmd) : Nat := c.f 0 1 0
abbrev Cmd.cueIndex (c : Cmd) : Nat := c.f 0 7 4
abbrev Cmd.cueFn (c : Cmd) : Nat := c.f 0 11 8

/-- A match time and a period that R439 and R464 allow. -/
structure MatchAllowed (c : Cmd) : Prop where
  period : c.b 0 12 = true → c.f 3 39 0 ≠ 0
  nanos : c.f 1 47 16 ≤ 999999999

/-- The period of a CUE_SET in 0.125 ns, 0 for one shot (R439). -/
def Cmd.cuePeriod (c : Cmd) : Nat := if c.b 0 12 then c.f 3 39 0 else 0

/-- The match time of a CUE_SET in units of 2^-16 ns (R464). -/
def Cmd.cueMatch (c : Cmd) : Nat := timeUnits (c.w 1) (c.w 2)

section
variable {c : Cmd} (hf : c.fail = none) (hw : CueWords c) {u : State}
include hf hw

/-- A TRACE or NOTIFY cue is claimed, and armed at its match time. -/
theorem cueSetBody_claims (hop : c.cueOp = 0) (hm : MatchAllowed c) (hfn : c.cueFn = fnTrace ∨ c.cueFn = fnNotify)
    (hfree : u.cueFree c.cueIndex c.cueFn = true) :
    cueSetBody c u = ((u.claimCue c.cueIndex c.cueFn).armCue c.cueIndex c.cueMatch c.cuePeriod).ok c [] := by
  obtain ⟨hperiod, hnanos⟩ := hm
  have hclaims : (c.cueFn == fnTrace || c.cueFn == fnNotify) = true := by simpa using hfn
  have hdrives : (c.cueFn == fnStep || c.cueFn == fnOutput) = false := by
    rcases hfn with e | e <;> rw [e] <;> decide
  unfold cueSetBody
  refine (State.checked_pass u c _ _ hf ?_).trans ?_
  · simpa [hw.good, hop, hclaims, hdrives, hfree, timeBad] using ⟨hperiod, hnanos⟩
  · simp only [hop, hclaims, if_true]
    rfl

/-- A STEP or OUTPUT cue that its owner has is armed, but for that of a reel (R440). -/
theorem cueSetBody_drives (hop : c.cueOp = 0) (hm : MatchAllowed c) (hfn : c.cueFn = fnStep ∨ c.cueFn = fnOutput)
    (howner : u.cueFunc c.cueIndex = c.cueFn)
    (hreel : c.cueFn = fnOutput ∨ ¬ (u.rdb Reg.TIME.REEL.JOINED = true ∧ u.rd Reg.TIME.REEL.CUE = c.cueIndex)) :
    cueSetBody c u = (u.armCue c.cueIndex c.cueMatch c.cuePeriod).ok c [] := by
  obtain ⟨hperiod, hnanos⟩ := hm
  have hclaims : (c.cueFn == fnTrace || c.cueFn == fnNotify) = false := by
    rcases hfn with e | e <;> rw [e] <;> decide
  have hdrives : (c.cueFn == fnStep || c.cueFn == fnOutput) = true := by simpa using hfn
  have hjoined : (c.cueFn == fnStep && (u.rdb Reg.TIME.REEL.JOINED && u.rd Reg.TIME.REEL.CUE == c.cueIndex)) = false := by
    rcases hreel with e | e
    · rw [e]
      exact Bool.false_and _
    · simpa using fun _ => e
  unfold cueSetBody
  refine (State.checked_pass u c _ _ hf ?_).trans ?_
  · simpa [hw.good, hop, hclaims, hdrives, howner, hjoined, timeBad] using ⟨hperiod, hnanos⟩
  · simp only [hop, hclaims, Bool.false_eq_true, if_true, if_false]
    rfl

/-- A cue that is free, or of TRACE or NOTIFY, is released (R440). -/
theorem cueSetBody_releases (hop : c.cueOp = 1) (hfree : u.cueFunc c.cueIndex = 0 ∨ 4 < u.cueFunc c.cueIndex) :
    cueSetBody c u = (u.releaseCue c.cueIndex).ok c [] := by
  have howner : ¬ (1 ≤ u.cueFunc c.cueIndex ∧ u.cueFunc c.cueIndex ≤ 4) := by omega
  unfold cueSetBody
  refine (State.checked_pass u c _ _ hf ?_).trans ?_
  · simpa [hw.good, hop] using howner
  · simp only [hop, if_true, if_false, Nat.one_ne_zero]

/-- The edges of a capture input are selected, and its FIFO is emptied (R442). -/
theorem cueSetBody_edges (hop : c.cueOp = 2) (h8 : c.cueIndex < 8) :
    cueSetBody c u =
      (let v := u.wr (Reg.TIME.CAP.HI.EDGESEL c.cueIndex) (c.f 0 17 16)
       ({ v with time := { v.time with
         caps := v.time.caps.set c.cueIndex [], capLast := v.time.capLast.set c.cueIndex none } }).ok c []) := by
  unfold cueSetBody
  refine (State.checked_pass u c _ _ hf ?_).trans ?_
  · simpa [hw.good, hop] using h8
  · simp only [hop, OfNat.ofNat_ne_zero, OfNat.ofNat_ne_one, if_false]

end

/-! ### The commands' rows -/

section
variable {s : State} {dt : Nat} {h : CmdHdr} {ws : List Word}

/-- An accepted TIME_SELECT has the effect of its meaning. -/
theorem exec_timeSelect (ha : s.accepts dt h (decide (ws.length = 1)) false false = true) (effect : Cmd → State → State)
    (he : ∀ c, c.fail = none → c.payload = ws →
      timeSelectBody c ((s.elapse dt).begun 0x0802 h ws) = effect c ((s.elapse dt).begun 0x0802 h ws)) :
    exec (.timeSelect dt h ws) s = .next (s.afterCmd dt 0x0802 h ws effect) :=
  exec_accepted rfl ha timeSelectCmd rfl exactly_of_length rfl rfl _ fun c u hf hp _ hu => by
    subst hu
    exact he c hf hp

/-- An accepted CUE_SET has the effect of its meaning. -/
theorem exec_cueSet (ha : s.accepts dt h (decide (ws.length = 4)) false false = true) (effect : Cmd → State → State)
    (he : ∀ c, c.fail = none → c.payload = ws →
      cueSetBody c ((s.elapse dt).begun 0x0803 h ws) = effect c ((s.elapse dt).begun 0x0803 h ws)) :
    exec (.cueSet dt h ws) s = .next (s.afterCmd dt 0x0803 h ws effect) :=
  exec_accepted rfl ha cueSetCmd rfl exactly_of_length rfl rfl _ fun c u hf hp _ hu => by
    subst hu
    exact he c hf hp

end

/-- Settles O43: each command by its meaning where nothing refuses it; what is asked of the state when the command is fetched
holds when it starts. -/
theorem timeSelectAndCueSet : Obligations.TimeSelectAndCueSet := by
  intro s dt h ws
  constructor
  · intro d jump ha hword0 hon hjump
    refine exec_timeSelect ha _ fun c hf hp => ?_
    subst hp
    refine timeSelectBody_ok hf ⟨hword0, ?_, fun hj => ?_⟩
    · rw [State.begun_domState]
      exact hon
    · rw [State.begun_anyArmed, State.begun_rd_time _ _ _ _ (by decide)]
      exact hjump hj
  · intro op k fn periodic match_ ha hword0 hword1 hword2 hword3
    refine ⟨fun hop hperiod hnanos => ⟨fun hfn hfree => ?_, fun hfn howner hreel => ?_⟩, fun hop hfree => ?_, fun hop h8 => ?_⟩
    all_goals
      refine exec_cueSet ha _ fun c hf hp => ?_
      subst hp
      have hw : CueWords c := ⟨hword0, hword1, hword2, hword3⟩
    · refine cueSetBody_claims hf hw hop ⟨hperiod, hnanos⟩ hfn ?_
      rw [State.begun_cueFree]
      exact hfree
    · refine cueSetBody_drives hf hw hop ⟨hperiod, hnanos⟩ hfn ?_ ?_
      · rw [State.begun_cueFunc]
        exact howner
      · rw [State.begun_rdb_time _ _ _ _ (by decide), State.begun_rd_time _ _ _ _ (by decide)]
        exact hreel
    · refine cueSetBody_releases hf hw hop ?_
      rw [State.begun_cueFunc]
      exact hfree
    · exact cueSetBody_edges hf hw hop h8

end Sys2Proof.Machine
end

section
/-! The events of the time unit: offset measurements, silence, slews, cue matches and capture edges (R422-R425, R433, R434, R437,
R442, R443). -/

namespace Sys2Proof.Machine

/-! ### Domains -/

theorem State.setDom_dom (s : State) (d : Nat) (x : Domain) : (s.setDom d x).dom d = x := by
  unfold State.setDom State.dom
  split <;> rfl

/-- While time passes a domain advances. -/
theorem State.elapse_dom (s : State) (dt d : Nat) : ∃ n, (s.elapse dt).dom d = (s.dom d).advance n := by
  unfold State.dom
  split <;> exact ⟨_, rfl⟩

theorem State.elapse_asym (s : State) (dt d : Nat) : ((s.elapse dt).dom d).asym = (s.dom d).asym := by
  obtain ⟨n, hn⟩ := s.elapse_dom dt d
  rw [hn]
  rfl

theorem State.elapse_lane (s : State) (dt d : Nat) : ((s.elapse dt).dom d).lane = (s.dom d).lane := by
  obtain ⟨n, hn⟩ := s.elapse_dom dt d
  rw [hn]
  rfl

theorem State.elapse_heardAt (s : State) (dt d : Nat) : ((s.elapse dt).dom d).heardAt = (s.dom d).heardAt := by
  obtain ⟨n, hn⟩ := s.elapse_dom dt d
  rw [hn]
  rfl

theorem State.elapse_domSource (s : State) (dt d : Nat) : (s.elapse dt).domSource d = s.domSource d := rfl

theorem State.elapse_domState (s : State) (dt d : Nat) : (s.elapse dt).domState d = s.domState d := rfl

theorem State.elapse_domGroup (s : State) (dt d : Nat) : (s.elapse dt).domGroup d = s.domGroup d := by
  unfold State.domGroup
  rw [State.elapse_lane]
  rfl

theorem State.elapse_domInterval (s : State) (dt d : Nat) : (s.elapse dt).domInterval d = s.domInterval d := by
  obtain ⟨n, hn⟩ := s.elapse_dom dt d
  unfold State.domInterval
  rw [hn]
  rfl

/-! ### Measurements -/

section
variable {s : State} {dt domain : Nat} (hr : s.inReset = false) (h2 : domain < 2)
include hr h2

/-- A PTP domain is measured by the offset of its exchange, with its asymmetry (R433). -/
theorem exec_domainOffsetMeasurement_ptp (hsource : s.domSource domain = 2) (off : Int) :
    exec (.domainOffsetMeasurement dt domain off) s = .next (s.after dt fun u =>
      u.measure domain (psInt off + psInt (s.dom domain).asym / 2)) := by
  refine (show _ = execDomainOffsetMeasurement dt domain off s from rfl).trans (State.event_eq hr dt _ _ ?_)
  refine (State.whenever_true _ _ _ (decide_eq_true h2)).trans ((if_pos hsource).trans ?_)
  rw [State.asymmetric, State.elapse_asym]

/-- The state in which the SYNC exchange of a group has been taken for a domain (R434). -/
def State.exchangeTaken (s : State) (domain : Nat) (g : Group) (m : Int × Int) : State :=
  let v := s.setGroup { g with meas := none }
  v.setDom domain { v.dom domain with pathDelay := m.2 * 65536 }

/-- A REEL domain is measured by the SYNC exchange of its group, which also gives the path delay (R434). -/
theorem exec_domainOffsetMeasurement_reel {g : Group} {m : Int × Int} (hsource : s.domSource domain = 3)
    (hg : s.domGroup domain = some g) (hm : g.meas = some m) (off : Int) :
    exec (.domainOffsetMeasurement dt domain off) s = .next (s.after dt fun u =>
      (u.exchangeTaken domain g m).measure domain (m.1 * 65536 + psInt (s.dom domain).asym / 2)) := by
  have hasym : (((s.elapse dt).exchangeTaken domain g m).dom domain).asym = (s.dom domain).asym := by
    rw [State.exchangeTaken, State.setDom_dom]
    exact s.elapse_asym dt domain
  refine (show _ = execDomainOffsetMeasurement dt domain off s from rfl).trans (State.event_eq hr dt _ _ ?_)
  refine (State.whenever_true _ _ _ (decide_eq_true h2)).trans ?_
  rw [State.elapse_domSource, hsource, if_neg (by decide), if_pos rfl, State.elapse_domGroup, hg]
  dsimp only
  rw [hm, ← hasym]
  rfl

theorem exec_sourceSilenceTimeout_due (hsource : 2 ≤ s.domSource domain)
    (hstate : s.domState domain = dsLocked ∨ s.domState domain = dsAcquiring)
    (hdue : (s.dom domain).heardAt + 3 * s.domInterval domain ≤ s.now + dt) :
    exec (.sourceSilenceTimeout dt domain) s = .next (s.after dt fun u => u.domLeaves domain dsFree 2) := by
  refine (show _ = execSourceSilenceTimeout dt domain s from rfl).trans (State.event_whenever hr dt _ _ ?_)
  rw [State.elapse_domSource, State.elapse_domState, State.elapse_heardAt, State.elapse_domInterval, State.elapse_now,
    decide_eq_true h2, decide_eq_true hsource, decide_eq_true hdue]
  simpa using hstate

end

/-! ### The rate of the output -/

/-- The output is within 2^-16 ns of the selected domain (R425). -/
def State.nearSelected (s : State) : Prop :=
  (s.dom s.selected).time ≤ s.time.out + 2 ^ 16 ∧ s.time.out ≤ (s.dom s.selected).time + 2 ^ 16

theorem State.wr_slew_selected (s : State) (v w : Nat) :
    ((s.wr Reg.TIME.STAT.SLEW v).wr Reg.TIME.RATE.RATE w).selected = s.selected :=
  (State.rd_wr_of_addr _ Reg.TIME.RATE.RATE Reg.TIME.STAT.SEL w (by decide)).trans
    (State.rd_wr_of_apart _ (f := Reg.TIME.STAT.SLEW) v (by decide) (by decide))

theorem State.followRate_off {s : State} (hoff : s.domState s.selected = dsOff) : s.followRate = s.wr Reg.TIME.STAT.SLEW 0 :=
  if_pos hoff

/-- A slew that has come near the selected domain ends. -/
theorem State.followRate_ends {s : State} (hon : s.domState s.selected ≠ dsOff) (hnear : s.nearSelected)
    (hslew : s.rdb Reg.TIME.STAT.SLEW = true) :
    s.followRate = ((s.wr Reg.TIME.STAT.SLEW 0).wr Reg.TIME.RATE.RATE (s.dom s.selected).rate).post 0x0804 sevInfo srcDevice
      s.selected := by
  refine (if_neg hon).trans ((if_pos hnear).trans ((if_pos hslew).trans ?_))
  rw [State.wr_slew_selected]

/-- Far from the selected domain the output slews toward it. -/
theorem State.followRate_slews {s : State} (hon : s.domState s.selected ≠ dsOff) (hfar : ¬ s.nearSelected) :
    s.followRate = (s.wr Reg.TIME.STAT.SLEW 1).wr Reg.TIME.RATE.RATE (if s.time.out < (s.dom s.selected).time then
      (s.dom s.selected).rate + slewRate else (s.dom s.selected).rate - slewRate) := by
  refine (if_neg hon).trans ((if_neg hfar).trans ?_)
  split <;> rfl

theorem exec_slewComplete_slewing {s : State} {dt : Nat} (hr : s.inReset = false) (hslew : s.rdb Reg.TIME.STAT.SLEW = true) :
    exec (.slewComplete dt) s = .next (s.after dt State.followRate) :=
  (show _ = execSlewComplete dt s from rfl).trans (State.event_whenever hr dt _ _ hslew)

/-! ### Cues and capture inputs -/

theorem exec_cueMatch_due {s : State} {dt cue : Nat} (hr : s.inReset = false) (h16 : cue < 16)
    (hdue : (s.elapse dt).cueDue cue = true) :
    exec (.cueMatch dt cue) s = .next (s.after dt fun u => (u.cueNext cue).cueActs cue) :=
  (show _ = execCueMatch dt cue s from rfl).trans (State.event_whenever hr dt _ _ (by simp [h16, hdue]))

/-- Whether an edge that comes at `now` is selected and not nearer than 4 ns to the one stamped before it (R442). -/
def State.edgeSelected (s : State) (now input : Nat) (rising : Bool) : Prop :=
  bit (s.rd (Reg.TIME.CAP.HI.EDGESEL input)) (if rising then 0 else 1) = true ∧
    ∀ t, s.time.capLast.getD input none = some t → t + 4 * fsNs ≤ now

/-- What an edge at a capture input does that is stamped, or overflows the FIFO (R442, R443). -/
def State.captured (s : State) (input : Nat) (rising : Bool) : State :=
  let q := s.time.caps.getD input []
  let v := { s with time := { s.time with capLast := s.time.capLast.set input (some s.now) } }
  if 4 ≤ q.length then (v.wr (Reg.TIME.CAP.HI.OVF input) 1).postLimited 0x0807 input sevWarn srcDevice input
  else { v with time := { v.time with caps := v.time.caps.set input (q ++ [v.time.stamp rising]) } }

/-- No instant that is remembered lies nearer than `gap` before `now`. -/
theorem any_near_eq_false_iff (last : Option Nat) (now gap : Nat) :
    (last.any fun t => decide (now < t + gap)) = false ↔ ∀ t, last = some t → t + gap ≤ now := by
  cases last with
  | none => simp
  | some t => simp only [Option.any_some, decide_eq_false_iff_not, Nat.not_lt, Option.some.injEq, forall_eq']

section
variable {s : State} {dt input : Nat} {rising : Bool} (hr : s.inReset = false) (h8 : input < 8)
include hr h8

theorem exec_captureEdge_eq :
    exec (.captureEdge dt input rising) s = .next (s.after dt fun u =>
      (u.wrBit Reg.IOB.CTLPINS.TS_IN input rising).whenever
        (bit (s.rd (Reg.TIME.CAP.HI.EDGESEL input)) (if rising then 0 else 1) &&
          !(s.time.capLast.getD input none).any fun t => decide (s.now + dt < t + 4 * fsNs))
        fun v => v.captured input rising) := by
  have hedges : ((s.elapse dt).wrBit Reg.IOB.CTLPINS.TS_IN input rising).rd (Reg.TIME.CAP.HI.EDGESEL input) =
      s.rd (Reg.TIME.CAP.HI.EDGESEL input) :=
    State.rd_wr_of_addr _ Reg.IOB.CTLPINS.TS_IN _ _ (by simp only [Reg.TIME.CAP.HI.EDGESEL, Reg.IOB.CTLPINS.TS_IN]; omega)
  refine (show _ = execCaptureEdge dt input rising s from rfl).trans (State.event_eq hr dt _ _ ?_)
  refine (State.whenever_true _ _ _ (decide_eq_true h8)).trans ?_
  dsimp only
  rw [hedges]
  rfl

theorem exec_captureEdge_selected (hsel : s.edgeSelected (s.now + dt) input rising) :
    exec (.captureEdge dt input rising) s = .next (s.after dt fun u =>
      (u.wrBit Reg.IOB.CTLPINS.TS_IN input rising).captured input rising) := by
  obtain ⟨hbit, hfar⟩ := hsel
  rw [exec_captureEdge_eq hr h8]
  refine congrArg _ (State.after_congr (State.whenever_true _ _ _ ?_))
  rw [hbit, (any_near_eq_false_iff _ _ _).mpr hfar]
  rfl

theorem exec_captureEdge_shown (hsel : ¬ s.edgeSelected (s.now + dt) input rising) :
    exec (.captureEdge dt input rising) s = .next (s.after dt fun u => u.wrBit Reg.IOB.CTLPINS.TS_IN input rising) := by
  rw [exec_captureEdge_eq hr h8]
  refine congrArg _ (State.after_congr (State.whenever_false _ _ _ (Bool.eq_false_iff.mpr fun hc => hsel ?_)))
  rw [Bool.and_eq_true, Bool.not_eq_true'] at hc
  exact ⟨hc.1, (any_near_eq_false_iff _ _ _).mp hc.2⟩

end

end Sys2Proof.Machine
end

section
/-! HOLDUP_N, and the VCCIO of a bank (R646, R656, R668, R672). -/

namespace Sys2Proof.Machine

/-- HOLDUP_N as the pins and the firmware unit show it. -/
theorem exec_holdupNAssert_outside {s : State} {dt : Nat} (hr : s.inReset = false) (low : Bool) :
    exec (.holdupNAssert dt low) s = .next (s.after dt fun u =>
      (u.wr Reg.IOB.CTLPINS.HOLDUP_N (if low then 0 else 1)).wr Reg.FWU.STAT.HOLDUP (if low then 1 else 0)) := by
  refine (show _ = execHoldupNAssert dt low s from rfl).trans (State.event_eq hr dt _ _ ?_)
  cases low <;> rfl

/-- A bank that is active and whose VCCIO is too low for its code (R668). -/
def State.vccioFails (s : State) (bank mv : Nat) : Bool :=
  s.rdb (Reg.IOB.CFG.ACTIVE bank) && vccioLow (s.rd (Reg.IOB.CFG.VCCIO bank)) mv

/-- The state in which a bank's VCCIO has been measured too low, before its outputs float. -/
def State.vlowShown (s : State) (bank mv : Nat) : State :=
  ((s.wr (Reg.IOB.VMEAS.MV bank) (min mv 4095)).wr (Reg.IOB.CFG.VLOW bank) 1).wr (Reg.IOB.CFG.VLOWSEEN bank) 1

/-- What a VCCIO that is not too low leaves. -/
def State.vccioGood (s : State) (bank mv : Nat) : State :=
  (s.wr (Reg.IOB.VMEAS.MV bank) (min mv 4095)).wr (Reg.IOB.CFG.VLOW bank) 0

theorem State.vccioFails_iff (s : State) (bank mv : Nat) :
    s.vccioFails bank mv = true ↔
      s.rdb (Reg.IOB.CFG.ACTIVE bank) = true ∧ mv * 100 < vccioMv (s.rd (Reg.IOB.CFG.VCCIO bank)) * 90 := by
  rw [State.vccioFails, Bool.and_eq_true, vccioLow, decide_eq_true_iff]

/-- Whether a bank fails depends neither on the series of measurements nor on the value shown. -/
theorem State.vccioFails_shown (s : State) (bank mv series v : Nat) :
    ((s.sampledNow series).wr (Reg.IOB.VMEAS.MV bank) v).vccioFails bank mv = s.vccioFails bank mv := by
  have hapart : ∀ g : Field, g.addr = 0x120000 + 0x800 * bank → g.addr ≠ (Reg.IOB.VMEAS.MV bank).addr := fun g hg => by
    simp only [hg, Reg.IOB.VMEAS.MV]
    omega
  unfold State.vccioFails State.rdb
  rw [State.rd_wr_of_addr _ _ (Reg.IOB.CFG.ACTIVE bank) _ (hapart _ rfl),
    State.rd_wr_of_addr _ _ (Reg.IOB.CFG.VCCIO bank) _ (hapart _ rfl)]
  rfl

section
variable {s : State} {dt bank mv : Nat} (hr : s.inReset = false) (h16 : bank < 16)
  (hdue : s.clk.sampledAt.at 0 (16 + bank) + 100 * fsUs ≤ s.now + dt)
include hr h16 hdue

theorem exec_vccioMeasure_due :
    exec (.vccioMeasure dt bank mv) s = .next (s.after dt fun u =>
      if u.vccioFails bank mv then ((u.sampledNow (16 + bank)).vlowShown bank mv).floatBank bank
      else (u.sampledNow (16 + bank)).vccioGood bank mv) := by
  refine (show _ = execVccioMeasure dt bank mv s from rfl).trans (State.event_eq hr dt _ _ ?_)
  refine (State.whenever_true _ _ _ (decide_eq_true h16)).trans ((State.whenever_true _ _ _ (decide_eq_true hdue)).trans ?_)
  rw [← State.vccioFails_shown _ bank mv (16 + bank) (min mv 4095)]
  rfl

theorem exec_vccioMeasure_low
    (hlow : s.rdb (Reg.IOB.CFG.ACTIVE bank) = true ∧ mv * 100 < vccioMv (s.rd (Reg.IOB.CFG.VCCIO bank)) * 90) :
    exec (.vccioMeasure dt bank mv) s = .next (s.after dt fun u =>
      ((u.sampledNow (16 + bank)).vlowShown bank mv).floatBank bank) :=
  (exec_vccioMeasure_due hr h16 hdue).trans
    (congrArg _ (State.after_congr (if_pos (((s.elapse dt).vccioFails_iff bank mv).mpr hlow))))

theorem exec_vccioMeasure_good
    (hgood : ¬ (s.rdb (Reg.IOB.CFG.ACTIVE bank) = true ∧ mv * 100 < vccioMv (s.rd (Reg.IOB.CFG.VCCIO bank)) * 90)) :
    exec (.vccioMeasure dt bank mv) s = .next (s.after dt fun u => (u.sampledNow (16 + bank)).vccioGood bank mv) :=
  (exec_vccioMeasure_due hr h16 hdue).trans
    (congrArg _ (State.after_congr (if_neg (mt ((s.elapse dt).vccioFails_iff bank mv).mp hgood))))

end

/-! ### What the registers of the bank then show -/

section
variable (s : State) (bank mv : Nat)

theorem State.rd_vmeas_wr_cfg (f : Field) (hf : f.addr = (Reg.IOB.CFG.VLOW bank).addr) (v : Nat) :
    (s.wr f v).rd (Reg.IOB.VMEAS.MV bank) = s.rd (Reg.IOB.VMEAS.MV bank) :=
  s.rd_wr_of_addr _ _ _ (by simp only [hf, Reg.IOB.VMEAS.MV, Reg.IOB.CFG.VLOW]; omega)

theorem State.rd_wr_vmeas : (s.wr (Reg.IOB.VMEAS.MV bank) (min mv 4095)).rd (Reg.IOB.VMEAS.MV bank) = min mv 4095 :=
  (s.rd_wr_self _ _ ⟨Nat.zero_le _, by simp only [Reg.IOB.VMEAS.MV]; decide⟩).trans
    (Nat.mod_eq_of_lt (Nat.lt_of_le_of_lt (Nat.min_le_right _ _) (by simp only [Reg.IOB.VMEAS.MV]; decide)))

theorem State.floatBank_rd (f : Field) : (s.floatBank bank).rd f = s.rd f := rfl

theorem vlow_valid : (Reg.IOB.CFG.VLOW bank).valid := ⟨le_refl 14, show 14 < 64 by decide⟩

theorem vlowseen_valid : (Reg.IOB.CFG.VLOWSEEN bank).valid := ⟨le_refl 15, show 15 < 64 by decide⟩

theorem State.vlowShown_rd :
    (s.vlowShown bank mv).rd (Reg.IOB.VMEAS.MV bank) = min mv 4095 ∧ (s.vlowShown bank mv).rd (Reg.IOB.CFG.VLOW bank) = 1 ∧
      (s.vlowShown bank mv).rd (Reg.IOB.CFG.VLOWSEEN bank) = 1 := by
  have hapart : (Reg.IOB.CFG.VLOWSEEN bank).apart (Reg.IOB.CFG.VLOW bank) := .inr (.inl (show 14 < 15 by decide))
  unfold State.vlowShown
  refine ⟨?_, ?_, State.rd_wr_self _ _ 1 (vlowseen_valid bank)⟩
  · rw [State.rd_vmeas_wr_cfg _ bank (Reg.IOB.CFG.VLOWSEEN bank) rfl, State.rd_vmeas_wr_cfg _ bank (Reg.IOB.CFG.VLOW bank) rfl,
      State.rd_wr_vmeas]
  · rw [State.rd_wr_of_apart _ 1 (vlowseen_valid bank) hapart]
    exact State.rd_wr_self _ _ 1 (vlow_valid bank)

theorem State.vccioGood_rd :
    (s.vccioGood bank mv).rd (Reg.IOB.VMEAS.MV bank) = min mv 4095 ∧ (s.vccioGood bank mv).rd (Reg.IOB.CFG.VLOW bank) = 0 ∧
      (s.vccioGood bank mv).rd (Reg.IOB.CFG.VLOWSEEN bank) = s.rd (Reg.IOB.CFG.VLOWSEEN bank) := by
  have hapart : (Reg.IOB.CFG.VLOW bank).apart (Reg.IOB.CFG.VLOWSEEN bank) := .inr (.inr (show 14 < 15 by decide))
  have hmeas : (Reg.IOB.CFG.VLOWSEEN bank).addr ≠ (Reg.IOB.VMEAS.MV bank).addr := by
    simp only [Reg.IOB.VMEAS.MV, Reg.IOB.CFG.VLOWSEEN]
    omega
  unfold State.vccioGood
  refine ⟨?_, State.rd_wr_self _ _ 0 (vlow_valid bank), ?_⟩
  · rw [State.rd_vmeas_wr_cfg _ bank (Reg.IOB.CFG.VLOW bank) rfl, State.rd_wr_vmeas]
  · rw [State.rd_wr_of_apart _ 0 (vlow_valid bank) hapart, State.rd_wr_of_addr _ _ _ _ hmeas]

end

/-- Settles O44: each event by its condition and what it then does. -/
theorem timeEventsAndPins : Obligations.TimeEventsAndPins := by
  refine ⟨fun s dt domain off hr h2 => ⟨fun hsource => exec_domainOffsetMeasurement_ptp hr h2 hsource off,
      fun g m hsource hg hm => exec_domainOffsetMeasurement_reel hr h2 hsource hg hm off⟩,
    fun s dt domain hr h2 hsource hstate hdue => exec_sourceSilenceTimeout_due hr h2 hsource hstate hdue,
    fun s dt hr hslew => ?_,
    fun s dt cue hr h16 hdue => exec_cueMatch_due hr h16 hdue,
    fun s dt input rising hr h8 => ?_,
    fun s dt low hr => exec_holdupNAssert_outside hr low,
    fun s dt bank mv hr h16 hdue => ?_⟩
  · intro u near
    have hslews : u.rdb Reg.TIME.STAT.SLEW = true := hslew
    rw [exec_slewComplete_slewing hr hslew]
    exact ⟨fun hon hnear => congrArg _ (State.after_congr (State.followRate_ends hon hnear hslews)),
      fun hon hfar => congrArg _ (State.after_congr (State.followRate_slews hon hfar)),
      fun hoff => congrArg _ (State.after_congr (State.followRate_off hoff))⟩
  · intro selected q
    refine ⟨fun hsel => exec_captureEdge_shown hr h8 hsel, fun hsel hroom => ?_, fun hsel hfull => ?_⟩ <;>
      refine (exec_captureEdge_selected hr h8 hsel).trans (congrArg _ (State.after_congr ?_))
    · exact if_neg (Nat.not_le.mpr hroom)
    · exact if_pos hfull
  · intro low
    refine ⟨fun hlow => ?_, fun hgood => ?_⟩
    · obtain ⟨hmv, hvlow, hseen⟩ := ((s.elapse dt).sampledNow (16 + bank)).vlowShown_rd bank mv
      refine ⟨_, exec_vccioMeasure_low hr h16 hdue hlow, ?_, ?_, ?_, rfl, rfl, rfl⟩ <;> rw [State.after_rd, State.floatBank_rd]
      exacts [hmv, hvlow, hseen]
    · obtain ⟨hmv, hvlow, hseen⟩ := ((s.elapse dt).sampledNow (16 + bank)).vccioGood_rd bank mv
      refine ⟨_, exec_vccioMeasure_good hr h16 hdue hgood, ?_, ?_, ?_, rfl, rfl, rfl⟩ <;> rw [State.after_rd]
      exacts [hmv, hvlow, hseen]

end Sys2Proof.Machine
end

section
/-! Multi-device steps: the promise window, the guard of a late value, and REEL_JOIN (R444-R458, R464). -/

namespace Sys2Proof.Machine

/-! ### The promise window -/

@[simp] theorem State.elapse_stepping (s : State) (dt : Nat) : (s.elapse dt).stepping = s.stepping := rfl
@[simp] theorem State.elapse_stillLate (s : State) (dt : Nat) : (s.elapse dt).stillLate = s.stillLate := rfl

/-- The promise window of the step that runs, or launches next, is still open and closes now (R450). -/
structure State.WindowCloses (s : State) (r : Reel) : Prop where
  reel : s.time.reel = some r
  mode : s.rd Reg.STEP.CTRL.MODE = 3
  stepping : s.stepping = true
  isOpen : (r.closed.all fun c => c.1 != s.rd Reg.STEP.COUNT.COUNT) = true
  reached : s.step.cur.isSome = true ∨ r.launchUnits (s.rd Reg.STEP.COUNT.COUNT) * 65536 ≤ s.time.out

/-- The window of the step closed, with the channels that are late (R450). -/
def State.windowClosed (s : State) (r : Reel) (late : List (Nat × Nat)) : State :=
  let m := s.rd Reg.STEP.COUNT.COUNT
  s.setReel { r with closed := some (m, r.launchUnits m), late := late.map Prod.fst }

/-- A late value counted and posted, `ns` after the launch time (R450). -/
def State.lateValue (ns : Nat) (s : State) (x : Nat × Nat) : State :=
  (s.count Reg.TIME.REELCNT.LATE 1).postLimited 0x0808 0 sevWarn srcDevice (x.1 + ns * 2 ^ 16)

theorem State.lateValue_dev (ns : Nat) (s : State) (x : Nat × Nat) : (s.lateValue ns x).dev = s.dev := by
  unfold State.lateValue
  rw [(State.hostOnly_postLimited _ _ _ _ _ _).dev, State.count_dev]

theorem State.lateValues_dev (ns : Nat) (late : List (Nat × Nat)) :
    ∀ s : State, (late.foldl (State.lateValue ns) s).dev = s.dev := by
  induction late with
  | nil => exact fun _ => rfl
  | cons x late ih => exact fun s => (ih _).trans (s.lateValue_dev ns x)

section
variable {s : State} {r : Reel} (hw : s.WindowCloses r)
include hw

theorem State.closeWindow_eq :
    s.closeWindow =
      let m := s.rd Reg.STEP.COUNT.COUNT
      let late := s.missing s.currentCtx m
      let v := late.foldl (State.lateValue (min ((s.time.out - r.launchUnits m * 65536) / 2 ^ 32) 65535)) (s.windowClosed r late)
      if !late.isEmpty && !r.inShadow m then v.applyHold m v.dev.seat 0 none else v := by
  obtain ⟨hreel, hmode, hstepping, hopen, hreached⟩ := hw
  unfold State.closeWindow
  rw [hreel]
  exact if_pos ⟨hmode, hstepping, hopen, hreached⟩

/-- Where every value has arrived the window closes, and that is all. -/
theorem State.closeWindow_complete (hall : s.missing s.currentCtx (s.rd Reg.STEP.COUNT.COUNT) = []) :
    s.closeWindow = s.windowClosed r [] := by
  rw [State.closeWindow_eq hw]
  dsimp only
  rw [hall]
  rfl

/-- Late values are counted and, outside the shadow of the last hold, held for (R453, R454). -/
theorem State.closeWindow_late (hlate : s.missing s.currentCtx (s.rd Reg.STEP.COUNT.COUNT) ≠ []) :
    s.closeWindow =
      let m := s.rd Reg.STEP.COUNT.COUNT
      let late := s.missing s.currentCtx m
      let v := late.foldl (State.lateValue (min ((s.time.out - r.launchUnits m * 65536) / 2 ^ 32) 65535)) (s.windowClosed r late)
      if r.inShadow m then v else v.applyHold m s.dev.seat 0 none := by
  have hsome : (s.missing s.currentCtx (s.rd Reg.STEP.COUNT.COUNT)).isEmpty = false := by
    simpa [List.isEmpty_eq_false_iff] using hlate
  rw [State.closeWindow_eq hw]
  dsimp only
  rw [hsome, State.lateValues_dev]
  cases r.inShadow (s.rd Reg.STEP.COUNT.COUNT) <;> rfl

end

/-- A PROMISE_WINDOW_CLOSE has the effect of the window that it closes. -/
theorem exec_promiseWindowClose_closes {s : State} {dt : Nat} (hr : s.inReset = false) {f : State → State}
    (h : (s.elapse dt).closeWindow = f (s.elapse dt)) : exec (.promiseWindowClose dt) s = .next (s.after dt f) :=
  (show _ = execPromiseWindowClose dt s from rfl).trans (State.event_eq hr dt _ _ h)

/-! ### The guard of a late value -/

/-- A late value that is still missing at the guard's end stops the seat (R452, R456, R458). -/
theorem exec_reelGuardExpiry_due {s : State} {dt chan : Nat} {rest : List Nat} {r : Reel} (hr : s.inReset = false)
    (hreel : s.time.reel = some r) (hlate : s.stillLate = chan :: rest) (hmode : s.rd Reg.STEP.CTRL.MODE = 3)
    (hstepping : s.stepping = true)
    (hend : ((r.closed.map Prod.snd).getD 0 + r.guard * tickUnits) * 65536 ≤ (s.elapse dt).time.out) :
    exec (.reelGuardExpiry dt) s = .next (s.after dt fun u =>
      let m := u.rd Reg.STEP.COUNT.COUNT
      let v := u.post 0x080B sevError srcDevice (chan + m % 2 ^ 48 * 2 ^ 16)
      (v.sendHold 2 m v.dev.seat true 0 none).halts true 7 seHalted) := by
  have hreel' : (s.elapse dt).time.reel = some r := hreel
  refine (show _ = execReelGuardExpiry dt s from rfl).trans (State.event_eq hr dt _ _ ?_)
  simp only [hreel', State.elapse_stillLate, hlate]
  refine State.whenever_true _ _ _ ?_
  rw [State.elapse_rd, hmode, State.elapse_stepping, hstepping, decide_eq_true hend]
  rfl

/-! ### REEL_JOIN -/

/-- The words of a REEL_JOIN that set no reserved bit (R464). -/
structure JoinWords (c : Cmd) : Prop where
  word0 : onlyBits c.payload 0 [(11, 0), (15, 12), (25, 16)] = true
  word1 : onlyBits c.payload 1 [(19, 0)] = true
  word2 : onlyBits c.payload 2 [(23, 0)] = true
  word3 : onlyBits c.payload 3 [(47, 0)] = true
  word4 : onlyBits c.payload 4 [(47, 0)] = true

theorem JoinWords.good {c : Cmd} (h : JoinWords c) :
    c.reserved [[(11, 0), (15, 12), (25, 16)], [(19, 0)], [(23, 0)], [(47, 0)], [(47, 0)], [(63, 0)]] = false := by
  obtain ⟨hword0, hword1, hword2, hword3, hword4⟩ := h
  rw [onlyBits_iff] at hword0 hword1 hword2 hword3 hword4
  simp only [Cmd.reserved, Cmd.w_of rfl, List.zipIdx_cons, List.zipIdx_nil, List.any_cons, List.any_nil, hword0, hword1, hword2,
    hword3, hword4, badBits_whole_word, Bool.or_false]

/-- The operands of REEL_JOIN (R464): its STEP cue, DIAM, the period and the guard. -/
abbrev Cmd.reelCue (c : Cmd) : Nat := c.f 0 15 12
abbrev Cmd.reelDiam (c : Cmd) : Nat := c.f 0 25 16
abbrev Cmd.reelPeriod (c : Cmd) : Nat := c.f 1 19 0
abbrev Cmd.reelGuard (c : Cmd) : Nat := c.f 2 23 0

/-- The groups that a REEL_JOIN names. -/
abbrev Cmd.reelGroups (c : Cmd) : List Nat := (List.range 64).filter fun n => c.b 5 n

/-- The start time of a REEL_JOIN in units of 2^-16 ns. -/
abbrev Cmd.reelStart (c : Cmd) : Nat := timeUnits (c.w 3) (c.w 4)

/-- The demand of the contexts in use in REEL mode at the period of a REEL_JOIN (R92). -/
abbrev Cmd.reelDemand (c : Cmd) (u : State) : Nat := u.demandOf 3 u.ctxMode c.reelPeriod u.ctxsInUse

/-- A schedule that R444-R446 and R456 allow. -/
structure ScheduleAllowed (c : Cmd) (u : State) : Prop where
  diam : c.reelDiam ≠ 0
  least : 100 ≤ c.reelGuard
  most : c.reelGuard ≤ 10000000
  nanos : c.f 3 47 16 ≤ 999999999
  soon : u.outUnits + 1000000 * 65536 ≤ c.reelStart
  late : c.reelStart ≤ u.outUnits + 1000000 * (1000000 * 65536)
  period : maxList (u.promises u.ctxMode u.ctxsInUse) + u.reelHop c.reelGroups ≤ c.reelPeriod
  guard : c.reelDiam * (u.reelHop c.reelGroups + 192) ≤ 8 * c.reelGuard

/-- A device that may join a reel (R444, R447, R461). -/
structure MayJoin (c : Cmd) (u : State) : Prop where
  halted : u.engine = seHalted
  groups : ∀ g ∈ c.reelGroups, (u.group g).isSome = true ∧ u.laneUp g = true
  locked : u.domState u.selected = dsLocked
  cards : ∀ d ∈ u.runSegments, u.rd (Reg.STEP.CARDSEG.LEN d) ≠ 0
  awake : u.power < 2
  settled : u.pwr.target = none
  free : u.engineBusy = false
  cue : u.cueFree c.reelCue fnStep = true
  room : c.reelDemand u ≤ u.holds 0x0A + u.freeBu
  sound : u.badParts = false

/-- The state in which a REEL_JOIN has its grant. -/
def State.joinGranted (s : State) (demand : Nat) : State :=
  ((s.setHeld 0x0A demand).wr Reg.STEP.BUDGET.DEMAND (min demand 2047)).wr Reg.STEP.BUDGET.GRANT (min demand 2047)

/-- The cue `old` of an earlier reel and that of an earlier start, released where the reel to join takes another (R440, R446). -/
def State.joinReleases (s : State) (old cue : Nat) : State :=
  let u := if s.rdb Reg.TIME.REEL.JOINED && old != cue then s.releaseCue old else s
  let start := u.rd Reg.STEP.PACE.CUE
  if u.rdb Reg.STEP.PACE.CUESTART && start != cue && u.cueFunc start == fnStep then u.releaseCue start else u

/-- The joined reel and what shows it: its record, `TIME.REEL`, mode REEL and the pace (R444, R466). -/
def State.joinShown (s : State) (c : Cmd) : State :=
  let m0 := s.rd Reg.STEP.COUNT.COUNT
  let r := Reel.mk c.reelStart c.reelPeriod (8 * c.reelGuard) m0 0 0 c.reelGroups none none []
  let u := s.setReel { r with hold := (m0 : Int) - r.window - 1 }
  let u := u.store Reg.TIME.REEL.REELID.addr
    (toWord (c.f 0 11 0 + 2 ^ 12 + c.reelCue * 2 ^ 16 + c.reelDiam * 2 ^ 20 + c.reelGuard * 2 ^ 32))
  ((u.wr Reg.STEP.CTRL.MODE 3).wr Reg.STEP.PACE.PERIOD c.reelPeriod).wr Reg.STEP.PACE.CUESTART 0

/-- The run of a joined reel: its STEP cue armed at the start time every period, and the engine started (R437, R447). -/
def State.joinRuns (s : State) (c : Cmd) : State :=
  (((s.claimCue c.reelCue fnStep).armCue c.reelCue c.reelStart c.reelPeriod).pacingSync).startRun (some c.id) none

/-- A REEL_JOIN that nothing refuses: the grant, the cues, the record and the run. -/
theorem reelJoinBody_ok {c : Cmd} (hf : c.fail = none) (hw : JoinWords c) {u : State} (hs : ScheduleAllowed c u)
    (hj : MayJoin c u) :
    reelJoinBody c u =
      (((u.joinGranted (c.reelDemand u)).joinReleases (u.rd Reg.TIME.REEL.CUE) c.reelCue).joinShown c).joinRuns c := by
  obtain ⟨hdiam, hleast, hmost, hnanos, hsoon, hlate, hperiod, hguard⟩ := hs
  obtain ⟨hhalted, hgroups, hlocked, hcards, hawake, hsettled, hfree, hcue, hroom, hsound⟩ := hj
  have hgrant : u.requestDemand (c.reelDemand u) true = some (u.joinGranted (c.reelDemand u)) := if_pos hroom
  unfold reelJoinBody
  refine (State.checked_pass u c _ _ hf ?_).trans ?_
  · simp only [List.forall_mem_cons]
    refine ⟨?_, ?_, hfree, ?_, ?_, hsound, by simp⟩
    · have hahead : ¬ c.reelStart - u.outUnits < 1000000 * 65536 := by omega
      have hnear : ¬ 1000000 * (1000000 * 65536) < c.reelStart - u.outUnits := by omega
      have htime : timeBad (c.w 3) = false := decide_eq_false (Nat.not_lt.mpr hnanos)
      rw [hw.good, htime, beq_false_of_ne hdiam, decide_eq_false (Nat.not_lt.mpr hleast), decide_eq_false (Nat.not_lt.mpr hmost),
        decide_eq_false hahead, decide_eq_false hnear, decide_eq_false (Nat.not_lt.mpr hperiod),
        decide_eq_false (Nat.not_lt.mpr hguard)]
      rfl
    · have hup : (c.reelGroups.any fun g => !((u.group g).isSome && u.laneUp g)) = false := by
        rw [List.any_eq_false]
        exact fun g hg => by simp [hgroups g hg]
      have hfilled : (u.runSegments.any fun d => u.rd (Reg.STEP.CARDSEG.LEN d) == 0) = false := by
        simpa using hcards
      rw [hup, hfilled, hhalted, hlocked, hsettled, decide_eq_false (Nat.not_le.mpr hawake)]
      rfl
    · simp [hcue]
    · exact congrArg Option.isNone hgrant
  · rw [hgrant, Option.getD_some]
    generalize u.joinGranted (c.reelDemand u) = v
    rfl

/-- Settles O45: a REEL_JOIN by its meaning where nothing refuses it, the window by the values that are missing when it closes,
the guard by its end. -/
theorem reelsJoinAndWait : Obligations.ReelsJoinAndWait := by
  refine ⟨fun s dt h ws ha => ?_, fun s dt r hr hreel hmode hstepping => ?_,
    fun s dt chan rest r hr hreel hlate hmode hstepping hend => ?_⟩
  · intro v cue diam period guard t0 groups hop demand hword0 hword1 hword2 hword3 hword4 hdiam hleast hmost hnanos hsoon hfar
      hperiod hguard hhalted hgroups hlocked hcards hawake hsettled hfree hcue hroom hsound
    refine exec_accepted rfl ha reelJoinCmd rfl exactly_of_length rfl rfl _ fun c u hf hp _ hu => ?_
    subst hp hu
    exact reelJoinBody_ok hf ⟨hword0, hword1, hword2, hword3, hword4⟩
      ⟨hdiam, hleast, hmost, hnanos, hsoon, hfar, hperiod, hguard⟩
      ⟨(State.begun_engine _ _ _ _).trans hhalted, hgroups, hlocked, hcards, hawake, hsettled, hfree, hcue, hroom, hsound⟩
  · intro m hopen hreached
    have hw : (s.elapse dt).WindowCloses r := ⟨hreel, hmode, hstepping, hopen, hreached⟩
    exact ⟨fun hall => exec_promiseWindowClose_closes hr (State.closeWindow_complete hw hall),
      fun hlate => exec_promiseWindowClose_closes hr (State.closeWindow_late hw hlate)⟩
  · refine (exec_reelGuardExpiry_due hr hreel hlate hmode hstepping hend).trans (congrArg _ (State.after_congr ?_))
    dsimp only
    rw [(State.hostOnly_post _ _ _ _ _).dev]
    rfl

end Sys2Proof.Machine
end

section
/-! What leaves the domains of the output time as they are, and what a TIME_DOMAIN_SETUP writes (R420-R427, R436, R464). -/

namespace Sys2Proof.Machine

/-! ### What leaves the domains as they are -/

/-- The fields that show a domain's state, source and path, and that of the spread which a HOST domain's rate follows. -/
def domainFields : List Field :=
  [Reg.TIME.STAT.STATEA, Reg.TIME.STAT.STATEB, Reg.TIME.DOM.SOURCE 0, Reg.TIME.DOM.SOURCE 1, Reg.TIME.DOM.PATH 0,
    Reg.TIME.DOM.PATH 1, Reg.CLK.SYSSPREAD.DEPTH]

/-- `t` is `s` but for registers, the queues of the host link and what has been sent; the domains' fields stay. -/
structure DomainsKept (s t : State) : Prop where
  frame : ∃ r o h, t = { s with regs := r, out := o, hif := h }
  rd : ∀ f ∈ domainFields, t.rd f = s.rd f

theorem DomainsKept.refl (s : State) : DomainsKept s s := ⟨⟨s.regs, s.out, s.hif, rfl⟩, fun _ _ => rfl⟩

theorem DomainsKept.trans {s t u : State} (h1 : DomainsKept s t) (h2 : DomainsKept t u) : DomainsKept s u := by
  obtain ⟨⟨r, o, h, rfl⟩, e1⟩ := h1
  obtain ⟨⟨r', o', h', rfl⟩, e2⟩ := h2
  exact ⟨⟨r', o', h', rfl⟩, fun f hf => (e2 f hf).trans (e1 f hf)⟩

theorem domainFields_above : ∀ f ∈ domainFields, 0x20000 ≤ f.addr := by decide

theorem HostOnly.domainsKept {s t : State} (h : HostOnly s t) : DomainsKept s t :=
  ⟨h.1, fun f hf => h.rd (.inr (domainFields_above f hf))⟩

theorem State.domainsKept_wr (s : State) {f : Field} (v : Nat) (hf : f.valid) (h : ∀ g ∈ domainFields, f.apart g) :
    DomainsKept s (s.wr f v) :=
  ⟨⟨_, s.out, s.hif, rfl⟩, fun g hg => s.rd_wr_of_apart v hf (h g hg)⟩

theorem domainsKept_foldl {α β : Type} (p : β → State) {f : β → α → β} (hf : ∀ b x, DomainsKept (p b) (p (f b x))) (l : List α) :
    ∀ b : β, DomainsKept (p b) (p (l.foldl f b)) := by
  induction l with
  | nil => exact fun b => DomainsKept.refl (p b)
  | cons x l ih => exact fun b => (hf b x).trans (ih _)

section
variable {s t : State} (h : DomainsKept s t)
include h

theorem DomainsKept.step : t.step = s.step := by obtain ⟨⟨r, o, x, rfl⟩, _⟩ := h; rfl
theorem DomainsKept.fab : t.fab = s.fab := by obtain ⟨⟨r, o, x, rfl⟩, _⟩ := h; rfl
theorem DomainsKept.clk : t.clk = s.clk := by obtain ⟨⟨r, o, x, rfl⟩, _⟩ := h; rfl
theorem DomainsKept.time : t.time = s.time := by obtain ⟨⟨r, o, x, rfl⟩, _⟩ := h; rfl
theorem DomainsKept.dom (d : Nat) : t.dom d = s.dom d := by unfold State.dom; rw [h.time]

theorem DomainsKept.domState (d : Nat) : t.domState d = s.domState d :=
  h.rd _ (by unfold domStateF; split <;> decide)

theorem DomainsKept.domSource {d : Nat} (hd : d < 2) : t.domSource d = s.domSource d :=
  h.rd _ (by interval_cases d <;> decide)

theorem DomainsKept.domPath {d : Nat} (hd : d < 2) : t.domPath d = s.domPath d :=
  h.rd _ (by interval_cases d <;> decide)

theorem DomainsKept.spread : t.rd Reg.CLK.SYSSPREAD.DEPTH = s.rd Reg.CLK.SYSSPREAD.DEPTH := h.rd _ (by decide)

end

/-! ### Cues, the selection and the output's rate -/

/-- The registers of a cue show no domain. -/
theorem domainFields_ne_cue (k : Nat) : ∀ g ∈ domainFields, g.addr ≠ 0x40108 + 0x20 * k := by
  simp only [domainFields, List.forall_mem_cons, Reg.TIME.STAT.STATEA, Reg.TIME.STAT.STATEB, Reg.TIME.DOM.SOURCE,
    Reg.TIME.DOM.PATH, Reg.CLK.SYSSPREAD.DEPTH]
  refine ⟨?_, ?_, ?_, ?_, ?_, ?_, ?_, fun _ h => absurd h List.not_mem_nil⟩ <;> omega

section
variable (s : State)

theorem State.domainsKept_claimCue (k f : Nat) : DomainsKept s (s.claimCue k f) :=
  s.domainsKept_wr _ ⟨show 48 ≤ 51 by decide, show 51 < 64 by decide⟩ fun g hg => .inl (domainFields_ne_cue k g hg)

theorem State.domainsKept_releaseCue (k : Nat) : DomainsKept s (s.releaseCue k) :=
  ((s.domainsKept_claimCue k 0).trans (State.domainsKept_wr _ _ ⟨le_refl 53, show 53 < 64 by decide⟩ fun g hg =>
    .inl (domainFields_ne_cue k g hg))).trans (State.domainsKept_wr _ _ ⟨le_refl 52, show 52 < 64 by decide⟩ fun g hg =>
    .inl (domainFields_ne_cue k g hg))

theorem State.domainsKept_slew (v : Nat) : DomainsKept s (s.wr Reg.TIME.STAT.SLEW v) :=
  s.domainsKept_wr v (by decide) (by decide)

theorem State.domainsKept_path (v : Nat) : DomainsKept s (s.wr Reg.TIME.STAT.PATH v) :=
  s.domainsKept_wr v (by decide) (by decide)

theorem State.domainsKept_rate (v w : Nat) : DomainsKept s ((s.wr Reg.TIME.STAT.SLEW v).wr Reg.TIME.RATE.RATE w) :=
  (s.domainsKept_slew v).trans (State.domainsKept_wr _ w (by decide) (by decide))

theorem State.domainsKept_post (code sev src detail : Nat) : DomainsKept s (s.post code sev src detail) :=
  (s.hostOnly_post code sev src detail).domainsKept

theorem State.domainsKept_followRate : DomainsKept s s.followRate := by
  unfold State.followRate
  dsimp only
  split
  · exact s.domainsKept_slew 0
  · split
    · split
      · exact (s.domainsKept_rate _ _).trans (State.domainsKept_post _ _ _ _ _)
      · exact s.domainsKept_rate _ _
    · split <;> exact s.domainsKept_rate _ _

/-- The output runs on a path, unless its loop coasts (R429). -/
def State.onPath (s : State) (p : Nat) : State := if s.coasts p then s else s.wr Reg.TIME.STAT.PATH p

theorem State.domainsKept_onPath (p : Nat) : DomainsKept s (s.onPath p) := by
  unfold State.onPath
  split
  · exact DomainsKept.refl s
  · exact s.domainsKept_path p

/-- Without a jump the output keeps its value when a domain is selected (R426). -/
theorem State.domainsKept_selectDomain (d : Nat) (auto : Bool) : DomainsKept s (s.selectDomain d auto false) := by
  have hsel : DomainsKept s (s.wr Reg.TIME.STAT.SEL d) := s.domainsKept_wr d (by decide) (by decide)
  exact ((hsel.trans (State.domainsKept_onPath _ _)).trans (State.domainsKept_followRate _)).trans
    (State.domainsKept_post _ _ _ _ _)

theorem State.domainsKept_claimFrames (lanes : List Nat) : DomainsKept s (s.claimFrames lanes).1 := by
  refine domainsKept_foldl Prod.fst (fun b t => ?_) lanes (s, [])
  split
  · exact b.1.domainsKept_claimCue _ _
  · exact DomainsKept.refl b.1

theorem State.domainsKept_ok (c : Cmd) (payload : List Word) : DomainsKept s (s.ok c payload) :=
  (s.hostOnly_ok c payload).domainsKept

end

/-! ### What a TIME_DOMAIN_SETUP writes -/

/-- The operands of TIME_DOMAIN_SETUP (R464): the domain, its source and path, the lane that it is heard on, the lanes that it
serves. -/
abbrev Cmd.setupDomain (c : Cmd) : Nat := c.f 0 0 0
abbrev Cmd.setupSource (c : Cmd) : Nat := c.f 0 3 2
abbrev Cmd.setupPath (c : Cmd) : Nat := c.f 0 4 4
abbrev Cmd.setupLane (c : Cmd) : Nat := c.f 0 22 16
abbrev Cmd.setupServe (c : Cmd) : Nat := c.f 0 35 32

section
variable (c : Cmd) (s : State)

/-- AUTO selects the other domain where the one that is switched off was selected (R427, R464). -/
def State.autoMoved : State :=
  if c.setupSource = 0 ∧ s.selected = c.setupDomain ∧ s.rdb Reg.TIME.STAT.AUTO ∧ s.domState (1 - c.setupDomain) = dsLocked then
    s.selectDomain (1 - c.setupDomain) true false else s

/-- The domain's FRAME cues released (R436). -/
def State.domainFreed : State := (s.dom c.setupDomain).frameCues.foldl (fun u f => u.releaseCue f.2) (s.autoMoved c)

/-- The FRAME cues of timed launch claimed (R436). -/
def State.framesClaimed : State × List (Nat × Nat) :=
  if c.b 0 36 then s.claimFrames (serveLanes c.setupServe) else (s, [])

/-- The domain as the command sets it up. -/
def State.domainOf (frames : List (Nat × Nat)) : Domain :=
  { s.dom c.setupDomain with
    time := if c.setupSource = 1 then timeUnits (c.w 2) (c.w 3) * 65536 else (s.dom c.setupDomain).time
    rate := if c.setupSource = 1 then hostRate (s.rd Reg.CLK.SYSSPREAD.DEPTH) else (s.dom c.setupDomain).rate
    good := 0
    lane := c.setupLane
    delayPeer := c.b 0 24
    transport := c.f 0 26 25
    synclog := c.f 0 31 28
    serve := c.setupServe
    timed := c.b 0 36
    asym := signed 32 (c.f 1 31 0)
    heardAt := s.now
    frameCues := frames }

/-- The state that a domain of a source starts in (R422). -/
def sourceState (src : Nat) : Nat := if src = 0 then dsOff else if src = 1 then dsLocked else dsAcquiring

/-- The word of `TIME.DOM` that shows a domain's source, path and PTP domain. -/
def Cmd.domainWord (c : Cmd) : Word := toWord (c.setupSource * 2 ^ 32 + c.setupPath * 2 ^ 34 + c.f 0 15 8 * 2 ^ 40)

/-- The domain written, with the registers that show it. -/
def State.domainWritten (x : Domain) : State :=
  ((s.setDom c.setupDomain x).store (Reg.TIME.DOM.SOURCE c.setupDomain).addr c.domainWord).wr (domStateF c.setupDomain)
    (sourceState c.setupSource)

/-- TIME_LOCKED of a HOST domain that was not LOCKED (R423). -/
def State.lockPosted (was : Nat) : State :=
  if c.setupSource = 1 ∧ was ≠ dsLocked then s.post 0x0801 sevInfo srcDevice c.setupDomain else s

/-- The output on the path and at the rate of the selected domain, where that is the one set up (R425, R428). -/
def State.outputFollowed : State :=
  if s.selected = c.setupDomain ∧ c.setupSource ≠ 0 then (s.onPath c.setupPath).followRate
  else if s.selected = c.setupDomain then s.wr Reg.TIME.STAT.SLEW 0
  else s

/-- The state that a TIME_DOMAIN_SETUP leaves before its reply. -/
def State.domainSet : State :=
  let v := s.domainFreed c
  let w := v.framesClaimed c
  ((w.1.domainWritten c (v.domainOf c w.2)).lockPosted c (w.1.domState c.setupDomain)).outputFollowed c

theorem State.domainsKept_autoMoved : DomainsKept s (s.autoMoved c) := by
  unfold State.autoMoved
  split
  · exact s.domainsKept_selectDomain _ _
  · exact DomainsKept.refl s

theorem State.domainsKept_domainFreed : DomainsKept s (s.domainFreed c) :=
  (s.domainsKept_autoMoved c).trans
    (domainsKept_foldl (fun u => u) (fun u (f : Nat × Nat) => u.domainsKept_releaseCue f.2) _ (s.autoMoved c))

theorem State.domainsKept_framesClaimed : DomainsKept s (s.framesClaimed c).1 := by
  unfold State.framesClaimed
  split
  · exact s.domainsKept_claimFrames _
  · exact DomainsKept.refl s

theorem State.domainsKept_lockPosted (was : Nat) : DomainsKept s (s.lockPosted c was) := by
  unfold State.lockPosted
  split
  · exact s.domainsKept_post _ _ _ _
  · exact DomainsKept.refl s

theorem State.domainsKept_outputFollowed : DomainsKept s (s.outputFollowed c) := by
  unfold State.outputFollowed
  split
  · exact (s.domainsKept_onPath _).trans (State.domainsKept_followRate _)
  · split
    · exact s.domainsKept_slew 0
    · exact DomainsKept.refl s

end

/-! ### The written domain -/

theorem Cmd.f_lt (c : Cmd) (i hi lo : Nat) : c.f i hi lo < 2 ^ (hi + 1 - lo) := Nat.mod_lt _ (by positivity)

/-- The word of `TIME.DOM` shows the source and the path that it was made of. -/
theorem Cmd.domainWord_fields (c : Cmd) :
    bits c.domainWord.toNat 33 32 = c.setupSource ∧ bits c.domainWord.toNat 34 34 = c.setupPath := by
  have hsrc : c.setupSource < 4 := c.f_lt 0 3 2
  have hpath : c.setupPath < 2 := c.f_lt 0 4 4
  have hdomain : c.f 0 15 8 < 256 := c.f_lt 0 15 8
  have hword : c.domainWord.toNat = c.setupSource * 2 ^ 32 + c.setupPath * 2 ^ 34 + c.f 0 15 8 * 2 ^ 40 :=
    (BitVec.toNat_ofNat _ _).trans (Nat.mod_eq_of_lt (by omega))
  rw [hword]
  constructor <;> simp only [bits] <;> omega

section
variable (c : Cmd) (s : State) (x : Domain)

theorem domStateF_valid (d : Nat) : (domStateF d).valid := by
  unfold domStateF
  split <;> decide

theorem State.domainWritten_stored :
    (s.domainWritten c x).stored (Reg.TIME.DOM.SOURCE c.setupDomain).addr = c.domainWord := by
  unfold State.domainWritten
  refine (State.stored_wr_of_ne _ _ _ ?_).trans (State.stored_store_self _ _ _)
  rw [domStateF_addr]
  simp only [Reg.TIME.DOM.SOURCE, Reg.TIME.STAT.SEL]
  omega

theorem State.domainWritten_domSource : (s.domainWritten c x).domSource c.setupDomain = c.setupSource :=
  (congrArg (fun w : Word => bits w.toNat 33 32) (s.domainWritten_stored c x)).trans c.domainWord_fields.1

theorem State.domainWritten_domPath : (s.domainWritten c x).domPath c.setupDomain = c.setupPath :=
  (congrArg (fun w : Word => bits w.toNat 34 34) (s.domainWritten_stored c x)).trans c.domainWord_fields.2

theorem sourceState_mod (src d : Nat) :
    sourceState src % 2 ^ ((domStateF d).hi + 1 - (domStateF d).lo) = sourceState src := by
  have hwidth : (domStateF d).hi + 1 - (domStateF d).lo = 3 := by
    unfold domStateF
    split <;> rfl
  rw [hwidth]
  unfold sourceState
  split
  · rfl
  · split <;> rfl

theorem State.domainWritten_domState : (s.domainWritten c x).domState c.setupDomain = sourceState c.setupSource :=
  (State.rd_wr_self _ _ _ (domStateF_valid _)).trans (sourceState_mod _ _)

theorem State.setDom_frame (d : Nat) : ∃ y : TimeU, s.setDom d x = { s with time := y } ∧ y.out = s.time.out := by
  unfold State.setDom
  split <;> exact ⟨_, rfl, rfl⟩

theorem State.setDom_other {d : Nat} (hd : d < 2) : (s.setDom d x).dom (1 - d) = s.dom (1 - d) := by
  interval_cases d <;> rfl

/-- Beside the domain only registers are written. -/
theorem State.domainWritten_frame : ∃ r, s.domainWritten c x = { s.setDom c.setupDomain x with regs := r } := by
  unfold State.domainWritten State.wr State.store
  exact ⟨_, rfl⟩

theorem State.domainWritten_dom : (s.domainWritten c x).dom c.setupDomain = x := by
  obtain ⟨r, hr⟩ := s.domainWritten_frame c x
  rw [hr]
  exact s.setDom_dom _ x

theorem State.domainWritten_other : (s.domainWritten c x).dom (1 - c.setupDomain) = s.dom (1 - c.setupDomain) := by
  obtain ⟨r, hr⟩ := s.domainWritten_frame c x
  rw [hr]
  exact s.setDom_other x (c.f_lt 0 0 0)

theorem State.domainWritten_rest :
    (s.domainWritten c x).time.out = s.time.out ∧ (s.domainWritten c x).step = s.step ∧ (s.domainWritten c x).fab = s.fab ∧
      (s.domainWritten c x).clk = s.clk := by
  obtain ⟨r, hr⟩ := s.domainWritten_frame c x
  obtain ⟨y, hy, hout⟩ := s.setDom_frame x c.setupDomain
  rw [hr, hy]
  exact ⟨hout, rfl, rfl, rfl⟩

end

/-- What a TIME_DOMAIN_SETUP leaves (R420, R422, R464). -/
structure DomainSetup (c : Cmd) (s t : State) : Prop where
  source : t.domSource c.setupDomain = c.setupSource
  path : t.domPath c.setupDomain = c.setupPath
  lane : (t.dom c.setupDomain).lane = c.setupLane
  serve : (t.dom c.setupDomain).serve = c.setupServe
  asym : (t.dom c.setupDomain).asym = signed 32 (c.f 1 31 0)
  state : t.domState c.setupDomain = sourceState c.setupSource
  host : c.setupSource = 1 → (t.dom c.setupDomain).time = timeUnits (c.w 2) (c.w 3) * 65536 ∧
    (t.dom c.setupDomain).rate = hostRate (s.rd Reg.CLK.SYSSPREAD.DEPTH)
  other : t.dom (1 - c.setupDomain) = s.dom (1 - c.setupDomain)
  out : t.time.out = s.time.out
  step : t.step = s.step
  fab : t.fab = s.fab
  clk : t.clk = s.clk

theorem State.domainOf_host (c : Cmd) (s : State) (frames : List (Nat × Nat)) (hsrc : c.setupSource = 1) :
    (s.domainOf c frames).time = timeUnits (c.w 2) (c.w 3) * 65536 ∧
      (s.domainOf c frames).rate = hostRate (s.rd Reg.CLK.SYSSPREAD.DEPTH) :=
  ⟨if_pos hsrc, if_pos hsrc⟩

/-- What is done before and after leaves the written domain, and the other one, as they are. -/
theorem State.domainSet_setup (c : Cmd) {s : State} (u : State) (hu : DomainsKept s u) (payload : List Word) :
    DomainSetup c s ((u.domainSet c).ok c payload) := by
  have hd : c.setupDomain < 2 := c.f_lt 0 0 0
  have hfreed : DomainsKept s (u.domainFreed c) := hu.trans (u.domainsKept_domainFreed c)
  have hbefore := hfreed.trans ((u.domainFreed c).domainsKept_framesClaimed c)
  generalize hx : (u.domainFreed c).domainOf c ((u.domainFreed c).framesClaimed c).2 = x
  have hafter : DomainsKept (((u.domainFreed c).framesClaimed c).1.domainWritten c x) ((u.domainSet c).ok c payload) := by
    subst hx
    exact ((State.domainsKept_lockPosted c _ _).trans (State.domainsKept_outputFollowed c _)).trans
      (State.domainsKept_ok _ c payload)
  generalize ((u.domainFreed c).framesClaimed c).1 = w at hbefore hafter
  obtain ⟨hout, hstep, hfab, hclk⟩ := w.domainWritten_rest c x
  have hdom := (hafter.dom c.setupDomain).trans (w.domainWritten_dom c x)
  have hhost : c.setupSource = 1 →
      x.time = timeUnits (c.w 2) (c.w 3) * 65536 ∧ x.rate = hostRate (s.rd Reg.CLK.SYSSPREAD.DEPTH) := by
    rw [← hx, ← hfreed.spread]
    exact State.domainOf_host c _ _
  exact {
    source := (hafter.domSource hd).trans (w.domainWritten_domSource c x)
    path := (hafter.domPath hd).trans (w.domainWritten_domPath c x)
    lane := by rw [hdom, ← hx]; rfl
    serve := by rw [hdom, ← hx]; rfl
    asym := by rw [hdom, ← hx]; rfl
    state := (hafter.domState _).trans (w.domainWritten_domState c x)
    host := by rw [hdom]; exact hhost
    other := ((hafter.dom _).trans (w.domainWritten_other c x)).trans (hbefore.dom _)
    out := ((congrArg TimeU.out hafter.time).trans hout).trans (congrArg TimeU.out hbefore.time)
    step := (hafter.step.trans hstep).trans hbefore.step
    fab := (hafter.fab.trans hfab).trans hbefore.fab
    clk := (hafter.clk.trans hclk).trans hbefore.clk }

end Sys2Proof.Machine
end

section
/-! TIME_DOMAIN_SETUP where nothing refuses it (R420-R424, R428, R431, R436, R464). -/

namespace Sys2Proof.Machine

/-! ### The command -/

/-- A TIME_DOMAIN_SETUP that R420, R428, R431, R436 and R464 allow. -/
structure SetupAllowed (c : Cmd) (u : State) : Prop where
  word0 : onlyBits c.payload 0
    [(0, 0), (3, 2), (4, 4), (15, 8), (22, 16), (24, 24), (26, 25), (31, 28), (35, 32), (36, 36)] = true
  word1 : onlyBits c.payload 1 [(31, 0)] = true
  transport : c.f 0 26 25 ≠ 3
  interval : c.f 0 31 28 ≤ 8
  lanes : ∀ t < 4, bit c.setupServe t = true → u.rd (Reg.ETH.CFG.MODE t) ≠ 0
  apart : u.domSource (1 - c.setupDomain) = 2 → bit c.setupServe ((u.dom (1 - c.setupDomain)).lane - 64) = false
  loop : c.setupPath = 1 → u.time.ml1 = true
  host : c.setupSource = 1 →
    onlyBits c.payload 2 [(47, 0)] = true ∧ onlyBits c.payload 3 [(47, 0)] = true ∧ c.f 2 47 16 ≤ 999999999
  ptp : c.setupSource = 2 → 64 ≤ c.setupLane ∧ c.setupLane ≤ 67 ∧ bit c.setupServe (c.setupLane - 64) = false ∧
    u.rd (Reg.ETH.CFG.MODE (c.setupLane - 64)) ≠ 0
  reel : c.setupSource = 3 → c.setupPath = 0 ∧ c.setupLane ≤ 63 ∧ (u.group c.setupLane).isSome = true ∧
    u.rdb (Reg.LANE.CFG.SYNCEN c.setupLane) = true
  room : c.b 0 36 = true → (serveLanes c.setupServe).length ≤
    ((List.range 16).filter fun k => u.cueFunc k = 0).length + (u.dom c.setupDomain).frameCues.length
  unused : ¬ (c.setupSource = 0 ∧ u.selected = c.setupDomain ∧ u.rd Reg.STEP.CTRL.MODE = 3)

section
variable {c : Cmd} {u : State} (ha : SetupAllowed c u)
include ha

/-- The words of such a command set no reserved bit; words 2 and 3 are given for HOST only. -/
theorem SetupAllowed.reserved :
    c.reserved ([[(0, 0), (3, 2), (4, 4), (15, 8), (22, 16), (24, 24), (26, 25), (31, 28), (35, 32), (36, 36)], [(31, 0)]] ++
      (if c.setupSource = 1 then [[(47, 0)], [(47, 0)]] else [])) = false := by
  by_cases hsrc : c.setupSource = 1
  · obtain ⟨hword2, hword3, _⟩ := ha.host hsrc
    rw [if_pos hsrc]
    exact Cmd.reserved_four rfl ha.word0 ha.word1 hword2 hword3
  · rw [if_neg hsrc]
    exact Cmd.reserved_two rfl ha.word0 ha.word1

theorem SetupAllowed.param :
    (c.f 0 26 25 == 3 || (c.setupSource == 3 && c.setupPath == 1) || decide (8 < c.f 0 31 28) ||
      (c.setupSource == 2 && (decide (c.setupLane < 64) || decide (67 < c.setupLane))) ||
      (c.setupSource == 3 && decide (63 < c.setupLane)) ||
      (c.setupSource == 2 && bit c.setupServe (c.setupLane - 64)) ||
      (u.domSource (1 - c.setupDomain) == 2 && bit c.setupServe ((u.dom (1 - c.setupDomain)).lane - 64)) ||
      (c.setupSource == 1 && timeBad (c.w 2))) = false := by
  have hnanos : c.setupSource = 1 → timeBad (c.w 2) = false := fun h => decide_eq_false (Nat.not_lt.mpr (ha.host h).2.2)
  have hapart := ha.apart
  have hptp := ha.ptp
  have hreel := ha.reel
  simp only [Bool.or_eq_false_iff, Bool.and_eq_false_imp, beq_iff_eq, beq_eq_false_iff_ne, decide_eq_false_iff_not]
  refine ⟨⟨⟨⟨⟨⟨⟨ha.transport, fun h => ?_⟩, ?_⟩, fun h => ?_⟩, fun h => ?_⟩, fun h => ?_⟩, hapart⟩, hnanos⟩
  · have := (hreel h).1
    omega
  · have := ha.interval
    omega
  · have := hptp h
    omega
  · have := (hreel h).2.1
    omega
  · exact (hptp h).2.2.1

/-- The lane of such a command is one that the domain's source can be heard on. -/
theorem SetupAllowed.laneOn :
    (if c.setupSource = 2 then u.rd (Reg.ETH.CFG.MODE (c.setupLane - 64)) == 0
      else if c.setupSource = 3 then (u.group c.setupLane).isNone || !u.rdb (Reg.LANE.CFG.SYNCEN c.setupLane) else false) =
      false := by
  split
  · next h => exact beq_false_of_ne (ha.ptp h).2.2.2
  · split
    · next h =>
      obtain ⟨_, _, hgroup, hsync⟩ := ha.reel h
      rw [hsync, Option.isNone_eq_false_iff.mpr hgroup]
      rfl
    · rfl

theorem SetupAllowed.state :
    ((c.setupPath == 1 && !u.time.ml1) || (serveLanes c.setupServe).any (fun t => u.rd (Reg.ETH.CFG.MODE t) == 0) ||
      (c.setupSource == 0 && u.selected == c.setupDomain && u.rd Reg.STEP.CTRL.MODE == 3)) = false := by
  have hlanes : ((serveLanes c.setupServe).any fun t => u.rd (Reg.ETH.CFG.MODE t) == 0) = false := by
    rw [List.any_eq_false]
    intro t ht
    obtain ⟨ht4, hbit⟩ := List.mem_filter.mp ht
    simpa using ha.lanes t (List.mem_range.mp ht4) hbit
  have hloop : (c.setupPath == 1 && !u.time.ml1) = false := by simpa using ha.loop
  have hunused : (c.setupSource == 0 && u.selected == c.setupDomain && u.rd Reg.STEP.CTRL.MODE == 3) = false := by
    simpa using ha.unused
  rw [hloop, hlanes, hunused]
  rfl

theorem timeDomainSetupBody_ok (hf : c.fail = none) : timeDomainSetupBody c u = (u.domainSet c).ok c [] := by
  unfold timeDomainSetupBody
  refine (State.checked_pass u c _ _ hf ?_).trans ?_
  · have hreserved := ha.reserved
    have hparam := ha.param
    have hlane := ha.laneOn
    have hstate := ha.state
    simp only [List.forall_mem_cons]
    refine ⟨?_, ?_, ?_, by simp⟩
    · simp only [Bool.or_assoc] at hparam ⊢
      rw [hreserved, Bool.false_or]
      exact hparam
    · simp only [hlane, Bool.or_false]
      exact hstate
    · simpa using ha.room
  · rfl

end

theorem timeDomainLen_of_length {ws : List Word}
    (h : decide (ws.length = if fieldOf (ws.getD 0 0) 3 2 = 1 then 4 else 2) = true) : timeDomainLen ws = true :=
  beq_iff_eq.mpr (of_decide_eq_true h)

/-- The start of a command leaves the domains as they are. -/
theorem State.domainsKept_begun (s : State) (op : Nat) (h : CmdHdr) (ws : List Word) : DomainsKept s (s.begun op h ws) := by
  obtain ⟨r, hr⟩ := s.begun_eq op h ws
  exact ⟨⟨r, s.out, _, hr⟩, fun f hf => s.begun_rd_time op h ws (domainFields_above f hf)⟩

theorem State.begun_group (s : State) (op : Nat) (h : CmdHdr) (ws : List Word) (first : Nat) :
    (s.begun op h ws).group first = s.group first := by
  obtain ⟨r, hr⟩ := s.begun_eq op h ws
  rw [hr]
  rfl

theorem State.elapse_frameCues (s : State) (dt d : Nat) : ((s.elapse dt).dom d).frameCues = (s.dom d).frameCues := by
  obtain ⟨n, hn⟩ := s.elapse_dom dt d
  rw [hn]
  rfl

/-- What is asked of the state when a TIME_DOMAIN_SETUP is fetched holds when it starts. -/
theorem SetupAllowed.begun {c : Cmd} {s : State} (ha : SetupAllowed c s) (dt op : Nat) (h : CmdHdr) (ws : List Word) :
    SetupAllowed c ((s.elapse dt).begun op h ws) := by
  have hrd : ∀ f : Field, 0x20000 ≤ f.addr → ((s.elapse dt).begun op h ws).rd f = s.rd f := fun f hf =>
    (s.elapse dt).begun_rd_time op h ws hf
  have hmode (t : Nat) : ((s.elapse dt).begun op h ws).rd (Reg.ETH.CFG.MODE t) = s.rd (Reg.ETH.CFG.MODE t) :=
    hrd _ (by simp only [Reg.ETH.CFG.MODE]; omega)
  have hsource (d : Nat) : ((s.elapse dt).begun op h ws).domSource d = s.domSource d :=
    hrd _ (by simp only [Reg.TIME.DOM.SOURCE]; omega)
  have hsync (n : Nat) : ((s.elapse dt).begun op h ws).rdb (Reg.LANE.CFG.SYNCEN n) = s.rdb (Reg.LANE.CFG.SYNCEN n) :=
    (s.elapse dt).begun_rdb_time op h ws (by simp only [Reg.LANE.CFG.SYNCEN]; omega)
  have hfunc (k : Nat) : ((s.elapse dt).begun op h ws).cueFunc k = s.cueFunc k := (s.elapse dt).begun_cueFunc op h ws k
  have hgroup (n : Nat) : ((s.elapse dt).begun op h ws).group n = s.group n := (s.elapse dt).begun_group op h ws n
  have hml1 : ((s.elapse dt).begun op h ws).time.ml1 = s.time.ml1 :=
    (congrArg TimeU.ml1 ((s.elapse dt).begun_time op h ws)).trans rfl
  have hstepMode : ((s.elapse dt).begun op h ws).rd Reg.STEP.CTRL.MODE = s.rd Reg.STEP.CTRL.MODE := hrd _ (by decide)
  have hselected : ((s.elapse dt).begun op h ws).selected = s.selected := hrd _ (by decide)
  have hdom (d : Nat) := ((s.elapse dt).domainsKept_begun op h ws).dom d
  have hlane (d : Nat) := (congrArg Domain.lane (hdom d)).trans (s.elapse_lane dt d)
  have hframes (d : Nat) := (congrArg Domain.frameCues (hdom d)).trans (s.elapse_frameCues dt d)
  obtain ⟨hword0, hword1, htransport, hinterval, hlanes, hapart, hloop, hhost, hptp, hreel, hroom, hunused⟩ := ha
  exact {
    word0 := hword0
    word1 := hword1
    transport := htransport
    interval := hinterval
    lanes := by simpa only [hmode] using hlanes
    apart := by simpa only [hsource, hlane] using hapart
    loop := by simpa only [hml1] using hloop
    host := hhost
    ptp := by simpa only [hmode] using hptp
    reel := by simpa only [hgroup, hsync] using hreel
    room := by simpa only [hfunc, hframes] using hroom
    unused := by simpa only [hselected, hstepMode] using hunused }

/-- Settles O42: the command by its meaning where nothing refuses it; what is done before and after the domain is written leaves
the domains as they are. -/
theorem timeDomainSetupSetsADomain : Obligations.TimeDomainSetupSetsADomain := by
  intro s dt h ws d src path lane serve ha hword0 hword1 htransport hinterval hlanes hapart hloop hhost hptp hreel hroom hunused
  have hexec : exec (.timeDomainSetup dt h ws) s = .next (s.afterCmd dt 0x0801 h ws fun c u => (u.domainSet c).ok c []) := by
    refine exec_accepted rfl ha timeDomainSetupCmd rfl timeDomainLen_of_length rfl rfl _ fun c u hf hp _ hu => ?_
    subst hp hu
    have hallowed : SetupAllowed c s :=
      ⟨hword0, hword1, htransport, hinterval, hlanes, hapart, hloop, hhost, hptp, hreel, hroom, hunused⟩
    exact timeDomainSetupBody_ok (hallowed.begun dt 0x0801 h _) hf
  have hsetup := State.domainSet_setup ((s.elapse dt).cmdOf 0x0801 h ws) _ ((s.elapse dt).domainsKept_begun 0x0801 h ws) []
  exact ⟨_, hexec, hsetup.source, hsetup.path, hsetup.lane, hsetup.serve, hsetup.asym, hsetup.state, hsetup.host, hsetup.other,
    hsetup.out, hsetup.step, hsetup.fab, hsetup.clk⟩

end Sys2Proof.Machine
end

section
/-! The service port (R626-R628): a packet written whole starts as the command that its words spell. -/

namespace Sys2Proof.Machine

/-! ### Packets through the service port -/

theorem exec_svcWrite (s : State) (dt : Nat) (packet : List Word) (desc : HostRead) :
    exec (.svcWrite dt packet desc) s = execSvcWrite dt packet desc s := rfl

/-- A packet whose words are those of its LENGTH arrives as the command that they spell, unless four replies wait (R628). -/
theorem exec_svcWrite_whole (s : State) (dt : Nat) {packet : List Word} (desc : HostRead)
    (hn : fieldOf (packet.getD 1 0) 19 0 ≤ 8192) (hlen : packet.length = 2 + fieldOf (packet.getD 1 0) 19 0) :
    exec (.svcWrite dt packet desc) s = s.event dt fun u =>
      if 4 ≤ u.hif.svcReplies.length then u.wr Reg.FWU.STAT.SVCOVF 1
      else u.arrive (u.parse .service (packet.getD 0 0) (packet.getD 1 0) (packet.drop 2) desc) := by
  have hgood : ¬ (8192 < fieldOf (packet.getD 1 0) 19 0 ∨ packet.length ≠ 2 + fieldOf (packet.getD 1 0) 19 0) := by omega
  have htwo : decide (2 ≤ packet.length) = true := decide_eq_true (by omega)
  simp only [exec_svcWrite, execSvcWrite, htwo, State.whenever_true, if_neg hgood]

/-- The LENGTH of a command's packet counts the words after its header, and is one that a packet may have (R482). -/
theorem packetWords_whole (op : Nat) (h : CmdHdr) {ws : List Word} (hl : ws.length + 2 ≤ 8192) :
    fieldOf ((packetWords op h ws).getD 1 0) 19 0 ≤ 8192 ∧
      (packetWords op h ws).length = 2 + fieldOf ((packetWords op h ws).getD 1 0) 19 0 := by
  cases hb : h.rbuf with
  | none =>
    obtain ⟨hword, -⟩ := small_word ws.length (by omega)
    simp only [packetWords, hb, List.nil_append, List.length_nil, Nat.zero_add, List.append_nil, List.cons_append,
      List.getD_cons_succ, List.getD_cons_zero, List.length_cons, hword]
    omega
  | some b =>
    obtain ⟨hword, -⟩ := small_word (2 + ws.length) (by omega)
    simp only [packetWords, hb, List.cons_append, List.nil_append, List.length_cons, List.length_nil, Nat.zero_add,
      Nat.reduceAdd, List.getD_cons_succ, List.getD_cons_zero, hword]
    omega

/-- A command of the service port arrives, unless four replies wait (R628). -/
theorem State.issueCmd_service (s : State) {op : Nat} (hop : (commandOf op).op = op) {h : CmdHdr} (hp : h.path = .service)
    (ws : List Word) :
    s.issueCmd (commandOf op) h ws =
      if 4 ≤ s.hif.svcReplies.length then s.wr Reg.FWU.STAT.SVCOVF 1 else s.arrive (packetOf s op h ws) := by
  simp only [State.issueCmd, hp, hop]
  rfl

/-- Settles O6: the packet is whole, its words are read back as the command, and the command arrives as its row's does. -/
theorem servicePacketActsAsItsRow : Obligations.ServicePacketActsAsItsRow := by
  intro i dt op h ws desc s hi hp hf hl
  obtain ⟨hop, hcmd⟩ := asCommand_op hi
  obtain ⟨hn, hlen⟩ := packetWords_whole op h hl
  rw [exec_svcWrite_whole s dt desc hn hlen, exec_asCommand hi]
  simp only [parse_packetWords _ op h ws desc hop hf hp hl, State.issueCmd_service _ hcmd hp]

end Sys2Proof.Machine
end

section
/-! Writes of the host link's registers that act (R478-R480, R487, R505): doorbells, ENABLE, QRESET and the ring set-up. -/

namespace Sys2Proof.Machine

/-! ### The host link beside its registers -/

/-- The state with what the host link holds beside its registers replaced. -/
def State.withHif (s : State) (h : Hif) : State := { s with hif := h }

section
variable (s : State) (h : Hif)
@[simp] theorem State.withHif_hif : (s.withHif h).hif = h := rfl
@[simp] theorem State.withHif_out : (s.withHif h).out = s.out := rfl
@[simp] theorem State.withHif_stored (a : Nat) : (s.withHif h).stored a = s.stored a := rfl
@[simp] theorem State.withHif_rd (f : Field) : (s.withHif h).rd f = s.rd f := rfl
@[simp] theorem State.withHif_wr (f : Field) (v : Nat) : (s.withHif h).wr f v = (s.wr f v).withHif h := rfl
@[simp] theorem State.withHif_withHif (k : Hif) : (s.withHif k).withHif h = s.withHif h := rfl
end

/-! ### Accesses that reach the host link -/

/-- While the endpoint is out of PERST_N, a write that the device performs reaches the registers of DEV and HIF. -/
theorem State.bar0Write_near (s : State) {a size : Nat} (data : Word) (ha : a < 0x20000) (hok : accessOk a size = true)
    (hp : s.hif.perst = false) : s.bar0Write a size data = (s.writeAccess a size data).wakeLogic 1 := by
  simp only [State.bar0Write, hok, Bool.not_true, Bool.false_eq_true, if_false]
  exact s.access_near a _ ha hp

/-- A row that writes a register of DEV or HIF leaves what the write does there, and is a wake source. -/
theorem State.bar0Write_row {s : State} (hr : s.inReset = false) (hp : s.hif.perst = false) (dt : Nat) {a size : Nat}
    {data : State → Word} (ha : a < 0x20000) (hok : accessOk a size = true) {g : State → State}
    (h : (s.elapse dt).writeAccess a size (data (s.elapse dt)) = g (s.elapse dt)) :
    s.event dt (fun u => u.bar0Write a size (data u)) = .next (s.after dt fun u => (g u).wakeLogic 1) :=
  State.event_eq hr dt _ _ (((s.elapse dt).bar0Write_near _ ha hok hp).trans (congrArg (State.wakeLogic · 1) h))

/-- The bits that a write of 4 bytes puts on the lower half of a register. -/
theorem lowerHalf_bits (v : Nat) : bits ((toWord v).toNat % 2 ^ (8 * 4) * 2 ^ 0) 31 0 = v % 2 ^ 32 := by
  simp only [bits, toWord, BitVec.toNat_ofNat]
  omega

/-! ### Doorbells -/

/-- A doorbell is the lower half of a register of its own, none of the ring set-up. -/
theorem doorbell_access : ∀ f ∈ [Reg.HIF.CMDTAIL.COUNT, Reg.HIF.RPLHEAD.COUNT, Reg.HIF.EVTHEAD.COUNT],
    ringSetupRegs.contains (f.addr / 8 * 8) = false ∧ f.addr / 8 * 8 ≠ Reg.HIF.WBADDR.ADDR.addr ∧
      accessSpan f.addr 4 = (31, 0) ∧ (f.addr == f.addr / 8 * 8 && f.within (31, 0)) = true := by decide

section
variable (s : State) (v : Nat)

theorem State.writeAccess_cmdtail :
    s.writeAccess Reg.HIF.CMDTAIL.COUNT.addr 4 (toWord v) = s.writeCmdtail (v % 2 ^ 32) := by
  obtain ⟨hsetup, hwb, hspan, hmine⟩ := doorbell_access Reg.HIF.CMDTAIL.COUNT (by decide)
  simp only [State.writeAccess, hsetup, hwb, hspan, hmine, lowerHalf_bits, Bool.false_eq_true, if_false, if_true]

theorem State.writeAccess_rplhead :
    s.writeAccess Reg.HIF.RPLHEAD.COUNT.addr 4 (toWord v) = s.writeRplhead (v % 2 ^ 32) := by
  obtain ⟨hsetup, hwb, hspan, hmine⟩ := doorbell_access Reg.HIF.RPLHEAD.COUNT (by decide)
  have htail : (Reg.HIF.CMDTAIL.COUNT.addr == Reg.HIF.RPLHEAD.COUNT.addr / 8 * 8) = false := by decide
  simp only [State.writeAccess, hsetup, hwb, hspan, htail, hmine, lowerHalf_bits, Bool.false_and, Bool.false_eq_true, if_false,
    if_true]

theorem State.writeAccess_evthead :
    s.writeAccess Reg.HIF.EVTHEAD.COUNT.addr 4 (toWord v) = s.writeEvthead (v % 2 ^ 32) := by
  obtain ⟨hsetup, hwb, hspan, hmine⟩ := doorbell_access Reg.HIF.EVTHEAD.COUNT (by decide)
  have htail : (Reg.HIF.CMDTAIL.COUNT.addr == Reg.HIF.EVTHEAD.COUNT.addr / 8 * 8) = false := by decide
  have hhead : (Reg.HIF.RPLHEAD.COUNT.addr == Reg.HIF.EVTHEAD.COUNT.addr / 8 * 8) = false := by decide
  simp only [State.writeAccess, hsetup, hwb, hspan, htail, hhead, hmine, lowerHalf_bits, Bool.false_and, Bool.false_eq_true,
    if_false, if_true]

/-- A tail moves forward by no more than its ring has room for, else DOORBELL is set (R480). -/
theorem State.writeCmdtail_word :
    s.writeCmdtail (v % 2 ^ 32) =
      if ringHolds (s.rd Reg.HIF.CMDTAIL.COUNT) (s.rd Reg.HIF.CMDHEAD.COUNT) ≤
            ringHolds (v % 2 ^ 32) (s.rd Reg.HIF.CMDHEAD.COUNT) ∧
          ringHolds (v % 2 ^ 32) (s.rd Reg.HIF.CMDHEAD.COUNT) ≤ 2 ^ s.rd Reg.HIF.RINGSIZE.CMDLOG
      then s.wr Reg.HIF.CMDTAIL.COUNT (v % 2 ^ 32) else s.wr Reg.HIF.ERR.DOORBELL 1 := by
  simp only [State.writeCmdtail, Nat.mod_mod]

/-- A head moves forward by no more than its ring holds, else DOORBELL is set (R480). -/
theorem State.writeHead_word (head tail : Field) :
    s.writeHead head tail (v % 2 ^ 32) =
      if ringHolds (v % 2 ^ 32) (s.rd head) ≤ ringHolds (s.rd tail) (s.rd head)
      then s.wr head (v % 2 ^ 32) else s.wr Reg.HIF.ERR.DOORBELL 1 := by
  simp only [State.writeHead, Nat.mod_mod]

end

theorem exec_cmdtailWrite (s : State) (dt v : Nat) : exec (.cmdtailWrite dt v) s = execCmdtailWrite dt v s := rfl
theorem exec_rplheadWrite (s : State) (dt v : Nat) : exec (.rplheadWrite dt v) s = execRplheadWrite dt v s := rfl
theorem exec_evtheadWrite (s : State) (dt v : Nat) : exec (.evtheadWrite dt v) s = execEvtheadWrite dt v s := rfl

/-- Settles O13: each doorbell is a write of 4 bytes to its counter. -/
theorem doorbellsMoveForwardOnly : Obligations.DoorbellsMoveForwardOnly := by
  intro s dt v hr hp
  refine ⟨?_, ?_, ?_⟩
  · exact (exec_cmdtailWrite s dt v).trans (State.bar0Write_row hr hp dt (by decide) (by decide)
      ((State.writeAccess_cmdtail _ v).trans (State.writeCmdtail_word _ v)))
  · exact (exec_rplheadWrite s dt v).trans (State.bar0Write_row hr hp dt (by decide) (by decide)
      ((State.writeAccess_rplhead _ v).trans (State.writeHead_word _ v _ _)))
  · exact (exec_evtheadWrite s dt v).trans (State.bar0Write_row hr hp dt (by decide) (by decide)
      ((State.writeAccess_evthead _ v).trans (State.writeHead_word _ v _ _)))

/-! ### Ring set-up -/

theorem exec_qctrlEnable (s : State) (dt : Nat) (on : Bool) : exec (.qctrlEnable dt on) s = execQctrlEnable dt on s := rfl
theorem exec_qreset (s : State) (dt : Nat) : exec (.qreset dt) s = execQreset dt s := rfl

/-- A write of the queues' control register sets ENABLE from bit 0 and resets the queues where bit 1 is 1 (R478, R487). -/
theorem State.writeAccess_qctrl (s : State) {n : Nat} (hn : n < 4) :
    s.writeAccess Reg.HIF.QCTRL.ENABLE.addr 8 (toWord n) =
      let t := if s.rdb Reg.HIF.QCTRL.ENABLE = bit n 0 then s else s.writeEnable (bit n 0)
      if bit n 1 then t.queueReset else t := by
  have hd : (toWord n).toNat % 2 ^ (8 * 8) * 2 ^ 0 = n := by
    simp only [toWord, BitVec.toNat_ofNat]
    omega
  have hsetup : ringSetupRegs.contains (Reg.HIF.QCTRL.ENABLE.addr / 8 * 8) = false := by decide
  have hwb : Reg.HIF.QCTRL.ENABLE.addr / 8 * 8 ≠ Reg.HIF.WBADDR.ADDR.addr := by decide
  have hspan : accessSpan Reg.HIF.QCTRL.ENABLE.addr 8 = (63, 0) := by decide
  have hbell : ∀ f ∈ [Reg.HIF.CMDTAIL.COUNT, Reg.HIF.RPLHEAD.COUNT, Reg.HIF.EVTHEAD.COUNT],
    (f.addr == Reg.HIF.QCTRL.ENABLE.addr / 8 * 8) = false := by decide
  have hmine : (Reg.HIF.QCTRL.ENABLE.addr == Reg.HIF.QCTRL.ENABLE.addr / 8 * 8 &&
    Reg.HIF.QCTRL.ENABLE.within (63, 0)) = true := by decide
  simp only [List.forall_mem_cons, List.not_mem_nil, false_imp_iff, implies_true, and_true] at hbell
  simp only [State.writeAccess, hsetup, hwb, hspan, hbell, hmine, hd, Bool.false_and, Bool.false_eq_true, if_false, if_true]

/-- ENABLE written with the value that it does not have (R478). -/
theorem State.writeAccess_enable (s : State) {on : Bool} (h : s.rdb Reg.HIF.QCTRL.ENABLE ≠ on) :
    s.writeAccess Reg.HIF.QCTRL.ENABLE.addr 8 (toWord (b2n on)) = s.writeEnable on := by
  have h0 : bit (b2n on) 0 = on := by cases on <;> rfl
  have h1 : bit (b2n on) 1 = false := by cases on <;> rfl
  rw [s.writeAccess_qctrl (lt_trans (b2n_lt on) (by decide))]
  simp only [h0, h1, if_neg h, Bool.false_eq_true, if_false]

theorem State.ringSizesOk_iff (s : State) :
    s.ringSizesOk = true ↔
      14 ≤ s.rd Reg.HIF.RINGSIZE.CMDLOG ∧ s.rd Reg.HIF.RINGSIZE.CMDLOG ≤ 20 ∧ 14 ≤ s.rd Reg.HIF.RINGSIZE.RPLLOG ∧
        s.rd Reg.HIF.RINGSIZE.RPLLOG ≤ 20 ∧ 6 ≤ s.rd Reg.HIF.RINGSIZE.EVTLOG ∧ s.rd Reg.HIF.RINGSIZE.EVTLOG ≤ 16 := by
  simp only [State.ringSizesOk, Bool.and_eq_true, decide_eq_true_eq, and_assoc]

theorem State.writeEnable_refused (s : State) (h : ¬ s.ringSizesOk = true) : s.writeEnable true = s.wr Reg.HIF.ERR.SETUP 1 := by
  simp [State.writeEnable, h]

theorem State.writeEnable_taken (s : State) (h : s.ringSizesOk = true) : s.writeEnable true = s.wr Reg.HIF.QCTRL.ENABLE 1 := by
  simp [State.writeEnable, h, State.wrb, b2n]

/-- While the rings are served, a write of a ring's base or size is discarded (R478). -/
theorem State.writeAccess_setup (s : State) {a : Nat} (ha : a / 8 * 8 ∈ ringSetupRegs) (size : Nat) (d : Word)
    (he : s.rdb Reg.HIF.QCTRL.ENABLE = true) : s.writeAccess a size d = s.wr Reg.HIF.ERR.SETUP 1 := by
  have hsetup : ringSetupRegs.contains (a / 8 * 8) = true := List.contains_iff_mem.mpr ha
  simp only [State.writeAccess, hsetup, he, if_true]

theorem ringSetupRegs_near : ∀ a ∈ ringSetupRegs, a < 0x20000 ∧ accessOk a 8 = true ∧ a / 8 * 8 ∈ ringSetupRegs := by decide

/-! ### The queue reset -/

/-- What a queue reset writes, in its order (R487). -/
def State.queueWrites (s : State) : List (Field × Nat) :=
  [(Reg.HIF.QSTAT.EPOCH, s.rd Reg.HIF.QSTAT.EPOCH + 1), (Reg.HIF.CMDTAIL.COUNT, 0), (Reg.HIF.CMDHEAD.COUNT, 0),
    (Reg.HIF.RPLTAIL.COUNT, 0), (Reg.HIF.RPLHEAD.COUNT, 0), (Reg.HIF.QSTAT.STALLED, 0), (Reg.HIF.QSTAT.STALLCAUSE, 0)]

/-- The fields that it writes. -/
def queueFields : List Field :=
  [Reg.HIF.QSTAT.EPOCH, Reg.HIF.CMDTAIL.COUNT, Reg.HIF.CMDHEAD.COUNT, Reg.HIF.RPLTAIL.COUNT, Reg.HIF.RPLHEAD.COUNT,
    Reg.HIF.QSTAT.STALLED, Reg.HIF.QSTAT.STALLCAUSE]

/-- The host link after a queue reset: packets of the ring that have not started are dropped (R487, R488). -/
def Hif.queuesDropped (h : Hif) : Hif :=
  { h with gen := h.gen + 1, fetched := h.fetched.filter fun c => c.path ≠ .ring, tailWait := none }

section
variable (s : State)

/-- A queue reset writes its fields and drops what waits. -/
theorem State.queueReset_eq :
    s.queueReset = (s.wrAll Prod.fst Prod.snd s.queueWrites).withHif
      (s.wrAll Prod.fst Prod.snd s.queueWrites).hif.queuesDropped := by
  unfold State.queueReset State.queueWrites State.wrAll Hif.queuesDropped State.withHif
  dsimp only [List.foldl_cons, List.foldl_nil]

theorem State.queueWrites_field {x : Field × Nat} (hx : x ∈ s.queueWrites) : x.1 ∈ queueFields :=
  List.mem_map_of_mem (f := Prod.fst) hx

theorem queueFields_valid : ∀ f ∈ queueFields, f.valid := by decide

theorem State.queueWrites_apart : s.queueWrites.Pairwise fun x y => y.1.apart x.1 :=
  List.Pairwise.of_map (S := fun f g : Field => g.apart f) Prod.fst (fun _ _ h => h)
    (show queueFields.Pairwise fun f g => g.apart f by decide)

/-- Each field of a queue reset reads as written. -/
theorem State.queueReset_rd {x : Field × Nat} (hx : x ∈ s.queueWrites) :
    s.queueReset.rd x.1 = x.2 % 2 ^ (x.1.hi + 1 - x.1.lo) := by
  rw [State.queueReset_eq, State.withHif_rd]
  exact State.rd_wrAll_of_mem Prod.fst Prod.snd (fun _ hy => queueFields_valid _ (s.queueWrites_field hy)) s.queueWrites_apart hx s

/-- Every other register is as it was. -/
theorem State.queueReset_stored {a : Nat} (h : ∀ f ∈ queueFields, a ≠ f.addr) : s.queueReset.stored a = s.stored a := by
  rw [State.queueReset_eq, State.withHif_stored]
  exact State.stored_wrAll_of_ne Prod.fst Prod.snd (fun _ hx => h _ (s.queueWrites_field hx)) s

/-- A queue reset changes registers and the host link only. -/
theorem State.queueReset_frame : ∃ r, s.queueReset = { s with regs := r, hif := s.hif.queuesDropped } := by
  obtain ⟨r, hr⟩ := State.wrAll_frame Prod.fst Prod.snd s.queueWrites s
  exact ⟨r, by rw [State.queueReset_eq, hr]; rfl⟩

/-- The row leaves ENABLE as it is and resets the queues. -/
theorem State.writeAccess_qreset :
    s.writeAccess Reg.HIF.QCTRL.ENABLE.addr 8 (toWord (s.rd Reg.HIF.QCTRL.ENABLE + 2)) = s.queueReset := by
  have hlt : s.rd Reg.HIF.QCTRL.ENABLE < 2 := Nat.mod_lt _ (by decide)
  rw [s.writeAccess_qctrl (by omega)]
  obtain h | h : s.rd Reg.HIF.QCTRL.ENABLE = 0 ∨ s.rd Reg.HIF.QCTRL.ENABLE = 1 := by omega
  · simp [State.rdb, h, bit]
  · simp [State.rdb, h, bit]

/-- A device that is awake stays so: a queue reset is nothing to the power states. -/
theorem State.queueReset_awake (hp : s.power < 2) (ht : s.pwr.target = none) : s.queueReset.wakeLogic 1 = s.queueReset := by
  have hpower : s.queueReset.power = s.power := by
    simp only [State.power, State.rd, s.queueReset_stored (a := Reg.PWR.STATE.STATE.addr) (by decide)]
  obtain ⟨r, hr⟩ := s.queueReset_frame
  exact State.wakeLogic_awake _ (lt_of_eq_of_lt hpower hp) (by rw [hr]; exact ht) 1

end

theorem exec_qreset_awake {s : State} (hr : s.inReset = false) (hp : s.hif.perst = false) (dt : Nat) (hpow : s.power < 2)
    (ht : s.pwr.target = none) : exec (.qreset dt) s = .next (s.after dt State.queueReset) := by
  refine (exec_qreset s dt).trans ((State.bar0Write_row hr hp dt (g := State.queueReset)
    (data := fun u => toWord (u.rd Reg.HIF.QCTRL.ENABLE + 2)) (by decide) (by decide) (s.elapse dt).writeAccess_qreset).trans ?_)
  exact congrArg _ (State.after_congr ((s.elapse dt).queueReset_awake hpow ht))

/-- Settles O14: ENABLE by the ring sizes, the set-up registers by ENABLE, QRESET by what a queue reset writes. -/
theorem ringSetupAndQueueReset : Obligations.RingSetupAndQueueReset := by
  intro s dt hr hp
  have henable {on : Bool} {g : State → State} (hne : s.rdb Reg.HIF.QCTRL.ENABLE ≠ on)
      (h : (s.elapse dt).writeEnable on = g (s.elapse dt)) :
      exec (.qctrlEnable dt on) s = .next (s.after dt fun u => (g u).wakeLogic 1) :=
    (exec_qctrlEnable s dt on).trans (State.bar0Write_row hr hp dt (by decide) (by decide)
      (((s.elapse dt).writeAccess_enable hne).trans h))
  refine ⟨fun hoff => ?_, fun hon => ?_, fun hpow ht => ?_⟩
  · have hne : s.rdb Reg.HIF.QCTRL.ENABLE ≠ true := by simp [State.rdb, hoff]
    exact ⟨fun hok => henable hne (State.writeEnable_taken _ ((State.ringSizesOk_iff _).mpr hok)),
      fun hbad => henable hne (State.writeEnable_refused _ (mt (State.ringSizesOk_iff _).mp hbad))⟩
  · have he : s.rdb Reg.HIF.QCTRL.ENABLE = true := by simp [State.rdb, hon]
    refine ⟨henable (by simp [he]) rfl, fun a d ha => ?_⟩
    obtain ⟨hnear, hok, hbase⟩ := ringSetupRegs_near a ha
    exact (exec_registerWrite s dt a 8 d).trans (State.bar0Write_row (data := fun _ => d) hr hp dt hnear hok
      (State.writeAccess_setup _ hbase 8 d he))
  · obtain ⟨r, hframe⟩ := (s.elapse dt).queueReset_frame
    have hhif : (s.after dt State.queueReset).hif = s.hif.queuesDropped := by rw [State.after_hif, hframe]; rfl
    have hout : (s.after dt State.queueReset).out = s.out := by rw [State.after_out, hframe]; rfl
    have hepoch : (s.after dt State.queueReset).rd Reg.HIF.QSTAT.EPOCH = (s.rd Reg.HIF.QSTAT.EPOCH + 1) % 256 := by
      rw [State.after_rd]
      exact (s.elapse dt).queueReset_rd (x := (Reg.HIF.QSTAT.EPOCH, _)) List.mem_cons_self
    have hzero {f : Field} (hf : (f, 0) ∈ (s.elapse dt).queueWrites) : (s.after dt State.queueReset).rd f = 0 := by
      rw [State.after_rd]
      exact ((s.elapse dt).queueReset_rd hf).trans (Nat.zero_mod _)
    refine ⟨_, exec_qreset_awake hr hp dt hpow ht, hepoch, hzero (by simp [State.queueWrites]),
      hzero (by simp [State.queueWrites]), hzero (by simp [State.queueWrites]), hzero (by simp [State.queueWrites]),
      hzero (by simp [State.queueWrites]), fun a ha => ?_, (congrArg Hif.running hhif :), (congrArg Hif.replies hhif :),
      (congrArg Hif.eseq hhif :), hout, (congrArg Hif.fetched hhif :)⟩
    rw [State.after_stored]
    refine (s.elapse dt).queueReset_stored fun f hf heq => ha (heq ▸ ?_)
    exact (show ∀ f ∈ queueFields, f.addr ∈ _ by decide) f hf

end Sys2Proof.Machine
end

section
/-! The mailbox's GO and COMMAND_START (R485, R491): which command starts. -/

namespace Sys2Proof.Machine

/-! ### The mailbox -/

theorem exec_mboxGo (s : State) (dt : Nat) (desc : HostRead) : exec (.mboxGo dt desc) s = execMboxGo dt desc s := rfl

/-- Out of PERST_N a GO reaches the mailbox; it is a wake source. -/
theorem exec_mboxGo_reached {s : State} {dt : Nat} {desc : HostRead} (hr : s.inReset = false) (hp : s.hif.perst = false)
    {g : State → State} (h : (s.elapse dt).mboxGo desc State.arrive = g (s.elapse dt)) :
    exec (.mboxGo dt desc) s = .next (s.after dt fun u => (g u).wakeLogic 1) :=
  (exec_mboxGo s dt desc).trans (State.event_eq hr dt _ _
    (((s.elapse dt).access_near _ _ (by decide) hp).trans (congrArg (State.wakeLogic · 1) h)))

section
variable (s : State) (desc : HostRead) (take : State → Cmd → State)

theorem State.mboxGo_busy (h : s.rdb Reg.HIF.MBOXCTL.BUSY = true) : s.mboxGo desc take = s.wr Reg.HIF.ERR.SETUP 1 := if_pos h

theorem State.mboxGo_free (h : s.rdb Reg.HIF.MBOXCTL.BUSY = false) :
    s.mboxGo desc take = take (s.wr Reg.HIF.MBOXCTL.BUSY 1) (s.mailboxCmd desc) := if_neg (by simp [h])

theorem State.mailboxCmd_long (h : 6 < fieldOf (s.readReg (Reg.HIF.MBOXW.WORD 1).addr) 19 0) :
    s.mailboxCmd desc = s.headerOnly .mailbox (s.readReg (Reg.HIF.MBOXW.WORD 0).addr) := if_pos h

theorem State.mailboxCmd_whole (h : fieldOf (s.readReg (Reg.HIF.MBOXW.WORD 1).addr) 19 0 ≤ 6) :
    s.mailboxCmd desc = s.parse .mailbox (s.readReg (Reg.HIF.MBOXW.WORD 0).addr) (s.readReg (Reg.HIF.MBOXW.WORD 1).addr)
      ((List.range (fieldOf (s.readReg (Reg.HIF.MBOXW.WORD 1).addr) 19 0)).map fun i =>
        s.readReg (Reg.HIF.MBOXW.WORD (2 + i)).addr) desc := if_neg (Nat.not_lt.mpr h)

end

/-- Settles O17, by BUSY and by the LENGTH of the packet in the mailbox. -/
theorem mailboxTakesOneCommand : Obligations.MailboxTakesOneCommand := by
  intro s dt desc hr hp word n
  refine ⟨fun hb => exec_mboxGo_reached hr hp ?_, fun hb hn => exec_mboxGo_reached hr hp ?_,
    fun hb hn => exec_mboxGo_reached hr hp ?_⟩
  · exact (s.elapse dt).mboxGo_busy desc _ hb
  · rw [(s.elapse dt).mboxGo_free desc _ hb, (s.elapse dt).mailboxCmd_long desc hn]
  · rw [(s.elapse dt).mboxGo_free desc _ hb, (s.elapse dt).mailboxCmd_whole desc hn]

/-! ### The first command that may start -/

/-- A command of the ring has not been answered: it is in progress, or its reply waits. -/
abbrev State.unanswered (s : State) : Prop := (∃ d ∈ s.hif.running, d.path = .ring) ∨ ∃ r ∈ s.hif.replies, r.path = .ring

/-- Whether a command that waits may start: of the ring's only the oldest, and with FENCE only after every reply (R485). -/
def State.mayStart (s : State) (c : Cmd) : Bool :=
  c.path != .ring || (s.hif.fetched.find? (fun d => d.path == .ring) == some c &&
    !(c.fence && ((s.hif.running.any fun d => d.path == .ring) || s.hif.replies.any fun r => r.path == .ring)))

theorem State.startable_eq (s : State) : s.startable = s.hif.fetched.find? s.mayStart := rfl

theorem State.unanswered_iff (s : State) :
    ((s.hif.running.any fun d => d.path == .ring) || s.hif.replies.any fun r => r.path == .ring) = true ↔ s.unanswered := by
  simp only [Bool.or_eq_true, List.any_eq_true, beq_iff_eq]

section
variable {s : State} {b c : Cmd} {waiting : List Cmd}

/-- A command of another path starts past those of the ring (assumption 16). -/
theorem State.mayStart_of_path (h : c.path ≠ .ring) : s.mayStart c = true := by
  simp [State.mayStart, h]

theorem State.mayStart_oldest (hf : s.hif.fetched = c :: waiting) (hp : c.path = .ring)
    (h : c.fence = false ∨ ¬ s.unanswered) : s.mayStart c = true := by
  have hfence : (c.fence && ((s.hif.running.any fun d => d.path == .ring) || s.hif.replies.any fun r => r.path == .ring)) = false :=
    h.elim (fun h => by rw [h, Bool.false_and]) fun h => by
      rw [Bool.eq_false_iff.mpr (mt s.unanswered_iff.mp h), Bool.and_false]
  simp only [State.mayStart, hfence, hf]
  simp [hp]

/-- Behind a FENCE that waits nothing of the ring may start, nor the FENCE itself. -/
theorem State.mayStart_fenced (hf : s.hif.fetched = b :: waiting) (hb : b.path = .ring) (hfence : b.fence = true)
    (hu : s.unanswered) (hc : c.path = .ring) : s.mayStart c = false := by
  have hold : s.hif.fetched.find? (fun d => d.path == .ring) = some b := by rw [hf]; simp [hb]
  simp only [State.mayStart, hold, s.unanswered_iff.mpr hu]
  by_cases he : b = c
  · subst he
    simp [hb, hfence]
  · simp [hc, he]

/-- Of a queue that begins with commands behind a FENCE, what may start comes after them. -/
theorem State.startable_past_fence {before rest : List Cmd} (hf : s.hif.fetched = b :: before ++ rest)
    (hbefore : ∀ d ∈ b :: before, d.path = .ring) (hfence : b.fence = true) (hu : s.unanswered) :
    s.startable = rest.find? s.mayStart := by
  have hnone : (b :: before).find? s.mayStart = none := List.find?_eq_none.mpr fun d hd => by
    simp [State.mayStart_fenced hf (hbefore b (by simp)) hfence hu (hbefore d hd)]
  rw [State.startable_eq, hf, List.find?_append, hnone, Option.none_or]

theorem State.startable_first (hf : s.hif.fetched = c :: waiting) (h : s.mayStart c = true) : s.startable = some c := by
  rw [State.startable_eq, hf, List.find?_cons_of_pos h]

end

/-! ### COMMAND_START -/

theorem exec_commandStart (s : State) (dt : Nat) : exec (.commandStart dt) s = execCommandStart dt s := rfl

@[simp] theorem State.elapse_startable (s : State) (dt : Nat) : (s.elapse dt).startable = s.startable := rfl
@[simp] theorem State.elapse_inProgress (s : State) (dt : Nat) : (s.elapse dt).inProgress = s.inProgress := rfl

section
variable {s : State} {dt : Nat} (hr : s.inReset = false)
include hr

theorem exec_commandStart_starts (hk : (s.elapse dt).keeperDown = false) (hn : s.inProgress < 64) {c : Cmd}
    (hc : s.startable = some c) {left : List Cmd} (hleft : s.hif.fetched.erase c = left) :
    exec (.commandStart dt) s = .next (s.after dt fun u =>
      ({ u with hif := { u.hif with fetched := left } } : State).begin (commandOf c.opcode) c) := by
  refine (exec_commandStart s dt).trans (State.event_eq hr dt _ _ ?_)
  subst hleft
  simp only [State.elapse_startable, hc]
  exact State.whenever_true _ _ _ (by simp [hk, hn])

theorem exec_commandStart_waits (hc : s.startable = none) : exec (.commandStart dt) s = .next (s.after dt fun u => u) := by
  refine (exec_commandStart s dt).trans (State.event_eq hr dt _ _ ?_)
  simp only [State.elapse_startable, hc]

end

/-- Settles O19, by the first command that may start. -/
theorem ringCommandsStartInOrder : Obligations.RingCommandsStartInOrder := by
  intro s dt c rest hr unanswered starts
  refine ⟨fun hk hn => ⟨fun hf hp hfence => ?_, fun hf hp => ?_, fun b before hf hbefore hfence hu hp => ?_⟩,
    fun b before hf hbefore hfence hu => ?_⟩
  · exact exec_commandStart_starts hr hk hn (State.startable_first hf (State.mayStart_oldest hf hp hfence))
      (by rw [hf, List.erase_cons_head])
  · exact exec_commandStart_starts hr hk hn (State.startable_first hf (State.mayStart_of_path hp))
      (by rw [hf, List.erase_cons_head])
  · refine exec_commandStart_starts hr hk hn ?_ ?_
    · rw [State.startable_past_fence hf hbefore hfence hu, List.find?_cons_of_pos (State.mayStart_of_path hp)]
    · rw [hf, List.erase_append_right _ fun hmem => hp (hbefore c hmem), List.erase_cons_head]
  · exact exec_commandStart_waits hr
      (State.startable_past_fence (rest := []) (hf.trans (List.append_nil _).symm) hbefore hfence hu)

end Sys2Proof.Machine
end

section
/-! Windows of limited events and moderation intervals (R502, R674), and the queries of the device (R496, R582, R604). -/

namespace Sys2Proof.Machine

/-! ### Windows -/

theorem exec_limitedEventWindowEnd (s : State) (dt code key : Nat) :
    exec (.limitedEventWindowEnd dt code key) s = execLimitedEventWindowEnd dt code key s := rfl

theorem exec_irqModerationExpiry (s : State) (dt vector : Nat) :
    exec (.irqModerationExpiry dt vector) s = execIrqModerationExpiry dt vector s := rfl

/-- A window that has lasted 1 ms ends: what it held is posted and opens a new one (R674). -/
theorem exec_limitedEventWindowEnd_due {s : State} {dt code key : Nat} {w : Window} (hr : s.inReset = false)
    (hw : s.hif.windows.find? (fun x => x.code = code ∧ x.key = key) = some w) (ht : w.opened + fsMs ≤ s.now + dt) :
    exec (.limitedEventWindowEnd dt code key) s = .next (s.after dt fun u =>
      if w.held = 0 then { u with hif := { u.hif with windows := u.hif.windows.erase w } }
      else ({ u with hif := { u.hif with
        windows := u.hif.windows.erase w ++ [{ w with held := 0, opened := u.now }] } } : State).post
          w.code w.sev w.src (limitedDetail w.code w.detail w.held)) := by
  refine (exec_limitedEventWindowEnd s dt code key).trans (State.event_eq hr dt _ _ ?_)
  simp only [State.elapse_hif, hw]
  exact State.whenever_true _ _ _ (decide_eq_true ht)

/-- A moderation interval that has passed ends: the vector is signalled again if an entry arrived during it (R502). -/
theorem exec_irqModerationExpiry_due {s : State} {dt vector t : Nat} (hr : s.inReset = false) (hv : vector = 0 ∨ vector = 2)
    (hlast : s.hif.irqLast.getD (modIndex vector) none = some t)
    (ht : t + s.rd Reg.HIF.IRQMOD.INTERVAL * fsUs ≤ s.now + dt) :
    exec (.irqModerationExpiry dt vector) s = .next (s.after dt fun u =>
      if u.hif.irqWant.getD (modIndex vector) false then
        { u.sendMsix vector with hif := { u.hif with
          irqLast := u.hif.irqLast.set (modIndex vector) (some u.now), irqWant := u.hif.irqWant.set (modIndex vector) false } }
      else { u with hif := { u.hif with irqLast := u.hif.irqLast.set (modIndex vector) none } }) := by
  refine (exec_irqModerationExpiry s dt vector).trans (State.event_eq hr dt _ _ (State.whenever_true _ _ _ ?_))
  rw [State.elapse_hif, hlast, Option.any_some, Bool.and_eq_true]
  exact ⟨by simpa using hv, decide_eq_true ht⟩

/-- Settles O22: a window by what it held, an interval by whether its vector is wanted. -/
theorem windowsAndModerationEnd : Obligations.WindowsAndModerationEnd := by
  refine ⟨fun s dt w hr hw ht => ⟨fun h => ?_, fun h => ?_⟩, fun s dt vector t hr hv hlast ht => ⟨fun h => ?_, fun h => ?_⟩⟩
  · rw [exec_limitedEventWindowEnd_due hr hw ht]
    simp only [if_pos h]
  · rw [exec_limitedEventWindowEnd_due hr hw ht]
    simp only [if_neg h]
  · rw [exec_irqModerationExpiry_due hr hv hlast ht]
    exact congrArg _ (State.after_congr (if_pos h))
  · rw [exec_irqModerationExpiry_due hr hv hlast ht]
    exact congrArg _ (State.after_congr (if_neg (ne_true_of_eq_false h)))

/-! ### Queries -/

/-- The words of a STATUS reply: its own, the counts of dropped events, the records kept (R496, R499). -/
def State.statusWords (u : State) : List Word :=
  [u.statusWord, toWord u.hif.dropTotal, toWord u.hif.drops.length] ++
    u.hif.drops.map (fun d => toWord (d.1 % 2 ^ 16 + d.2 % 2 ^ 32 * 2 ^ 16)) ++ [toWord u.hif.retained.length] ++
    u.hif.retained.flatMap fun r => [r.w0, r.w1, r.w2, r.w3]

section
variable {c : Cmd} (hf : c.fail = none) (u : State)
include hf

/-- A meaning without refusals of its own has its effect. -/
theorem State.checked_free (f : State → State) : u.checked c [] f = f u :=
  State.checked_pass u c [] f hf (by simp)

theorem statusBody_ok (hb : onlyBits c.payload 0 [(0, 0)] = true) :
    statusBody c u =
      (if c.b 0 0 then { u with hif := { u.hif with dropTotal := 0, drops := [] } } else u).ok c u.statusWords := by
  unfold statusBody State.statusWords
  rw [State.checked_pass u c _ _ hf (by simp [Cmd.reserved_one rfl hb])]
  simp only [List.length_map]

theorem identifyBody_ok :
    identifyBody c u = u.ok c
      [toWord (0x4624 + Config.stepping.toNat * 2 ^ 16 + u.dev.seat % 1024 * 2 ^ 24 + u.rd Reg.DEV.BOOT.IMAGE * 2 ^ 34 +
        u.rd Reg.DEV.BOOT.SLOT * 2 ^ 35), Config.serial, u.readReg Reg.FWU.VERSION.SLOTA.addr,
        toWord Config.romVersion.toNat] := by
  unfold identifyBody
  rw [State.checked_free hf]

theorem echoBody_ok : echoBody c u = u.ok c c.payload := by
  unfold echoBody
  rw [State.checked_free hf]

theorem budgetQueryBody_ok :
    budgetQueryBody c u = u.ok c (u.readReg Reg.PWR.LEDGER.CAP.addr :: (List.range 22).map fun k =>
      let g := if 1 + k = 0x15 ∨ 1 + k = 0x16 then b2n (u.heldOf (1 + k) != 0) else u.grantsOf (1 + k)
      toWord (u.heldOf (1 + k) % 2 ^ 11 + (1 + k) * 2 ^ 16 + g % 65536 * 2 ^ 32)) := by
  unfold budgetQueryBody holderCodes
  rw [State.checked_free hf]
  simp only [List.map_map, Function.comp_def]

end

theorem limitsBody_checked (c : Cmd) (u : State) :
    limitsBody c u = u.checked c [(c.reserved [[(0, 0)]], stBadParam, 0)] fun u => u.ok c
      (if c.b 0 0 then
        toWord (u.avoidMap.length % 65536) :: u.avoidMap.map fun e =>
          toWord (e.1 + e.2.1 * 2 ^ 4 + e.2.2.1 * 2 ^ 8 + e.2.2.2.1 % 1024 * 2 ^ 14 + e.2.2.2.2.1 * 2 ^ 24 + e.2.2.2.2.2 * 2 ^ 32)
      else u.limitRows.map fun r => toWord (r.1 + min r.2.1 (2 ^ 23 - 1) * 2 ^ 40 + b2n r.2.2 * 2 ^ 63)) := by
  unfold limitsBody
  split <;> rfl

/-- Settles O25: each command is accepted, nothing refuses it, and its meaning replies. -/
theorem deviceQueriesReply : Obligations.DeviceQueriesReply := by
  intro s dt h ws
  refine ⟨fun ha => ?_, fun ha hb => ?_, fun ha => ?_, fun ha hb => ?_, fun ha => ?_⟩
  · exact exec_accepted rfl ha identifyCmd rfl exactly_of_length rfl rfl _ fun c u hf _ _ _ => identifyBody_ok hf u
  · refine exec_accepted rfl ha statusCmd rfl exactly_of_length rfl rfl _ fun c u hf hp _ _ => ?_
    subst hp
    exact statusBody_ok hf u hb
  · refine exec_accepted rfl ha echoCmd rfl id rfl rfl _ fun c u hf hp _ _ => ?_
    subst hp
    exact echoBody_ok hf u
  · exact exec_unreserved rfl ha (body := limitsBody) rfl hb fun c u hp => by subst hp; exact limitsBody_checked c u
  · exact exec_accepted rfl ha budgetQueryCmd rfl exactly_of_length rfl rfl _ fun c u hf _ _ _ => budgetQueryBody_ok hf u

end Sys2Proof.Machine
end

section
/-! The command ring (R483-R485): packets fetched in ring order, and those at which the ring stalls. -/

namespace Sys2Proof.Machine

/-! ### The operations of the ring -/

section
variable (s : State)

theorem State.deliver_ring {r : Reply} (h : r.path = .ring) :
    s.deliver r = s.withHif { s.hif with replies := s.hif.replies ++ [r] } := by
  simp only [State.deliver, h, State.withHif]

theorem State.holdCmd_eq (c : Cmd) : s.holdCmd c = s.withHif { s.hif with fetched := s.hif.fetched ++ [c] } := rfl

theorem State.stall_hif (cause : Nat) : (s.stall cause).hif = s.hif := by
  rw [State.stall, State.wr_hif, State.wr_hif]

theorem State.stall_rd (cause : Nat) {f : Field} (hf : f.addr ≠ Reg.HIF.QSTAT.STALLED.addr) : (s.stall cause).rd f = s.rd f :=
  (State.rd_wr_of_addr _ Reg.HIF.QSTAT.STALLCAUSE f cause hf).trans (s.rd_wr_of_addr Reg.HIF.QSTAT.STALLED f 1 hf)

theorem State.stall_stalled (cause : Nat) : (s.stall cause).rd Reg.HIF.QSTAT.STALLED = 1 :=
  (State.rd_wr_of_apart _ cause (f := Reg.HIF.QSTAT.STALLCAUSE) (by decide) (by decide)).trans
    (s.rd_wr_self Reg.HIF.QSTAT.STALLED 1 (by decide))

theorem State.stall_cause (cause : Nat) : (s.stall cause).rd Reg.HIF.QSTAT.STALLCAUSE = cause % 16 :=
  State.rd_wr_self _ Reg.HIF.QSTAT.STALLCAUSE cause (by decide)

/-- The host link once a reply waits and no packet waits for its tail. -/
def Hif.replied (h : Hif) (r : Reply) : Hif := { h with tailWait := none, replies := h.replies ++ [r] }

/-- A packet taken as two words long replies LENGTH_ERROR and stalls the ring (R483). -/
theorem State.lengthError_eq (w0 : Word) (cause : Nat) :
    s.lengthError w0 cause =
      ((s.wr Reg.HIF.CMDHEAD.COUNT (s.rd Reg.HIF.CMDHEAD.COUNT + 2)).withHif
        (s.hif.replied ((s.headerOnly .ring w0).reply stLength 0 []))).stall cause := by
  have hread : s.lengthError w0 cause =
      (((s.withHif { s.hif with tailWait := none }).wr Reg.HIF.CMDHEAD.COUNT (s.rd Reg.HIF.CMDHEAD.COUNT + 2)).deliver
        ((s.headerOnly .ring w0).reply stLength 0 [])).stall cause := rfl
  rw [hread, State.withHif_wr, State.deliver_ring _ rfl, State.withHif_hif, State.withHif_withHif]
  rfl

theorem State.lengthError_hif (w0 : Word) (cause : Nat) :
    (s.lengthError w0 cause).hif = s.hif.replied ((s.headerOnly .ring w0).reply stLength 0 []) := by
  rw [State.lengthError_eq, State.stall_hif, State.withHif_hif]

theorem State.lengthError_head (w0 : Word) (cause : Nat) :
    (s.lengthError w0 cause).rd Reg.HIF.CMDHEAD.COUNT = (s.rd Reg.HIF.CMDHEAD.COUNT + 2) % 2 ^ 32 := by
  rw [State.lengthError_eq, State.stall_rd _ _ (by decide), State.withHif_rd]
  exact s.rd_wr_self Reg.HIF.CMDHEAD.COUNT _ (by decide)

theorem State.lengthError_stalled (w0 : Word) (cause : Nat) : (s.lengthError w0 cause).rd Reg.HIF.QSTAT.STALLED = 1 := by
  rw [State.lengthError_eq, State.stall_stalled]

theorem State.lengthError_cause (w0 : Word) (cause : Nat) :
    (s.lengthError w0 cause).rd Reg.HIF.QSTAT.STALLCAUSE = cause % 16 := by
  rw [State.lengthError_eq, State.stall_cause]

/-- The command of which a failed read of the ring is the reply: it has no header but its EPOCH (R483). -/
def State.unreadCmd : Cmd := { s.headerOnly .ring 0 with epoch := s.rd Reg.HIF.QSTAT.EPOCH }

/-- A read of the ring that fails replies ABORTED and stalls the ring (R483). -/
theorem State.fetchFails_eq :
    s.fetchFails =
      ((s.wr Reg.HIF.ERR.FETCHERR 1).withHif
        (s.hif.replied (s.unreadCmd.reply stAborted (s.rd Reg.HIF.CMDHEAD.COUNT) []))).stall 4 := by
  have hread : s.fetchFails =
      (((s.withHif { s.hif with tailWait := none }).deliver
        (s.unreadCmd.reply stAborted (s.rd Reg.HIF.CMDHEAD.COUNT) [])).wr Reg.HIF.ERR.FETCHERR 1).stall 4 := rfl
  rw [hread, State.deliver_ring _ rfl, State.withHif_hif, State.withHif_withHif, State.withHif_wr]
  rfl

theorem State.fetchFails_hif :
    s.fetchFails.hif = s.hif.replied (s.unreadCmd.reply stAborted (s.rd Reg.HIF.CMDHEAD.COUNT) []) := by
  rw [State.fetchFails_eq, State.stall_hif, State.withHif_hif]

theorem State.fetchFails_shown : s.fetchFails.rd Reg.HIF.ERR.FETCHERR = 1 := by
  rw [State.fetchFails_eq, State.stall_rd _ _ (by decide), State.withHif_rd]
  exact s.rd_wr_self Reg.HIF.ERR.FETCHERR 1 (by decide)

theorem State.fetchFails_head : s.fetchFails.rd Reg.HIF.CMDHEAD.COUNT = s.rd Reg.HIF.CMDHEAD.COUNT := by
  rw [State.fetchFails_eq, State.stall_rd _ _ (by decide), State.withHif_rd]
  exact s.rd_wr_of_addr Reg.HIF.ERR.FETCHERR Reg.HIF.CMDHEAD.COUNT 1 (by decide)

theorem State.fetchFails_stalled :
    s.fetchFails.rd Reg.HIF.QSTAT.STALLED = 1 ∧ s.fetchFails.rd Reg.HIF.QSTAT.STALLCAUSE = 4 := by
  rw [State.fetchFails_eq, State.stall_stalled, State.stall_cause]
  exact ⟨rfl, rfl⟩

/-! ### A packet -/

variable (ws : List Word) (desc : HostRead)

/-- The words that the command ring holds. -/
abbrev State.cmdHeld : Nat := ringHolds (s.rd Reg.HIF.CMDTAIL.COUNT) (s.rd Reg.HIF.CMDHEAD.COUNT)

/-- The LENGTH of the packet that a read returned. -/
abbrev packetLength (ws : List Word) : Nat := fieldOf (ws.getD 1 0) 19 0

theorem State.fetchWords_whole (hn : packetLength ws ≤ 8192) (hheld : 2 + packetLength ws ≤ s.cmdHeld) :
    s.fetchWords ws desc =
      let v := s.wr Reg.HIF.CMDHEAD.COUNT (s.rd Reg.HIF.CMDHEAD.COUNT + 2 + packetLength ws)
      v.withHif { v.hif with
        tailWait := none
        fetched := v.hif.fetched ++ [s.parse .ring (ws.getD 0 0) (ws.getD 1 0)
          ((List.range (packetLength ws)).map fun i => ws.getD (2 + i) 0) desc] } := by
  have hread : s.fetchWords ws desc =
      ((s.withHif { s.hif with tailWait := none }).wr Reg.HIF.CMDHEAD.COUNT
        (s.rd Reg.HIF.CMDHEAD.COUNT + 2 + packetLength ws)).holdCmd
          (s.parse .ring (ws.getD 0 0) (ws.getD 1 0) ((List.range (packetLength ws)).map fun i => ws.getD (2 + i) 0) desc) :=
    (if_neg (show ¬ s.cmdHeld < 2 by omega)).trans ((if_neg (Nat.not_lt.mpr hn)).trans (if_neg (Nat.not_lt.mpr hheld)))
  rw [hread, State.withHif_wr, State.holdCmd_eq, State.withHif_hif, State.withHif_withHif]
  dsimp only
  rw [State.wr_hif]

theorem State.fetchWords_long (hn : 8192 < packetLength ws) (hheld : 2 ≤ s.cmdHeld) :
    s.fetchWords ws desc = s.lengthError (ws.getD 0 0) 1 :=
  (if_neg (Nat.not_lt.mpr hheld)).trans (if_pos hn)

theorem State.fetchWords_short (hn : packetLength ws ≤ 8192 ∨ s.cmdHeld < 2) (hheld : s.cmdHeld < 2 + packetLength ws) :
    s.fetchWords ws desc = s.waitTail (ws.getD 0 0) (if s.cmdHeld < 2 then 2 else 2 + packetLength ws) := by
  unfold State.fetchWords
  by_cases h2 : s.cmdHeld < 2
  · rw [if_pos h2, if_pos h2]
  · rw [if_neg h2, if_neg h2, if_neg (Nat.not_lt.mpr (hn.resolve_right h2)), if_pos hheld]

theorem State.waitTail_eq (w0 : Word) (need : Nat) :
    s.waitTail w0 need =
      { s with hif := { s.hif with tailWait := some ((s.hif.tailWait.map Prod.fst).getD s.now, w0, need) } } := by
  unfold State.waitTail
  cases s.hif.tailWait <;> rfl

end

/-! ### The rows -/

theorem exec_commandFetch (s : State) (dt : Nat) (packet desc : HostRead) :
    exec (.commandFetch dt packet desc) s = execCommandFetch dt packet desc s := rfl

theorem exec_packetTailTimeout (s : State) (dt : Nat) : exec (.packetTailTimeout dt) s = execPacketTailTimeout dt s := rfl

section
variable {s : State} {dt : Nat} {desc : HostRead} (hr : s.inReset = false) (hm : (s.elapse dt).mayFetch = true)
  (hne : s.rd Reg.HIF.CMDTAIL.COUNT ≠ s.rd Reg.HIF.CMDHEAD.COUNT)
include hr hm hne

/-- While the ring lets Keeper fetch and holds something, a read of it returns the packet's words. -/
theorem exec_commandFetch_words (ws : List Word) :
    exec (.commandFetch dt (.words ws) desc) s = .next (s.after dt fun u => u.fetchWords ws desc) :=
  (exec_commandFetch s dt _ desc).trans (State.event_eq hr dt _ _
    (State.whenever_true _ _ _ (by rw [hm]; simpa using hne)))

theorem exec_commandFetch_failed : exec (.commandFetch dt .failed desc) s = .next (s.after dt State.fetchFails) :=
  (exec_commandFetch s dt _ desc).trans (State.event_eq hr dt _ _
    (State.whenever_true _ _ _ (by rw [hm]; simpa using hne)))

end

theorem exec_packetTailTimeout_due {s : State} {dt since : Nat} {w0 : Word} {need : Nat} (hr : s.inReset = false)
    (hw : s.hif.tailWait = some (since, w0, need)) (he : s.rdb Reg.HIF.QCTRL.ENABLE = true)
    (hs : s.rdb Reg.HIF.QSTAT.STALLED = false) (hheld : s.cmdHeld < need) (ht : since + 10 * fsMs ≤ s.now + dt) :
    exec (.packetTailTimeout dt) s = .next (s.after dt fun u => u.lengthError w0 2) := by
  refine (exec_packetTailTimeout s dt).trans (State.event_eq hr dt _ _ ?_)
  simp only [State.elapse_hif, hw]
  refine State.whenever_true _ _ _ ?_
  rw [State.elapse_rdb, State.elapse_rdb, he, hs, Bool.and_eq_true, Bool.and_eq_true]
  exact ⟨⟨rfl, decide_eq_true hheld⟩, decide_eq_true ht⟩

/-- What an event leaves at which a packet is taken as two words long. -/
theorem after_lengthError (s : State) (dt : Nat) (w0 : Word) (cause : Nat) :
    let t := s.after dt fun u => u.lengthError w0 cause
    t.rd Reg.HIF.CMDHEAD.COUNT = (s.rd Reg.HIF.CMDHEAD.COUNT + 2) % 2 ^ 32 ∧ t.rd Reg.HIF.QSTAT.STALLED = 1 ∧
      t.rd Reg.HIF.QSTAT.STALLCAUSE = cause % 16 ∧ t.hif = s.hif.replied ((s.headerOnly .ring w0).reply stLength 0 []) := by
  intro t
  refine ⟨?_, ?_, ?_, ?_⟩
  · rw [State.after_rd, State.lengthError_head, State.elapse_rd]
  · rw [State.after_rd, State.lengthError_stalled]
  · rw [State.after_rd, State.lengthError_cause]
  · rw [State.after_hif, State.lengthError_hif]
    rfl

/-- What an event leaves at which a read of the ring fails. -/
theorem after_fetchFails (s : State) (dt : Nat) :
    let t := s.after dt State.fetchFails
    t.rd Reg.HIF.CMDHEAD.COUNT = s.rd Reg.HIF.CMDHEAD.COUNT ∧ t.rd Reg.HIF.ERR.FETCHERR = 1 ∧
      t.rd Reg.HIF.QSTAT.STALLED = 1 ∧ t.rd Reg.HIF.QSTAT.STALLCAUSE = 4 ∧
      t.hif = s.hif.replied (s.unreadCmd.reply stAborted (s.rd Reg.HIF.CMDHEAD.COUNT) []) := by
  intro t
  obtain ⟨hstalled, hcause⟩ := (s.elapse dt).fetchFails_stalled
  refine ⟨?_, ?_, ?_, ?_, ?_⟩
  · rw [State.after_rd, State.fetchFails_head, State.elapse_rd]
  · rw [State.after_rd, State.fetchFails_shown]
  · rw [State.after_rd, hstalled]
  · rw [State.after_rd, hcause]
  · rw [State.after_hif, State.fetchFails_hif]
    rfl

/-- Settles O18, by what the ring holds of the packet at CMDHEAD. -/
theorem commandRingIsFetchedInOrder : Obligations.CommandRingIsFetchedInOrder := by
  intro s dt ws desc hr head held n
  refine ⟨fun hm hne => ⟨fun hn hheld => ?_, fun hn hheld => ?_, fun hn hheld => ?_, ?_⟩,
    fun since w0 need hw he hs hheld ht => ?_⟩
  · exact (exec_commandFetch_words hr hm hne ws).trans
      (congrArg _ (State.after_congr ((s.elapse dt).fetchWords_whole ws desc hn hheld)))
  · have hexec := (exec_commandFetch_words (desc := desc) hr hm hne ws).trans
      (congrArg _ (State.after_congr (g := fun u => u.lengthError (ws.getD 0 0) 1)
        ((s.elapse dt).fetchWords_long ws desc hn hheld)))
    obtain ⟨hhead, hstalled, hcause, hhif⟩ := after_lengthError s dt (ws.getD 0 0) 1
    exact ⟨_, hexec, hhead, hstalled, hcause, by rw [hhif]; rfl, by rw [hhif]; rfl⟩
  · exact (exec_commandFetch_words hr hm hne ws).trans
      (congrArg _ (State.after_congr (((s.elapse dt).fetchWords_short ws desc hn hheld).trans (State.waitTail_eq _ _ _))))
  · obtain ⟨hhead, hshown, hstalled, hcause, hhif⟩ := after_fetchFails s dt
    exact ⟨_, exec_commandFetch_failed hr hm hne, hhead, hshown, hstalled, hcause, _, by rw [hhif]; rfl, rfl, rfl, rfl, rfl, rfl,
      rfl⟩
  · obtain ⟨hhead, hstalled, hcause, hhif⟩ := after_lengthError s dt w0 2
    exact ⟨_, exec_packetTailTimeout_due hr hw he hs hheld ht, hhead, hstalled, hcause, by rw [hhif]; rfl, by rw [hhif]; rfl⟩

end Sys2Proof.Machine
end

section
/-! Replies written to the reply ring (R481, R488, R489): what the device sends, and the rows that write them. -/

namespace Sys2Proof.Machine

/-! ### Messages sent -/

/-- The state in which the device has sent more messages. -/
def State.sends (s : State) (ms : List PcieMsg) : State := { s with out := s.out ++ ms }

section
variable (s : State) (ms : List PcieMsg)
@[simp] theorem State.sends_out : (s.sends ms).out = s.out ++ ms := rfl
@[simp] theorem State.sends_hif : (s.sends ms).hif = s.hif := rfl
@[simp] theorem State.sends_rd (f : Field) : (s.sends ms).rd f = s.rd f := rfl

theorem State.sends_nil : s.sends [] = s := by
  rw [State.sends, List.append_nil]

theorem State.sends_cons (m : PcieMsg) : (s.send m).sends ms = s.sends (m :: ms) := by
  simp only [State.sends, State.send, List.append_assoc, List.singleton_append]

/-- Messages that follow a list are sent in its order. -/
theorem foldl_send {α : Type} (f : α → PcieMsg) (l : List α) :
    ∀ s : State, l.foldl (fun s x => s.send (f x)) s = s.sends (l.map f) := by
  induction l with
  | nil => exact fun s => s.sends_nil.symm
  | cons x l ih => exact fun s => (ih (s.send (f x))).trans (s.sends_cons _ _)

theorem State.writeHost_eq (a : Nat) (ws : List Word) :
    s.writeHost a ws = s.sends (ws.zipIdx.map fun x => .memWrite (a + 8 * x.2) x.1) :=
  foldl_send (fun x : Word × Nat => .memWrite (a + 8 * x.2) x.1) _ s

/-- The words of the write-back block (R481). -/
theorem State.writeBack_eq :
    s.writeBack = s.sends
      [.memWrite (s.rd Reg.HIF.WBADDR.ADDR * 32) (toWord (s.rd Reg.HIF.CMDHEAD.COUNT)),
       .memWrite (s.rd Reg.HIF.WBADDR.ADDR * 32 + 8) (toWord (s.rd Reg.HIF.RPLTAIL.COUNT)),
       .memWrite (s.rd Reg.HIF.WBADDR.ADDR * 32 + 16) (toWord (s.rd Reg.HIF.EVTTAIL.COUNT)),
       .memWrite (s.rd Reg.HIF.WBADDR.ADDR * 32 + 24) (toWord s.hif.eseq)] := by
  rw [State.writeBack, State.writeHost_eq]
  simp only [List.zipIdx_cons, List.zipIdx_nil, List.map_cons, List.map_nil, Nat.mul_zero, Nat.add_zero, Nat.zero_add,
    Nat.mul_one, Nat.reduceAdd, Nat.reduceMul]

theorem State.sendMsix_eq (v : Nat) : ∃ sent, s.sendMsix v = s.sends sent ∧ (sent = [] ∨ sent = [.msix v]) := by
  unfold State.sendMsix
  split
  · exact ⟨_, rfl, .inr rfl⟩
  · exact ⟨_, s.sends_nil.symm, .inl rfl⟩

/-- A vector that is signalled sends its message at once or not yet; the host link keeps what waits. -/
theorem State.msix_eq (v : Nat) :
    ∃ sent h, s.msix v = (s.sends sent).withHif h ∧ (sent = [] ∨ sent = [.msix v]) ∧ h.replies = s.hif.replies := by
  obtain ⟨sent, hsent, hcases⟩ := s.sendMsix_eq v
  unfold State.msix
  rw [hsent]
  dsimp only
  split
  · exact ⟨sent, s.hif, rfl, hcases, rfl⟩
  · split
    · split
      · exact ⟨[], { s.hif with irqWant := s.hif.irqWant.set (modIndex v) true }, by rw [State.sends_nil]; rfl, .inl rfl, rfl⟩
      · exact ⟨sent, _, rfl, hcases, rfl⟩
    · exact ⟨sent, _, rfl, hcases, rfl⟩

end

/-! ### A reply in the ring -/

section
variable (s : State) (ws : List Word)

/-- The words of a reply as they go to the reply ring, from RPLTAIL on (R479, R489). -/
abbrev State.ringWrites : List PcieMsg :=
  ws.zipIdx.map fun x => .memWrite (s.rd Reg.HIF.RPLBASE.BASE * 4096 +
    8 * ((s.rd Reg.HIF.RPLTAIL.COUNT + x.2) % 2 ^ s.rd Reg.HIF.RINGSIZE.RPLLOG)) x.1

theorem State.writeReplyRing_eq :
    s.writeReplyRing ws =
      (s.sends (s.ringWrites ws)).wr Reg.HIF.RPLTAIL.COUNT (s.rd Reg.HIF.RPLTAIL.COUNT + ws.length) := by
  unfold State.writeReplyRing
  dsimp only
  rw [foldl_send]

/-- The write-back block after a reply of some words has been written (R481). -/
abbrev State.blockWrites : List PcieMsg :=
  [.memWrite (s.rd Reg.HIF.WBADDR.ADDR * 32) (toWord (s.rd Reg.HIF.CMDHEAD.COUNT)),
   .memWrite (s.rd Reg.HIF.WBADDR.ADDR * 32 + 8) (toWord ((s.rd Reg.HIF.RPLTAIL.COUNT + ws.length) % 2 ^ 32)),
   .memWrite (s.rd Reg.HIF.WBADDR.ADDR * 32 + 16) (toWord (s.rd Reg.HIF.EVTTAIL.COUNT)),
   .memWrite (s.rd Reg.HIF.WBADDR.ADDR * 32 + 24) (toWord s.hif.eseq)]

theorem State.writeReplyRing_writeBack :
    (s.writeReplyRing ws).writeBack = (s.writeReplyRing ws).sends (s.blockWrites ws) := by
  have htail : (s.writeReplyRing ws).rd Reg.HIF.RPLTAIL.COUNT = (s.rd Reg.HIF.RPLTAIL.COUNT + ws.length) % 2 ^ 32 := by
    rw [State.writeReplyRing_eq]
    exact State.rd_wr_self _ Reg.HIF.RPLTAIL.COUNT _ (by decide)
  have hother {f : Field} (hf : f.addr ≠ Reg.HIF.RPLTAIL.COUNT.addr) : (s.writeReplyRing ws).rd f = s.rd f := by
    rw [State.writeReplyRing_eq, State.rd_wr_of_addr _ _ _ _ hf, State.sends_rd]
  have heseq : (s.writeReplyRing ws).hif = s.hif := by
    rw [State.writeReplyRing_eq, State.wr_hif, State.sends_hif]
  rw [State.writeBack_eq, htail, hother (by decide), hother (by decide), hother (by decide), heseq]

end

/-! ### REPLY_WRITE -/

theorem exec_replyWrite (s : State) (dt : Nat) (takes : Bool) : exec (.replyWrite dt takes) s = execReplyWrite dt takes s := rfl

/-- The state with the replies that wait replaced. -/
def State.withReplies (s : State) (l : List Reply) : State := { s with hif := { s.hif with replies := l } }

section
variable (s : State) (l : List Reply)
@[simp] theorem State.withReplies_rd (f : Field) : (s.withReplies l).rd f = s.rd f := rfl
@[simp] theorem State.withReplies_out : (s.withReplies l).out = s.out := rfl
@[simp] theorem State.withReplies_replies : (s.withReplies l).hif.replies = l := rfl
@[simp] theorem State.withReplies_eseq : (s.withReplies l).hif.eseq = s.hif.eseq := rfl
end

/-- The RESET that a reply accepts begins after it (assumption 51). -/
def Reply.begins (r : Reply) (u : State) : State := if r.opcode = 0x0003 ∧ r.status = stOk then u.beginOwed else u

theorem Reply.begins_eq (r : Reply) (u : State) : (if r.resets then u.beginOwed else u) = r.begins u :=
  if_congr (by simp [Reply.resets]) rfl rfl

section
variable {u : State} {r : Reply} {left : List Reply} (takes : Bool)

/-- A reply of an earlier queue whose EPOCH has come round again is dropped and counted (R488). -/
theorem State.writeReply_suppressed (hleft : u.hif.replies.erase r = left) (hgen : r.gen ≠ u.hif.gen)
    (hepoch : r.epoch % 256 = u.rd Reg.HIF.QSTAT.EPOCH) :
    u.writeReply r takes = r.begins ((u.withReplies left).count Reg.HIF.QSTAT.SUPPRESSED 1) := by
  subst hleft
  unfold State.writeReply
  rw [if_pos ⟨hgen, hepoch⟩]
  exact r.begins_eq _

section
variable (hcur : r.gen = u.hif.gen ∨ r.epoch % 256 ≠ u.rd Reg.HIF.QSTAT.EPOCH)
include hcur

theorem State.writeReply_waits
    (hroom : 2 ^ u.rd Reg.HIF.RINGSIZE.RPLLOG <
      ringHolds (u.rd Reg.HIF.RPLTAIL.COUNT) (u.rd Reg.HIF.RPLHEAD.COUNT) + (r.packet 8192).length) :
    u.writeReply r takes = u :=
  (if_neg fun h => hcur.elim h.1 fun hne => hne h.2).trans (if_pos hroom)

theorem State.writeReply_written (hleft : u.hif.replies.erase r = left)
    (hroom : ringHolds (u.rd Reg.HIF.RPLTAIL.COUNT) (u.rd Reg.HIF.RPLHEAD.COUNT) + (r.packet 8192).length ≤
      2 ^ u.rd Reg.HIF.RINGSIZE.RPLLOG) :
    u.writeReply r takes =
      let v := (((u.withReplies left).writeRbuf r).writeReplyRing (r.packet 8192)).writeBack
      r.begins (if takes then v.msix 0
        else ((v.wr Reg.HIF.ERR.WBERR 1).wr Reg.HIF.QSTAT.STALLED 1).wr Reg.HIF.QSTAT.STALLCAUSE 3) := by
  subst hleft
  unfold State.writeReply
  rw [if_neg fun h => hcur.elim h.1 fun hne => hne h.2, if_neg (Nat.not_lt.mpr hroom)]
  exact r.begins_eq _

/-- A reply that goes to the ring whole and begins no RESET: its words are sent, then the write-back block, RPLTAIL moves past
them, and vector 0 is signalled now or at the end of its interval (R481, R502). -/
theorem State.writeReply_signalled (hleft : u.hif.replies.erase r = left)
    (hroom : ringHolds (u.rd Reg.HIF.RPLTAIL.COUNT) (u.rd Reg.HIF.RPLHEAD.COUNT) + (r.packet 8192).length ≤
      2 ^ u.rd Reg.HIF.RINGSIZE.RPLLOG) (hbuf : r.rbuf = none) (hop : ¬ (r.opcode = 0x0003 ∧ r.status = stOk)) :
    (u.writeReply r true).hif.replies = left ∧
      (u.writeReply r true).rd Reg.HIF.RPLTAIL.COUNT = (u.rd Reg.HIF.RPLTAIL.COUNT + (r.packet 8192).length) % 2 ^ 32 ∧
      ∃ sent, (u.writeReply r true).out = u.out ++ u.ringWrites (r.packet 8192) ++ u.blockWrites (r.packet 8192) ++ sent ∧
        (sent = [] ∨ sent = [.msix 0]) := by
  have hbuffer (v : State) : v.writeRbuf r = v := by simp only [State.writeRbuf, hbuf]
  obtain ⟨sent, h, hmsix, hsent, hreplies⟩ := (((u.withReplies left).writeReplyRing (r.packet 8192)).writeBack).msix_eq 0
  have hwritten := u.writeReply_written true hcur hleft hroom
  simp only [Reply.begins, if_neg hop, if_true, hbuffer, hmsix] at hwritten
  rw [State.writeReplyRing_writeBack, State.writeReplyRing_eq] at hwritten hreplies
  rw [hwritten]
  refine ⟨?_, ?_, sent, ?_, hsent⟩
  · rw [State.withHif_hif, hreplies, State.sends_hif, State.wr_hif, State.sends_hif, State.withReplies_replies]
  · rw [State.withHif_rd, State.sends_rd, State.sends_rd]
    exact State.rd_wr_self _ Reg.HIF.RPLTAIL.COUNT _ (by decide)
  · rw [State.withHif_out, State.sends_out, State.sends_out, State.wr_out, State.sends_out]
    rfl

end

end

/-- While the rings are served and host memory may be written, the oldest reply of the ring is the one to write (R488). -/
theorem exec_replyWrite_oldest {s : State} {dt : Nat} {r : Reply} {before rest : List Reply} (hr : s.inReset = false)
    (hreplies : s.hif.replies = before ++ r :: rest) (hbefore : ∀ q ∈ before, q.path ≠ .ring) (hp : r.path = .ring)
    (he : s.rdb Reg.HIF.QCTRL.ENABLE = true) (hw : s.hostWrites = true) (hwb : s.wbFailed = false) (hrom : s.fw.romAt = none)
    (takes : Bool) : exec (.replyWrite dt takes) s = .next (s.after dt fun u => u.writeReply r takes) := by
  refine (exec_replyWrite s dt takes).trans (State.event_eq hr dt _ _ ?_)
  have hfind : s.hif.replies.find? (fun q => q.path = .ring) = some r := by
    rw [hreplies, List.find?_append, List.find?_eq_none.mpr fun q hq => by simpa using hbefore q hq,
      List.find?_cons_of_pos (by simpa using hp), Option.none_or]
  have hw' : (s.elapse dt).hostWrites = true := hw
  have hwb' : (s.elapse dt).wbFailed = false := hwb
  simp only [State.elapse_hif, hfind]
  exact State.whenever_true _ _ _ (by simp [he, hw', hwb', hrom])

/-- Settles O20, by the queue and the room of the reply. -/
theorem replyIsWrittenWhenItFits : Obligations.ReplyIsWrittenWhenItFits := by
  intro s dt r before rest hr hreplies hbefore hp he hbme hd3 hperst hstalled hrom tail size held ws left begins
  have hw : s.hostWrites = true := by simp [State.hostWrites, hbme, hd3, hperst]
  have hwb : s.wbFailed = false := by simpa [State.wbFailed] using hstalled
  have hexec := fun takes => exec_replyWrite_oldest (dt := dt) hr hreplies hbefore hp he hw hwb hrom takes
  have hleft : (s.elapse dt).hif.replies.erase r = before ++ rest := by
    rw [State.elapse_hif, hreplies, List.erase_append_right _ fun hmem => hbefore r hmem hp, List.erase_cons_head]
  refine ⟨fun hgen hepoch takes => ?_, fun hcur => ⟨fun hroom takes => ?_, fun hroom => ⟨fun takes => ?_, fun hbuf hop => ?_⟩⟩⟩
  · exact (hexec takes).trans (congrArg _ (State.after_congr (State.writeReply_suppressed takes hleft hgen hepoch)))
  · exact (hexec takes).trans (congrArg _ (State.after_congr (State.writeReply_waits (u := s.elapse dt) takes hcur hroom)))
  · exact (hexec takes).trans (congrArg _ (State.after_congr (State.writeReply_written takes hcur hleft hroom)))
  · obtain ⟨hreplies', htail, sent, hout, hsent⟩ := State.writeReply_signalled (u := s.elapse dt) hcur hleft hroom hbuf hop
    exact ⟨_, hexec true, by rw [State.after_hif, hreplies'], by rw [State.after_rd, htail]; rfl, sent,
      by rw [State.after_out, hout]; rfl, hsent⟩

end Sys2Proof.Machine
end

section
/-! PERST_N and D3hot (R469, R472, R473, R487, R503): the reset of the host link's block, and what goes on. -/

namespace Sys2Proof.Machine

/-! ### The link -/

/-- Training the link changes its register, the supply of open values and the autonomous-bandwidth bit only (R469). -/
theorem State.linkTrain_frame (s : State) :
    (∃ r n b, s.linkTrain = { s with regs := r, free := n, hif := { s.hif with autoBw := b } }) ∧
      ∀ a, a ≠ Reg.HIF.LINK.SPEED.addr → s.linkTrain.stored a = s.stored a := by
  have hshown (u : State) (v w x a : Nat) (ha : a ≠ Reg.HIF.LINK.SPEED.addr) :
      (((u.wr Reg.HIF.LINK.SPEED v).wr Reg.HIF.LINK.WIDTH w).wr Reg.HIF.LINK.LOWRATE x).stored a = u.stored a :=
    (State.stored_wr_of_ne _ Reg.HIF.LINK.LOWRATE x ha).trans
      ((State.stored_wr_of_ne _ Reg.HIF.LINK.WIDTH w ha).trans (u.stored_wr_of_ne Reg.HIF.LINK.SPEED v ha))
  unfold State.linkTrain
  dsimp only
  split
  · exact ⟨⟨_, s.free, s.hif.autoBw, rfl⟩, fun a ha => hshown s _ _ _ a ha⟩
  · split
    · exact ⟨⟨_, s.free, _, rfl⟩, fun a ha => hshown _ _ _ _ a ha⟩
    · exact ⟨⟨_, _, _, rfl⟩, fun a ha => hshown _ _ _ _ a ha⟩

/-- While PERST_N is low the link is down. -/
theorem State.linkTrain_perst {s : State} (h : s.hif.perst = true) :
    s.linkTrain = ((s.wr Reg.HIF.LINK.SPEED 0).wr Reg.HIF.LINK.WIDTH 0).wr Reg.HIF.LINK.LOWRATE 0 :=
  if_pos (by rw [h, Bool.true_or])

section
variable (s : State)

theorem State.linkTrain_hif : ∃ b, s.linkTrain.hif = { s.hif with autoBw := b } := by
  obtain ⟨⟨r, n, b, h⟩, -⟩ := s.linkTrain_frame
  exact ⟨b, by rw [h]⟩

theorem State.linkTrain_running : s.linkTrain.hif.running = s.hif.running := by
  obtain ⟨b, h⟩ := s.linkTrain_hif
  rw [h]

theorem State.linkTrain_fetched : s.linkTrain.hif.fetched = s.hif.fetched := by
  obtain ⟨b, h⟩ := s.linkTrain_hif
  rw [h]

theorem State.linkTrain_replies : s.linkTrain.hif.replies = s.hif.replies := by
  obtain ⟨b, h⟩ := s.linkTrain_hif
  rw [h]

theorem State.linkTrain_perstKept : s.linkTrain.hif.perst = s.hif.perst := by
  obtain ⟨b, h⟩ := s.linkTrain_hif
  rw [h]

/-! ### PERST_N asserted -/

/-- The registers once PERST_N is asserted: those of the block at their reset values, but for EPOCH and IMAGE (R473, R487). -/
def State.blockReset : State :=
  ((s.resetRegs 0x10000 0x20000).wr Reg.HIF.QSTAT.EPOCH (s.rd Reg.HIF.QSTAT.EPOCH + 1)).wr Reg.HIF.QSTAT.IMAGE
    (s.rd Reg.DEV.BOOT.IMAGE)

/-- The host link beside its registers once PERST_N is asserted. -/
def Hif.perstLow (h : Hif) : Hif :=
  { h with
    gen := h.gen + 1, fetched := h.fetched.filter fun c => c.path ≠ Path.ring, tailWait := none, irqLast := [none, none]
    irqWant := [false, false], bme := false, d3hot := false, autoBw := false, perst := true }

theorem exec_perstNAssert (s : State) (dt : Nat) : exec (.perstNAssert dt) s = execPerstNAssert dt s := rfl
theorem exec_perstNRelease (s : State) (dt : Nat) : exec (.perstNRelease dt) s = execPerstNRelease dt s := rfl

theorem exec_perstNAssert_high {s : State} {dt : Nat} (hr : s.inReset = false) (hp : s.hif.perst = false) :
    exec (.perstNAssert dt) s = .next (s.after dt fun u =>
      ((u.blockReset.withHif u.blockReset.hif.perstLow).streamFails 11 0).endHostReads.linkTrain) := by
  refine (exec_perstNAssert s dt).trans (State.event_eq hr dt _ _ ((State.whenever_true _ _ _ ?_).trans ?_))
  · rw [State.elapse_hif, hp, Bool.not_false]
  · generalize s.elapse dt = u
    rfl

theorem State.blockReset_hif : s.blockReset.hif = s.hif := by
  rw [State.blockReset, State.wr_hif, State.wr_hif, State.resetRegs_hif]

theorem State.blockReset_frame : ∃ r, s.blockReset = { s with regs := r } := ⟨_, rfl⟩

theorem State.blockReset_stored {a : Nat} (ha : a ≠ Reg.HIF.QSTAT.EPOCH.addr) :
    s.blockReset.stored a = if 0x10000 ≤ a ∧ a < 0x20000 then regReset a else s.stored a := by
  rw [State.blockReset, State.stored_wr_of_ne _ Reg.HIF.QSTAT.IMAGE _ ha, State.stored_wr_of_ne _ Reg.HIF.QSTAT.EPOCH _ ha,
    State.stored_resetRegs]

theorem State.blockReset_epoch : s.blockReset.rd Reg.HIF.QSTAT.EPOCH = (s.rd Reg.HIF.QSTAT.EPOCH + 1) % 256 :=
  (State.rd_wr_of_apart _ _ (f := Reg.HIF.QSTAT.IMAGE) (by decide) (by decide)).trans
    (State.rd_wr_self _ Reg.HIF.QSTAT.EPOCH _ (by decide))

theorem State.blockReset_image : s.blockReset.rd Reg.HIF.QSTAT.IMAGE = s.rd Reg.DEV.BOOT.IMAGE :=
  (State.rd_wr_self _ Reg.HIF.QSTAT.IMAGE _ (by decide)).trans (Nat.mod_eq_of_lt (Nat.mod_lt _ (by decide)))

theorem State.streamFails_none (h : s.cfg.stream = none) (reason index : Nat) : s.streamFails reason index = s := by
  unfold State.streamFails
  rw [h]

/-- Nothing that reads host memory is under way. -/
theorem State.endHostReads_none (hj : ∀ j ∈ s.cfg.jobs, j.gddr = true) (hs : ∀ st, s.cfg.staging = some st → st.gddr = true) :
    s.endHostReads = s := by
  have hjobs : s.endJobsOf (fun j => !j.gddr) stAborted 11 = s := by
    unfold State.endJobsOf
    rw [List.filter_eq_nil_iff.mpr fun j hmem => by simp [hj j hmem], List.foldl_nil]
  unfold State.endHostReads
  rw [hjobs]
  cases h : s.cfg.staging with
  | none => simp only [h]
  | some st => simp only [h, hs st h, if_true]

/-- The block once PERST_N is asserted while nothing reads host memory. -/
def State.perstLow : State :=
  (((s.blockReset.withHif s.hif.perstLow).wr Reg.HIF.LINK.SPEED 0).wr Reg.HIF.LINK.WIDTH 0).wr Reg.HIF.LINK.LOWRATE 0

theorem State.perstAssert_idle (hstream : s.cfg.stream = none) (hj : ∀ j ∈ s.cfg.jobs, j.gddr = true)
    (hs : ∀ st, s.cfg.staging = some st → st.gddr = true) :
    ((s.blockReset.withHif s.blockReset.hif.perstLow).streamFails 11 0).endHostReads.linkTrain = s.perstLow := by
  obtain ⟨r, hframe⟩ := s.blockReset_frame
  have hcfg : (s.blockReset.withHif s.hif.perstLow).cfg = s.cfg := by rw [hframe]; rfl
  rw [State.blockReset_hif, State.streamFails_none _ (by rw [hcfg, hstream]),
    State.endHostReads_none _ (by rw [hcfg]; exact hj) (by rw [hcfg]; exact hs), State.linkTrain_perst rfl]
  rfl

theorem State.perstLow_hif : s.perstLow.hif = s.hif.perstLow := by
  rw [State.perstLow, State.wr_hif, State.wr_hif, State.wr_hif, State.withHif_hif]

theorem State.perstLow_frame : ∃ r, s.perstLow = { s with regs := r, hif := s.hif.perstLow } := by
  obtain ⟨r, hreset⟩ := s.blockReset_frame
  obtain ⟨r', hlink⟩ := State.wrAll_frame id (fun _ => 0) [Reg.HIF.LINK.SPEED, Reg.HIF.LINK.WIDTH, Reg.HIF.LINK.LOWRATE]
    (s.blockReset.withHif s.hif.perstLow)
  have hlow : s.perstLow = { s.blockReset.withHif s.hif.perstLow with regs := r' } := hlink
  exact ⟨r', by rw [hlow, hreset]; rfl⟩

theorem State.perstLow_stored {a : Nat} (ha : a ≠ Reg.HIF.LINK.SPEED.addr) : s.perstLow.stored a = s.blockReset.stored a := by
  rw [State.perstLow, State.stored_wr_of_ne _ Reg.HIF.LINK.LOWRATE _ ha, State.stored_wr_of_ne _ Reg.HIF.LINK.WIDTH _ ha,
    State.stored_wr_of_ne _ Reg.HIF.LINK.SPEED _ ha, State.withHif_stored]

theorem State.perstLow_rd {f : Field} (hf : f.addr ≠ Reg.HIF.LINK.SPEED.addr) : s.perstLow.rd f = s.blockReset.rd f := by
  simp only [State.rd, s.perstLow_stored hf]

/-! ### PERST_N released -/

/-- A reply of the mailbox that waited for the release; the RESET that it accepts begins after it (R503). -/
def State.lateReply (r : Reply) : State := if r.resets then (s.mailboxReply r).beginOwed else s.mailboxReply r

/-- The state once PERST_N is released, but for the mailbox's replies that wait. -/
def State.perstHigh : State :=
  let v := ({ s with hif := { s.hif with perst := false, replies := s.hif.replies.filter fun r => r.path ≠ .mailbox } } :
    State).linkTrain
  v.wrb Reg.HIF.MBOXCTL.BUSY ((v.hif.running ++ v.hif.fetched).any fun c => c.path = .mailbox)

theorem exec_perstNRelease_low {s : State} {dt : Nat} (hr : s.inReset = false) (hp : s.hif.perst = true) :
    exec (.perstNRelease dt) s = .next (s.after dt fun u =>
      (u.hif.replies.filter fun r => r.path = .mailbox).foldl State.lateReply u.perstHigh) := by
  refine (exec_perstNRelease s dt).trans (State.event_eq hr dt _ _ ((State.whenever_true _ _ _ hp).trans ?_))
  generalize s.elapse dt = u
  unfold State.perstHigh
  dsimp only
  rw [State.linkTrain_running, State.linkTrain_fetched]
  rfl

theorem State.perstHigh_hif :
    s.perstHigh.hif.perst = false ∧ s.perstHigh.hif.running = s.hif.running ∧
      s.perstHigh.hif.replies = s.hif.replies.filter fun r => r.path ≠ .mailbox := by
  unfold State.perstHigh
  dsimp only
  rw [State.wrb_hif, State.linkTrain_running, State.linkTrain_replies, State.linkTrain_perstKept]
  exact ⟨rfl, rfl, rfl⟩

theorem State.perstHigh_stored {a : Nat} (ha : a < 0x10000 ∨ 0x20000 ≤ a) : s.perstHigh.stored a = s.stored a := by
  have hbusy : a ≠ Reg.HIF.MBOXCTL.BUSY.addr := fun h => by simp [h, Reg.HIF.MBOXCTL.BUSY] at ha
  have hlink : a ≠ Reg.HIF.LINK.SPEED.addr := fun h => by simp [h, Reg.HIF.LINK.SPEED] at ha
  unfold State.perstHigh
  dsimp only
  rw [State.wrb, State.stored_wr_of_ne _ _ _ hbusy, (State.linkTrain_frame _).2 a hlink]
  rfl

end

theorem exec_d3hotEntry (s : State) (dt : Nat) (clears : Bool) : exec (.d3hotEntry dt clears) s = execD3hotEntry dt clears s := rfl
theorem exec_d3hotExit (s : State) (dt : Nat) (sets : Bool) : exec (.d3hotExit dt sets) s = execD3hotExit dt sets s := rfl

/-- Settles O23: PERST_N by what is under way and by the replies that wait, D3hot by the bit that it sets or clears. -/
theorem perstResetsTheHostLink : Obligations.PerstResetsTheHostLink := by
  refine ⟨fun s dt hr hp => ⟨exec_perstNAssert_high hr hp, fun hstream hjobs hstaging => ?_⟩,
    fun s dt hr hp => ⟨?_, fun hnone => ?_⟩, fun s dt hr hp => ?_⟩
  · have hexec : exec (.perstNAssert dt) s = .next (s.after dt State.perstLow) :=
      (exec_perstNAssert_high hr hp).trans
        (congrArg _ (State.after_congr ((s.elapse dt).perstAssert_idle hstream hjobs hstaging)))
    obtain ⟨r, hframe⟩ := (s.elapse dt).perstLow_frame
    have hhif : (s.after dt State.perstLow).hif = s.hif.perstLow := by rw [State.after_hif, State.perstLow_hif]; rfl
    have hrest : (s.after dt State.perstLow).cfg = s.cfg ∧ (s.after dt State.perstLow).step = s.step ∧
        (s.after dt State.perstLow).fab = s.fab ∧ (s.after dt State.perstLow).out = s.out := by
      simp only [State.after, hframe]
      exact ⟨rfl, rfl, rfl, rfl⟩
    obtain ⟨hcfg, hstep, hfab, hout⟩ := hrest
    refine ⟨_, hexec, by rw [hhif]; rfl, ?_, ?_, fun a hlo hhi hepoch hlink => ?_, fun a ha => ?_, by rw [hhif]; rfl,
      by rw [hhif]; rfl, by rw [hhif]; rfl, hcfg, hstep, hfab, hout⟩
    · rw [State.after_rd, State.perstLow_rd _ (by decide), State.blockReset_epoch, State.elapse_rd]
    · rw [State.after_rd, State.perstLow_rd _ (by decide), State.blockReset_image, State.elapse_rd]
    · rw [State.after_stored, State.perstLow_stored _ hlink, State.blockReset_stored _ hepoch, if_pos ⟨hlo, hhi⟩]
    · have hlink : a ≠ Reg.HIF.LINK.SPEED.addr := fun h => by simp [h, Reg.HIF.LINK.SPEED] at ha
      have hepoch : a ≠ Reg.HIF.QSTAT.EPOCH.addr := fun h => by simp [h, Reg.HIF.QSTAT.EPOCH] at ha
      rw [State.after_stored, State.perstLow_stored _ hlink, State.blockReset_stored _ hepoch, if_neg (by omega),
        State.elapse_stored]
  · refine (exec_perstNRelease_low hr hp).trans (congrArg _ (State.after_congr ?_))
    have hlate : State.lateReply = fun (w : State) (r : Reply) =>
        if r.opcode = 0x0003 ∧ r.status = stOk then (w.mailboxReply r).beginOwed else w.mailboxReply r :=
      funext fun w => funext fun r => r.begins_eq (w.mailboxReply r)
    rw [hlate]
    rfl
  · have hmine : (s.elapse dt).hif.replies.filter (fun r => r.path = .mailbox) = [] :=
      List.filter_eq_nil_iff.mpr fun r hmem => by simpa using hnone r hmem
    have hkept : s.hif.replies.filter (fun r => r.path ≠ .mailbox) = s.hif.replies :=
      List.filter_eq_self.mpr fun r hmem => by simpa using hnone r hmem
    have hexec : exec (.perstNRelease dt) s = .next (s.after dt State.perstHigh) :=
      (exec_perstNRelease_low hr hp).trans (congrArg _ (State.after_congr (by rw [hmine, List.foldl_nil])))
    obtain ⟨hperst, hrunning, hreplies⟩ := (s.elapse dt).perstHigh_hif
    refine ⟨_, hexec, ?_, ?_, ?_, fun a ha => ?_⟩
    · rw [State.after_hif, hperst]
    · rw [State.after_hif, hrunning, State.elapse_hif]
    · rw [State.after_hif, hreplies, State.elapse_hif, hkept]
    · rw [State.after_stored, State.perstHigh_stored _ ha, State.elapse_stored]
  · have hhigh : (!(s.elapse dt).hif.perst) = true := by rw [State.elapse_hif, hp, Bool.not_false]
    exact ⟨(exec_d3hotEntry s dt _).trans (State.event_eq hr dt _ _ (State.whenever_true _ _ _ hhigh)),
      (exec_d3hotEntry s dt _).trans (State.event_eq hr dt _ _ (State.whenever_true _ _ _ hhigh)),
      (exec_d3hotExit s dt _).trans (State.event_eq hr dt _ _ (State.whenever_true _ _ _ hhigh)),
      (exec_d3hotExit s dt _).trans (State.event_eq hr dt _ _ (State.whenever_true _ _ _ hhigh))⟩

end Sys2Proof.Machine
end

section
/-! The block's step, what every command does with the queue, the time and DEV_RST_N, and the service port's rows (R591, R594,
R628). -/

namespace Sys2Proof.Machine

/-! ### Every command -/

/-- Settles O1, by the two cases of the queue. -/
theorem stepRunsTheFrontCommand : Obligations.StepRunsTheFrontCommand := by
  refine fun s => ⟨fun c rest h => ?_, fun h => ?_⟩
  · simp only [step, h]
  · simp only [step, h]

/-- Settles O4: a command that does not act while DEV_RST_N is low is an event, and no event happens then. -/
theorem nothingActsDuringDevRstN : Obligations.NothingActsDuringDevRstN := by
  intro c s hr hc
  rcases exec_shape c s with ⟨-, f, he⟩ | ⟨hacts, -⟩
  · rw [he, State.event_inReset hr]
  · cases hc.symm.trans hacts

/-- Settles O5, by the two shapes of a meaning. -/
theorem everyCommandKeepsQueueAndTime : Obligations.EveryCommandKeepsQueueAndTime := by
  intro c s
  rcases exec_shape c s with ⟨-, f, he⟩ | ⟨hacts, f, he⟩
  · cases hr : s.inReset
    · exact ⟨_, he.trans (State.event_outside hr _ _), rfl, rfl, fun _ => rfl⟩
    · exact ⟨_, he.trans (State.event_inReset hr _ _), rfl, rfl, fun _ => hr⟩
  · exact ⟨_, he, rfl, rfl, fun hc => nomatch hc.symm.trans hacts⟩

/-! ### The service port -/

/-- A packet written to the service port with at least its two header words (R628). -/
theorem exec_svcWrite_headed {s : State} (hr : s.inReset = false) (dt : Nat) {packet : List Word} (desc : HostRead)
    (h2 : 2 ≤ packet.length) :
    exec (.svcWrite dt packet desc) s = .next (s.after dt fun u =>
      if 4 ≤ u.hif.svcReplies.length then u.wr Reg.FWU.STAT.SVCOVF 1
      else if 8192 < fieldOf (packet.getD 1 0) 19 0 ∨ packet.length ≠ 2 + fieldOf (packet.getD 1 0) 19 0 then
        u.arrive (u.headerOnly .service (packet.getD 0 0))
      else u.arrive (u.parse .service (packet.getD 0 0) (packet.getD 1 0) (packet.drop 2) desc)) := by
  rw [exec_svcWrite, execSvcWrite, State.event_outside hr]
  simp only [State.whenever, decide_eq_true h2, if_true]

theorem exec_svcRead (s : State) (dt : Nat) : exec (.svcRead dt) s = execSvcRead dt s := rfl

theorem exec_svcStat (s : State) (dt : Nat) : exec (.svcStat dt) s = execSvcStat dt s := rfl

/-- Settles O21: WRITE by the replies that wait and the words of the packet, READ by the replies that wait, STAT as it stands. -/
theorem servicePortTransactions : Obligations.ServicePortTransactions := by
  refine ⟨fun s dt packet desc hr h2 => ?_, fun s dt hr => ⟨fun hnone => ?_, fun r rest hsome => ?_, ?_⟩⟩
  · rw [exec_svcWrite_headed hr dt desc h2]
    refine ⟨fun hfull => ?_, fun hroom hwhole hfits => ?_, fun hroom hbad => ?_⟩
    · exact congrArg _ (State.after_congr (if_pos hfull))
    · exact congrArg _ (State.after_congr ((if_neg (Nat.not_le.mpr hroom)).trans (if_neg (by omega))))
    · exact congrArg _ (State.after_congr ((if_neg (Nat.not_le.mpr hroom)).trans (if_pos (by omega))))
  · refine (exec_svcRead s dt).trans (State.event_eq hr dt _ _ ?_)
    simp only [State.elapse_hif, hnone]
  · refine (exec_svcRead s dt).trans (State.event_eq hr dt _ _ ?_)
    simp only [State.elapse_hif, hsome]
  · exact (exec_svcStat s dt).trans (State.event_outside hr dt _)

end Sys2Proof.Machine
end

section
/-! The end of a configuration stream (R530): the order of the checks, the grants and the activation. -/

namespace Sys2Proof.Machine

theorem endDetail_notSelected : endDetail 0 0 true = 2 ^ 24 := by decide

/-- Whether a cue or a lane group that a container names is taken (R530 step 3). -/
def State.claimsTaken (s : State) (x : Stream) : Bool :=
  x.outCues.any (fun k => !s.cueFree k fnOutput) || s.lanesConflict x.laneGroups

/-- The BU of the wings that a container configures (R530 step 4). -/
def Stream.wingBu (x : Stream) : Nat := (x.carried.flatMap x.planeWings).eraseDups.length

/-- The BU of the corridor directions that the contexts put in use need (R530 step 4). -/
def Stream.dirBu (x : Stream) : Nat :=
  let routes := x.ctxs.map fun c => (c.wings.flatMap fun w => w.2.outs.flatMap fun o => o.route) ++
    c.porchIns.flatMap fun p => p.route
  2 * ((((modeSet x.modeWords).flatMap fun c => routes.getD c []).map Hop.dir).eraseDups).length

/-- The device once a container's claims and grants are made and it is activated, with the refills ahead begun (R530 steps 5 to 7). -/
def State.streamActivated (s : State) (x : Stream) : State :=
  let t := x.outCues.foldl (fun s k => s.claimCue k fnOutput) s
  let t := (t.grantAlways 0x09 x.wingBu).grantAlways 0x0B x.dirBu
  (((t.activate x).streamEnds stOk).owedFault).pacingSync.corrSync.showNext.refillAhead 2

section
variable {s : State} {x : Stream} {id : Nat} (hx : s.cfg.stream = some x) (he : s.cfg.endCmd = some id)
include hx he

/-- A container whose trailer does not pass fails its stream with reason 14 (R516, R522). -/
theorem State.cfgFinish_badTrailer (ht : s.trailerOk x = false) : s.cfgFinish = s.streamFails 14 x.sections := by
  simp only [State.cfgFinish, hx, he, ht, Bool.not_false, if_true]

/-- A container for another device ends its stream, and CFG_END says so (R517, R530). -/
theorem State.cfgFinish_otherDevice (ht : s.trailerOk x = true) (hsel : x.selected = false) :
    s.cfgFinish =
      (({ s with cfg := { s.cfg with endCmd := none } }).streamEnds stOk).complete id stOk (2 ^ 24) [] := by
  simp only [State.cfgFinish, hx, he, ht, hsel, Bool.not_true, Bool.not_false, Bool.false_eq_true, if_false, if_true,
    endDetail_notSelected]

section
variable (ht : s.trailerOk x = true) (hsel : x.selected = true)
include ht hsel

/-- A container that is not consistent fails its stream with what the checks found (R515, R530). -/
theorem State.cfgFinish_inconsistent {reason index : Nat} (hbad : s.inconsistent x = some (reason, index)) :
    s.cfgFinish = s.streamFails reason index := by
  simp only [State.cfgFinish, hx, he, ht, hsel, hbad, Bool.not_true, Bool.false_eq_true, if_false]

/-- A consistent container is refused where what it names is taken or its BU are not free, and is activated otherwise (R530). -/
theorem State.cfgFinish_consistent (hgood : s.inconsistent x = none) :
    s.cfgFinish =
      if s.claimsTaken x then s.endRefused stTaken
      else if s.freeBu < x.wingBu + x.dirBu + s.lanesBu x.laneGroups then s.endRefused stBudget
      else
        let t := s.streamActivated x
        if t.refilled 2 then ({ t with cfg := { t.cfg with endCmd := none } }).complete id stOk 0 []
        else t.wr Reg.CFG.STAT.STREAM 5 := by
  simp only [State.cfgFinish, hx, he, ht, hsel, hgood, Bool.not_true, Bool.false_eq_true, if_false]
  rfl

end

end

/-- Settles O35, by the first check that does not hold. -/
theorem cfgEndChecksBeforeItActivates : Obligations.CfgEndChecksBeforeItActivates := by
  refine fun s x id hx he => ⟨State.cfgFinish_badTrailer hx he, State.cfgFinish_otherDevice hx he, fun ht hsel =>
    ⟨fun reason index => State.cfgFinish_inconsistent hx he ht hsel, fun hgood => ?_⟩⟩
  have hends := State.cfgFinish_consistent hx he ht hsel hgood
  refine ⟨fun htaken => ?_, fun hfree hshort => ?_, fun hfree hfits => ?_⟩
  · exact hends.trans (if_pos htaken)
  · exact hends.trans ((if_neg (Bool.not_eq_true _ ▸ hfree)).trans (if_pos hshort))
  · exact hends.trans ((if_neg (Bool.not_eq_true _ ▸ hfree)).trans (if_neg (Nat.not_lt.mpr hfits)))

end Sys2Proof.Machine
end

section
/-! Partial reconfiguration (R532-R535, R542-R544): CFG_WING, and the end of its container. -/

namespace Sys2Proof.Machine

/-! ### From a row to its meaning -/

/-- A command row whose command is accepted leaves what the command's meaning leaves of the state in which it starts. -/
theorem exec_begun {i : Instr} {dt op : Nat} {h : CmdHdr} {ws : List Word} (hi : i.asCommand = some (dt, op, h, ws))
    {s : State} {l b r : Bool} (ha : s.accepts dt h l b r = true) (k : Command) (hk : commandOf op = k)
    (hl : l = true → k.len ws = true) (hb : k.svcOnly = b) (hr : k.inRom = r) {effect : Cmd → State → State}
    (he : k.body (s.cmdOf op h ws) ((s.elapse dt).begun op h ws) =
      effect (s.cmdOf op h ws) ((s.elapse dt).begun op h ws)) :
    exec i s = .next (s.afterCmd dt op h ws effect) :=
  exec_accepted hi ha k hk hl hb hr effect fun _ _ _ _ hc hu => hc ▸ hu ▸ he

/-! ### The first free place -/

theorem firstFree_some {n i : Nat} {ok : Nat → Bool} (h : firstFree n ok = some i) : i < n ∧ ok i = true :=
  ⟨List.mem_range.mp (List.mem_of_find?_eq_some h), List.find?_some (p := ok) h⟩

/-- Fewer than `n` takers leave one of `n` places free. -/
theorem firstFree_of_length_lt {α : Type} {l : List α} {n : Nat} (place : α → Nat) (h : l.length < n) :
    ∃ i, firstFree n (fun i => !l.any fun x => place x = i) = some i := by
  refine Option.isSome_iff_exists.mp (List.find?_isSome.mpr ?_)
  by_contra hnone
  have htaken : List.range n ⊆ l.map place := by
    intro i hi
    by_contra hfree
    exact hnone ⟨i, hi, by simpa using hfree⟩
  have hle := (List.nodup_range.subperm htaken).length_le
  rw [List.length_range, List.length_map] at hle
  omega

/-! ### CFG_WING -/

/-- The wing that a CFG_WING names (R542). -/
abbrev Cmd.jobWing (c : Cmd) : Nat := c.f 0 2 0 * 64 + c.f 0 13 8

/-- The context that a CFG_WING names (R542). -/
abbrev Cmd.jobCtx (c : Cmd) : Nat := c.f 0 17 16

/-- The slot that a new job takes. -/
def State.jobSlot (s : State) : Option Nat := firstFree 8 fun i => !s.cfg.jobs.any fun j => j.slot = i

/-- The job that a CFG_WING starts (R532, R544). -/
def Cmd.jobOf (c : Cmd) (s : State) : Job :=
  { id := s.cfg.nextJob, slot := s.jobSlot.getD 0, wing := c.jobWing, ctx := c.jobCtx, act := c.f 2 31 0, psp := c.f 3 19 0,
    bu := s.jobRise c.jobWing c.jobCtx (c.f 2 31 0), gddr := c.b 0 24, stream := Stream.new (c.w 1) s.now, isolated := false,
    verified := false, loaded := false }

/-- A CFG_WING that nothing refuses (R542-R544). -/
structure JobAllowed (c : Cmd) (s : State) : Prop where
  word0 : onlyBits c.payload 0 [(2, 0), (13, 8), (17, 16), (24, 24)] = true
  word2 : onlyBits c.payload 2 [(31, 0)] = true
  word3 : onlyBits c.payload 3 [(19, 0)] = true
  promise : c.f 3 19 0 = 0 ∨ s.jobPspBad (c.f 3 19 0) = false
  aligned : c.b 0 24 = true → c.w 1 % 8 = 0
  active : s.rdb Reg.CFG.STAT.ACTIVE = true
  loaded : s.plane c.jobCtx = 2 ∨ s.plane c.jobCtx = 3
  sound : s.wingBad c.jobWing = false
  used : (s.wing c.jobCtx c.jobWing).isSome = true
  closed : s.streamOpen = false
  room : s.cfg.jobs.length < 8
  alone : ∀ j ∈ s.cfg.jobs, ¬ (j.wing = c.jobWing ∧ j.ctx = c.jobCtx)
  budget : 2 + s.jobRise c.jobWing c.jobCtx (c.f 2 31 0) ≤ s.freeBu

theorem cfgWingBody_ok {c : Cmd} (hf : c.fail = none) {s : State} (h : JobAllowed c s) :
    cfgWingBody c s =
      (let t := s.grantAlways 0x0E (2 + (c.jobOf s).bu)
      ({ t with cfg := { t.cfg with
          jobs := t.cfg.jobs ++ [c.jobOf s]
          nextJob := if s.cfg.nextJob = 65535 then 1 else s.cfg.nextJob + 1 } }).answer c stOk s.cfg.nextJob []) := by
  have hreserved : c.reserved [[(2, 0), (13, 8), (17, 16), (24, 24)], [(63, 0)], [(31, 0)], [(19, 0)]] = false :=
    Cmd.reserved_four rfl h.word0 (onlyBits_whole_word _ 1) h.word2 h.word3
  have hpromise : (c.f 3 19 0 != 0 && s.jobPspBad (c.f 3 19 0)) = false := by
    rcases h.promise with h0 | hgood
    · simp [h0]
    · simp [hgood]
  have haligned : (c.b 0 24 && c.w 1 % 8 != 0) = false := by
    cases hb : c.b 0 24
    · rfl
    · simp [h.aligned hb]
  have hplane : (s.plane c.jobCtx != 2 && s.plane c.jobCtx != 3) = false := by
    rcases h.loaded with h2 | h3
    · simp [h2]
    · simp [h3]
  have hused : (s.wing c.jobCtx c.jobWing).isNone = false := by simpa using h.used
  obtain ⟨slot, hslot⟩ := firstFree_of_length_lt Job.slot h.room
  have halone : (s.cfg.jobs.any fun j => j.wing == c.jobWing && j.ctx == c.jobCtx) = false := by
    rw [List.any_eq_false]
    intro j hj
    simpa using h.alone j hj
  have hbudget : ¬ s.freeBu < 2 + s.jobRise c.jobWing c.jobCtx (c.f 2 31 0) := Nat.not_lt.mpr h.budget
  unfold cfgWingBody
  refine (State.checked_pass s c _ _ hf ?_).trans rfl
  simp [hreserved, hpromise, haligned, hplane, hused, hslot, halone, hbudget, h.active, h.sound, h.closed]

/-! ### The end of a job's container -/

/-- A job's frames are stored and it is verified; it takes effect at a step boundary (R534). -/
def State.jobVerified (s : State) (j : Job) : State :=
  let s := s.storeFrames (j.stream.frames j.ctx)
  ({ s with cfg := { s.cfg with jobs := s.cfg.jobs.map fun (k : Job) =>
    if k.slot = j.slot then { k with verified := true } else k } }).jobNow

/-- Whether a job's container lacks the plane of its wing or the signatures of its frames (R512, R532). -/
def Job.lacksPlane (j : Job) : Bool := (j.stream.covering 1 j.ctx j.wing).isNone || (j.stream.covering 2 j.ctx j.wing).isNone

theorem Job.lacksPlane_eq_false {j : Job} (hplane : (j.stream.covering 1 j.ctx j.wing).isSome = true)
    (hsig : (j.stream.covering 2 j.ctx j.wing).isSome = true) : j.lacksPlane = false := by
  simp [Job.lacksPlane, hplane, hsig]

/-- A container of a job that has arrived whole is checked in the order of R532 and R535. -/
theorem exec_cfgWingVerified_whole {s : State} {dt job : Nat} {j : Job} (hr : s.inReset = false)
    (hj : s.cfg.jobs.find? (fun j => j.id = job) = some j) (hwhole : j.stream.whole = true)
    (hgood : j.stream.failed = none) (hnew : j.verified = false) :
    exec (.cfgWingVerified dt job) s = .next (s.after dt fun u =>
      if s.trailerOk j.stream = false then u.jobEnds j stAuth 14 false
      else if j.stream.selected = false then u.jobEnds j stOk 0 true
      else if j.lacksPlane = true then u.jobEnds j stBadParam 15 false
      else if j.stream.settleOk j.ctx = false then u.jobEnds j stBadParam 6 false
      else u.jobVerified j) := by
  have helapse : (s.elapse dt).trailerOk j.stream = s.trailerOk j.stream := rfl
  refine (show _ = execCfgWingVerified dt job s from rfl).trans (State.event_eq hr dt _ _ ?_)
  simp only [State.elapse_cfg, hj, State.whenever, hwhole, hgood, hnew, Option.isNone_none, Bool.not_false, Bool.and_self,
    if_true, helapse, Bool.not_eq_true']
  rfl

/-- Settles O36: CFG_WING by the job that it starts, the end of a container by the first check that does not hold. -/
theorem partialReconfiguration : Obligations.PartialReconfiguration := by
  refine ⟨fun s dt h ws ha => ?_, fun s dt job j hr hj hwhole hgood hnew => ?_⟩
  · intro v wing ctx psp rise hb0 hb2 hb3 hpsp haligned hactive hloaded hsound hused hclosed hroom halone hbudget
    have hcfg : v.cfg = s.cfg := State.begun_cfg _ _ _ _
    have hok : JobAllowed (s.cmdOf 0x0904 h ws) v :=
      ⟨hb0, hb2, hb3, hpsp, haligned, (State.begun_rdb _ _ _ _ (by decide)).trans hactive, hloaded, hsound, hused, hclosed,
        hcfg ▸ hroom, hcfg ▸ halone, hbudget⟩
    obtain ⟨slot, hslot⟩ : ∃ slot, v.jobSlot = some slot := firstFree_of_length_lt Job.slot hok.room
    obtain ⟨h8, hfree⟩ := firstFree_some hslot
    have hplace : ((s.cmdOf 0x0904 h ws).jobOf v).slot = slot := by simp only [Cmd.jobOf, hslot, Option.getD_some]
    have hid : ((s.cmdOf 0x0904 h ws).jobOf v).id = s.cfg.nextJob := congrArg Cfg.nextJob hcfg
    refine ⟨(s.cmdOf 0x0904 h ws).jobOf v, exec_begun rfl ha cfgWingCmd rfl exactly_of_length rfl rfl ?_, hid, rfl, rfl, rfl,
      rfl, rfl, rfl, rfl, hplace ▸ h8, fun k hk => ?_⟩
    · refine (cfgWingBody_ok rfl hok).trans ?_
      rw [hcfg]
      rfl
    · have hkv : k ∈ v.cfg.jobs := hcfg ▸ hk
      simp only [Bool.not_eq_true', List.any_eq_false, decide_eq_true_eq] at hfree
      exact hplace ▸ hfree k hkv
  · rw [exec_cfgWingVerified_whole hr hj hwhole hgood hnew]
    refine ⟨fun ht => ?_, fun ht hsel => ?_, fun ht hsel hlacks => ?_, fun ht hsel hplane hsig hset => ?_,
      fun ht hsel hplane hsig hset => ?_⟩
    · simp only [ht, if_true]
    · simp only [ht, hsel, Bool.true_eq_false, if_false, if_true]
    · have hlacks' : j.lacksPlane = true := Bool.or_eq_true_iff.mpr hlacks
      simp only [ht, hsel, hlacks', Bool.true_eq_false, if_false, if_true]
    · simp only [ht, hsel, Job.lacksPlane_eq_false hplane hsig, hset, Bool.true_eq_false, Bool.false_eq_true, if_false, if_true]
    · simp only [ht, hsel, Job.lacksPlane_eq_false hplane hsig, hset, Bool.true_eq_false, Bool.false_eq_true, if_false]
      rfl

end Sys2Proof.Machine
end

section
/-! The owner lock (R520-R524): OWNER_LOCK and OWNER_UNLOCK add to the lock ledger. -/

namespace Sys2Proof.Machine

/-- The state with an entry added to the lock ledger (R521). -/
def State.withLock (s : State) (e : LockEntry) : State := { s with cfg := { s.cfg with lock := s.cfg.lock ++ [e] } }

/-- An entry of the lock ledger that a command adds is all it changes beside the host link. -/
theorem State.addLock_hostOnly (s : State) (e : LockEntry) (c : Cmd) : HostOnly (s.withLock e) ((s.addLock e).ok c []) :=
  (State.hostOnly_post _ _ _ _ _).trans (State.hostOnly_ok _ _ _)

/-- A command that starts changes the host link only. -/
theorem State.hostOnly_begun (s : State) (op : Nat) (h : CmdHdr) (ws : List Word) : HostOnly s (s.begun op h ws) :=
  ⟨(s.begun_eq op h ws).elim fun r e => ⟨r, _, _, e⟩, fun _ ha => s.begun_stored op h ws fun hb =>
    absurd (hb ▸ ha) (by decide)⟩

theorem State.withLock_locked (s : State) (e : LockEntry) : (s.withLock e).locked = e.locked := by
  simp [State.locked, State.lockEntry, State.withLock]

/-- The last entry of the lock ledger is the one in force, whatever else changes. -/
theorem State.locked_of_cfg {s t : State} (h : t.cfg = s.cfg) : t.locked = s.locked := by
  simp only [State.locked, State.lockEntry, h]

/-- What a command that adds an entry to the lock ledger leaves of the rest (R521). -/
theorem after_addLock (s : State) (dt op : Nat) (h : CmdHdr) (ws : List Word) (e : LockEntry) :
    let t := s.afterCmd dt op h ws fun c u => (u.addLock e).ok c []
    t.cfg = { s.cfg with lock := s.cfg.lock ++ [e] } ∧ t.locked = e.locked ∧ t.fab = s.fab ∧ t.step = s.step ∧
      t.ledger = s.ledger ∧ ∀ a, a < 0x10000 ∨ 0x20000 ≤ a → t.stored a = s.stored a := by
  intro t
  have hstart := (s.elapse dt).hostOnly_begun op h ws
  have hend := ((s.elapse dt).begun op h ws).addLock_hostOnly e ((s.elapse dt).cmdOf op h ws)
  have hcfg : t.cfg = (((s.elapse dt).begun op h ws).withLock e).cfg := hend.cfg
  refine ⟨hcfg.trans ?_, (State.locked_of_cfg hcfg).trans (State.withLock_locked _ e), hend.fab.trans hstart.fab,
    hend.step.trans hstart.step, hend.ledger.trans hstart.ledger, fun a ha => (hend.stored ha).trans (hstart.stored ha)⟩
  simp only [State.withLock, hstart.cfg, State.elapse_cfg]

/-- The payload's key, and whether an OWNER_UNLOCK is signed with the key whose hash the entry in force holds (R524). -/
def State.unlockSigned (s : State) (ws : List Word) : Prop :=
  (s.lockEntry.any fun e => e.keyHash == digestWords (Config.sha384 (wordBytes (ws.take 12)))) = true ∧
    Config.ecdsaVerify (wordBytes (ws.take 12)) (Config.sha384 (unlockMessage s.cfg.lock.length)) (wordBytes (ws.drop 12)) = true

section
variable {c : Cmd} (hf : c.fail = none) {s : State} (hidle : s.loading = false) (hroom : s.cfg.lock.length < 16)
include hf hidle hroom

theorem ownerLockBody_ok (hopen : s.locked = false) (hb : onlyBits c.payload 0 [(3, 0)] = true) :
    ownerLockBody c s = (s.addLock { locked := true, policy := c.f 0 7 0, keyHash := c.payload.drop 1 }).ok c [] := by
  have hword : badBits (c.w 0) [(3, 0)] = false := (onlyBits_iff _ _ _).mp hb
  unfold ownerLockBody
  refine State.checked_pass s c _ _ hf ?_
  simp [hopen, hword, hidle, hroom]

theorem ownerUnlockBody_ok (hlocked : s.locked = true) (hsigned : s.unlockSigned c.payload) :
    ownerUnlockBody c s = (s.addLock { locked := false, policy := 0, keyHash := [] }).ok c [] := by
  obtain ⟨hkey, hverify⟩ := hsigned
  unfold ownerUnlockBody
  refine State.checked_pass s c _ _ hf ?_
  simp only [hkey, hverify, hlocked, hidle, Bool.and_self, Bool.not_true, Bool.or_self, decide_eq_false (Nat.not_le.mpr hroom),
    List.forall_mem_cons, List.not_mem_nil, IsEmpty.forall_iff, implies_true, and_self]

end

theorem State.begun_loading (s : State) (op : Nat) (h : CmdHdr) (ws : List Word) :
    (s.begun op h ws).loading = s.loading := by
  simp only [State.loading, State.streamOpen, State.begun_cfg]

theorem State.begun_locked (s : State) (op : Nat) (h : CmdHdr) (ws : List Word) : (s.begun op h ws).locked = s.locked :=
  State.locked_of_cfg (State.begun_cfg _ _ _ _)

/-- Settles O39: each command by its meaning, and what an entry added to the ledger leaves. -/
theorem ownerLockAndUnlock : Obligations.OwnerLockAndUnlock := by
  intro s dt h ws hidle hroom
  have hlock (op : Nat) : ((s.elapse dt).begun op h ws).cfg.lock = s.cfg.lock := congrArg Cfg.lock (State.begun_cfg _ _ _ _)
  have hload (op : Nat) : ((s.elapse dt).begun op h ws).loading = false := (State.begun_loading _ _ _ _).trans hidle
  refine ⟨fun ha hopen hb => ?_, fun ha hon hkey hverify => ?_⟩
  · have hbody := ownerLockBody_ok (c := s.cmdOf 0x0005 h ws) rfl (hload 0x0005) (by rwa [hlock])
      ((State.begun_locked _ _ _ _).trans hopen) hb
    exact ⟨_, exec_begun rfl ha ownerLockCmd rfl exactly_of_length rfl rfl
      (effect := fun c u => (u.addLock _).ok c []) hbody, after_addLock s dt _ h ws _⟩
  · have hsigned : ((s.elapse dt).begun 0x0006 h ws).unlockSigned ws := by
      simp only [State.unlockSigned, State.lockEntry, hlock]
      exact ⟨hkey, hverify⟩
    have hbody := ownerUnlockBody_ok (c := s.cmdOf 0x0006 h ws) rfl (hload 0x0006) (by rwa [hlock])
      ((State.begun_locked _ _ _ _).trans hon) hsigned
    exact ⟨_, exec_begun rfl ha ownerUnlockCmd rfl exactly_of_length rfl rfl
      (effect := fun c u => (u.addLock _).ok c []) hbody, after_addLock s dt _ h ws _⟩

end Sys2Proof.Machine
end

section
/-! The scanner, the mirror of planes and repairs from it (R536, R537, R539, R542). -/

namespace Sys2Proof.Machine

/-! ### The scanner -/

/-- The stored frames that the scanner has still to read in this pass (R536). -/
def State.unscanned (s : State) : Cells Frame := s.cfg.planes.filter fun kv => decide (s.cfg.scanAt ≤ kv.1) && s.scanned kv.1

theorem State.elapse_unscanned (s : State) (dt : Nat) : (s.elapse dt).unscanned = s.unscanned := rfl

/-- A frame read by the scanner: one that fails its signature is reported (R536). -/
def State.frameScanned (s : State) (key : Nat) (f : Frame) : State :=
  if f.bad = true then s.sigMismatch (key / 1024 % 512) (key % 1024) (key / 1024 / 512) true else s

/-- A pass of the scanner that ends with its last frame is counted, and the next one begins (R536). -/
def State.passEnds (s : State) : State :=
  let s := (s.count Reg.CFG.SCAN.PASSES 1).wr Reg.CFG.SCAN.LASTPASS (min ((s.now - s.cfg.scanBegan) / fsUs) (2 ^ 24 - 1))
  { s with cfg := { s.cfg with scanAt := 0, scanBegan := s.now } }

section
variable {s : State} (hr : s.inReset = false) (hon : s.rdb Reg.CFG.SCAN.ENABLED = true) (dt : Nat)
include hr hon

theorem exec_scanFrame_none (hleft : s.unscanned = []) :
    exec (.scanFrame dt) s = .next (s.after dt fun u => { u with cfg := { u.cfg with scanAt := 0, scanBegan := u.now } }) := by
  refine (show _ = execScanFrame dt s from rfl).trans (State.event_eq hr dt _ _ ?_)
  change (match (s.elapse dt).unscanned with | [] => _ | kv :: rest => _) = _
  rw [State.elapse_unscanned, hleft]
  exact State.whenever_true _ _ _ hon

theorem exec_scanFrame_reads {key : Nat} {f : Frame} {rest : Cells Frame} (hleft : s.unscanned = (key, f) :: rest)
    (hp : s.power = 0) (hidle : s.fab.refills = []) :
    exec (.scanFrame dt) s = .next (s.after dt fun u =>
      let v := u.frameScanned key f
      if rest.isEmpty then v.passEnds else { v with cfg := { v.cfg with scanAt := key + 1 } }) := by
  have hgoes : ((s.elapse dt).rdb Reg.CFG.SCAN.ENABLED && (s.elapse dt).power == 0 && (s.elapse dt).fab.refills.isEmpty) =
      true := by
    rw [State.elapse_rdb, State.elapse_power, State.elapse_fab, hon, hp, hidle]
    rfl
  refine (show _ = execScanFrame dt s from rfl).trans (State.event_eq hr dt _ _ ?_)
  change (match (s.elapse dt).unscanned with | [] => _ | kv :: rest => _) = _
  rw [State.elapse_unscanned, hleft]
  exact (State.whenever_true _ _ _ hgoes).trans rfl

end

/-! ### The mirror -/

theorem exec_mirrorRepair_waiting {s : State} (hr : s.inReset = false) (dt : Nat) {wing room ctx : Nat} (ok : Bool)
    {r : Nat × Bool} (hfind : s.cfg.toRepair.find? (fun r => r.1 = frameKey ctx wing room) = some r) :
    exec (.mirrorRepair dt wing room ctx ok) s = .next (s.after dt fun u => u.repairFrame r.1 r.2 ok) := by
  refine (show _ = execMirrorRepair dt wing room ctx ok s from rfl).trans (State.event_eq hr dt _ _ ?_)
  simp only [State.elapse_cfg, hfind]

/-- What a repair reads of the mirror, with the frame off the list of those that wait (R537). -/
def State.mirrorReads (s : State) (key : Nat) (scan ok : Bool) : State × Option Frame :=
  ({ s with cfg := { s.cfg with toRepair := s.cfg.toRepair.erase (key, scan) } }).mirrorGet key
    (if ok then .clean 0 else .linkError true)

/-- A frame is repaired from a copy that the mirror gives and that is sound, and else reported unrepaired (R537). -/
def State.repairWith (s : State) (key : Nat) (scan : Bool) : Option Frame → State
  | some f =>
    if f.bad = true then s.sigOutcome key scan 2
    else ({ s with cfg := { s.cfg with
      planes := s.cfg.planes.upd Frame.none key f, repairs := s.cfg.repairs ++ [(key, s.now)] } }).sigOutcome key scan 1
  | none => s.sigOutcome key scan 2

section
variable {s : State} {key : Nat} {scan ok : Bool}

/-- A repair acts on what it reads of the mirror.  The definition is opened as a function: the kernel, asked whether the repair of a
frame is its body, would run the reads to see which case is taken. -/
theorem State.repairFrame_eq {copy : Option Frame} (hcopy : (s.mirrorReads key scan ok).2 = copy) :
    s.repairFrame key scan ok = (s.mirrorReads key scan ok).1.repairWith key scan copy := by
  unfold State.mirrorReads at hcopy ⊢
  generalize hrepair : @State.repairFrame = repair
  delta State.repairFrame at hrepair
  subst hrepair
  cases copy with
  | none => simp only [hcopy, State.repairWith]
  | some f => simp only [hcopy, State.repairWith]

end

/-- The end of the copy for the MIRROR_ON of an identity (R539). -/
theorem exec_mirrorCopyComplete_asked {s : State} (hr : s.inReset = false) (dt : Nat) {id : Nat}
    (hcmd : s.cfg.mirrorCmd = some id) :
    exec (.mirrorCopyComplete dt) s = .next (s.after dt fun u =>
      let v := { u with cfg := { u.cfg with mirrorCmd := none } }
      let v := (u.cfg.planes.filter fun kv => u.loadedCtx (kv.1 / 1024 / 512) && !kv.2.bad).foldl
        (fun (w : State) (kv : Nat × Frame) => w.mirrorPut kv.1 kv.2) v
      ((v.wr Reg.CFG.MIRROR.COPYING 0).wr Reg.CFG.MIRROR.ENABLED 1).complete id stOk 0 []) := by
  refine (show _ = execMirrorCopyComplete dt s from rfl).trans (State.event_eq hr dt _ _ ?_)
  simp only [State.elapse_cfg, hcmd]
  rfl

/-! ### SIG_STATUS -/

section
variable {c : Cmd} (hf : c.fail = none) {u : State} (hb : onlyBits c.payload 0 [(1, 0), (8, 8)] = true)
include hf hb

/-- MIRROR_ON takes the mirror's region and begins the copy (R539). -/
theorem sigStatusBody_mirrorOn (hop : c.f 0 1 0 = 1) (haligned : c.w 1 % 4096 = 0) (hfits : mirrorSize ≤ u.g6Cap)
    (hoff : u.rdb Reg.CFG.MIRROR.ENABLED = false) (hcopy : u.rdb Reg.CFG.MIRROR.COPYING = false)
    (halloc : u.allocRefusal (c.w 1) mirrorSize = none) : sigStatusBody c u = u.mirrorOn c (c.w 1) := by
  have hw : badBits (c.w 0) [(1, 0), (8, 8)] = false := (onlyBits_iff _ _ _).mp hb
  unfold sigStatusBody
  refine (State.checked_pass u c _ _ hf ?_).trans ?_
  · simp [hop, haligned, hfits, hoff, hcopy, halloc, hw]
  · simp only [hop]

/-- MIRROR_OFF ends the mirror (R539, R540). -/
theorem sigStatusBody_mirrorOff (hop : c.f 0 1 0 = 2) (hbase : c.w 1 = 0) : sigStatusBody c u = u.mirrorOff.ok c [] := by
  have hw : badBits (c.w 0) [(1, 0), (8, 8)] = false := (onlyBits_iff _ _ _).mp hb
  unfold sigStatusBody
  refine (State.checked_pass u c _ _ hf ?_).trans ?_
  · simp [hop, hbase, hw]
  · simp only [hop]

/-- SCAN starts the scanner, with 4 BU where it was off, or stops it (R536, R572). -/
theorem sigStatusBody_scan (hop : c.f 0 1 0 = 3) (hbase : c.w 1 = 0)
    (hroom : c.b 0 8 = true → u.rdb Reg.CFG.SCAN.ENABLED = false → 4 ≤ u.freeBu) :
    sigStatusBody c u =
      (let t := if c.b 0 8 = true ∧ u.rdb Reg.CFG.SCAN.ENABLED = false then u.grantAlways 0x06 4
        else if c.b 0 8 = false ∧ u.rdb Reg.CFG.SCAN.ENABLED = true then u.ungrant 0x06 4 else u
      (({ t with cfg := { t.cfg with scanAt := 0, scanBegan := t.now } }).wrb Reg.CFG.SCAN.ENABLED (c.b 0 8)).ok c []) := by
  have hw : badBits (c.w 0) [(1, 0), (8, 8)] = false := (onlyBits_iff _ _ _).mp hb
  have hbudget : (c.b 0 8 && !u.rdb Reg.CFG.SCAN.ENABLED && decide (u.freeBu < 4)) = false := by
    cases hon : c.b 0 8
    · rfl
    · cases hen : u.rdb Reg.CFG.SCAN.ENABLED
      · simpa using hroom hon hen
      · rfl
  unfold sigStatusBody
  refine (State.checked_pass u c _ _ hf ?_).trans ?_
  · simpa [hop, hbase, hw] using hbudget
  · simp only [hop]
    cases c.b 0 8 <;> cases u.rdb Reg.CFG.SCAN.ENABLED <;> rfl

end

/-- Settles O41: the scanner by what it has left to read, the mirror's events by what waits, SIG_STATUS by its OP. -/
theorem scannerAndMirror : Obligations.ScannerAndMirror := by
  refine ⟨fun s dt hr hon => ⟨exec_scanFrame_none hr hon dt, fun key f rest hleft hp hidle => ?_⟩,
    fun s dt wing room ctx ok r hr hfind => ?_,
    fun s dt id hr hcmd => exec_mirrorCopyComplete_asked hr dt hcmd, fun s dt h ws => ?_⟩
  · have hreads := exec_scanFrame_reads hr hon dt hleft hp hidle
    refine ⟨fun hmore => ?_, fun hlast => ?_⟩
    · exact hreads.trans (congrArg _ (State.after_congr (if_neg (by simpa using hmore))))
    · exact hreads.trans (congrArg _ (State.after_congr (if_pos (by simpa using hlast))))
  · obtain ⟨key, scan⟩ := r
    refine (exec_mirrorRepair_waiting hr dt ok hfind).trans (congrArg _ (State.after_congr ?_))
    cases hcopy : ((s.elapse dt).mirrorReads key scan ok).2 with
    | none =>
      rw [State.repairFrame_eq hcopy]
      unfold State.mirrorReads at hcopy ⊢
      simp only [hcopy, State.repairWith]
    | some f =>
      rw [State.repairFrame_eq hcopy]
      unfold State.mirrorReads at hcopy ⊢
      simp only [hcopy, State.repairWith]
  · intro v op base on ha hb
    refine ⟨fun hop haligned hfits hoff hcopy halloc => ?_, fun hop hbase => ?_, fun hop hbase hroom => ?_⟩
    · exact exec_begun rfl ha sigStatusCmd rfl id rfl rfl
        (sigStatusBody_mirrorOn rfl hb hop haligned hfits hoff hcopy halloc)
    · exact exec_begun rfl ha sigStatusCmd rfl id rfl rfl (sigStatusBody_mirrorOff rfl hb hop hbase)
    · exact exec_begun rfl ha sigStatusCmd rfl id rfl rfl (sigStatusBody_scan rfl hb hop hbase hroom)

end Sys2Proof.Machine
end

section
/-! Clocks (R547-R559, R582): CLK_SETUP, CLK_SWITCH and CLK_MEASURE where nothing refuses them, and the events of clocks. -/

namespace Sys2Proof.Machine

/-! ### CLK_SETUP -/

/-- Whether a CLK_SETUP puts a spread on REFCLK_SYS or on an output that carries SYSREF (R378, R550, R551). -/
def Cmd.spreads (c : Cmd) : Prop := c.f 0 3 0 = 0 ∨ 4 ≤ c.f 0 3 0 ∧ c.f 0 3 0 ≤ 7 ∧ c.b 0 32 = true

/-- The frequencies that a CLK_SETUP gives the outputs of a loop (R548). -/
def Cmd.loopFreqs (c : Cmd) : List Nat := (List.range 4).map fun i => c.w (1 + i)

/-- A CLK_SETUP that nothing refuses (R378, R548-R551, R580, R582). -/
structure ClockAllowed (c : Cmd) (u : State) : Prop where
  good : u.clkSetupBad c = false
  halted : c.f 0 3 0 = 0 → u.engine ≠ seRunning
  spread : c.spreads → spreadOk (c.f 0 20 16) (c.f 0 30 24) = true ∨ u.groups = []
  unselected : 1 ≤ c.f 0 3 0 → c.f 0 3 0 ≤ 3 → u.loopSelected (8 + c.f 0 3 0) = false
  room : 1 ≤ c.f 0 3 0 → c.f 0 3 0 ≤ 3 →
    u.loopOn (8 + c.f 0 3 0) = true ∨ (∀ f ∈ c.loopFreqs, f = 0) ∨ 1 ≤ u.freeBu
  unused : c.f 0 3 0 = 8 → ∀ d < 2, u.domState d = dsOff ∨ u.domPath d ≠ 1

/-- What a CLK_SETUP sets (R548-R551). -/
def State.clockSet (u : State) (c : Cmd) : State :=
  if c.f 0 3 0 = 0 then u.setSpread (c.f 0 20 16) (c.f 0 30 24)
  else if 1 ≤ c.f 0 3 0 ∧ c.f 0 3 0 ≤ 3 then u.setLoop (8 + c.f 0 3 0) (c.f 0 9 8) c.loopFreqs
  else if c.f 0 3 0 = 8 then u.setAux (c.f 1 1 0)
  else u.setOut (c.f 0 3 0 - 4) (c.f 0 20 16) (c.f 0 30 24) (c.b 0 32)

theorem clkSetupBody_ok {c : Cmd} (hf : c.fail = none) {u : State} (h : ClockAllowed c u) :
    clkSetupBody c u = (u.clockSet c).ok c [] := by
  have hstep : (c.f 0 3 0 == 0 && u.engine == seRunning) = false := by
    simpa using h.halted
  have hspread : ((c.f 0 3 0 == 0 || (decide (4 ≤ c.f 0 3 0) && decide (c.f 0 3 0 ≤ 7) && c.b 0 32)) &&
      !spreadOk (c.f 0 20 16) (c.f 0 30 24) && !u.groups.isEmpty) = false := by
    rw [Bool.and_eq_false_iff, Bool.and_eq_false_iff]
    by_cases hs : c.spreads
    · rcases h.spread hs with hok | hnone
      · simp [hok]
      · simp [hnone]
    · refine .inl (.inl (Bool.eq_false_iff.mpr fun ht => hs ?_))
      simpa [Cmd.spreads, and_assoc] using ht
  have hloop : (decide (1 ≤ c.f 0 3 0) && decide (c.f 0 3 0 ≤ 3) && u.loopSelected (8 + c.f 0 3 0)) = false := by
    by_cases hl : 1 ≤ c.f 0 3 0 ∧ c.f 0 3 0 ≤ 3
    · rw [h.unselected hl.1 hl.2, Bool.and_false]
    · rw [← Bool.decide_and, decide_eq_false hl, Bool.false_and]
  have haux : (c.f 0 3 0 == 8 && [0, 1].any fun d => u.domState d != dsOff && u.domPath d == 1) = false := by
    by_cases h8 : c.f 0 3 0 = 8
    · refine Bool.and_eq_false_iff.mpr (.inr (List.any_eq_false.mpr fun d hd => ?_))
      have hd2 : d < 2 := by
        simp only [List.mem_cons, List.not_mem_nil, or_false] at hd
        omega
      rcases h.unused h8 d hd2 with hoff | hpath
      · simp [hoff]
      · simp [hpath]
    · simp [h8]
  have hroom : (decide (1 ≤ c.f 0 3 0) && decide (c.f 0 3 0 ≤ 3) && !u.loopOn (8 + c.f 0 3 0) && c.loopFreqs.any (· != 0) &&
      decide (u.freeBu < 1)) = false := by
    by_cases hl : 1 ≤ c.f 0 3 0 ∧ c.f 0 3 0 ≤ 3
    · rcases h.room hl.1 hl.2 with hon | hoff | hfree
      · simp [hon]
      · have hany : (c.loopFreqs.any (· != 0)) = false := by simpa using hoff
        simp [hany]
      · rw [decide_eq_false (Nat.not_lt.mpr hfree), Bool.and_false]
    · rw [← Bool.decide_and, decide_eq_false hl]
      rfl
  unfold clkSetupBody
  refine (State.checked_pass u c _ _ hf ?_).trans ?_
  · simp only [h.good, hstep, hspread, hloop, haux, Bool.or_self, List.forall_mem_cons, true_and, List.not_mem_nil,
      IsEmpty.forall_iff, implies_true, and_true]
    exact hroom
  · simp only [State.clockSet, Bool.and_eq_true, decide_eq_true_eq]
    rfl

section
variable {c : Cmd} {u : State} (hgood : u.clkSetupBad c = false)
include hgood

theorem ClockAllowed.of_sys (hitem : c.f 0 3 0 = 0) (hrun : u.engine ≠ seRunning)
    (hspread : spreadOk (c.f 0 20 16) (c.f 0 30 24) = true ∨ u.groups = []) : ClockAllowed c u :=
  ⟨hgood, fun _ => hrun, fun _ => hspread, by omega, by omega, by omega⟩

theorem ClockAllowed.of_loop (h1 : 1 ≤ c.f 0 3 0) (h3 : c.f 0 3 0 ≤ 3) (hsel : u.loopSelected (8 + c.f 0 3 0) = false)
    (hroom : u.loopOn (8 + c.f 0 3 0) = true ∨ (∀ f ∈ c.loopFreqs, f = 0) ∨ 1 ≤ u.freeBu) : ClockAllowed c u :=
  ⟨hgood, by omega, fun hs => hs.elim (by omega) (by omega), fun _ _ => hsel, fun _ _ => hroom, by omega⟩

theorem ClockAllowed.of_out (h4 : 4 ≤ c.f 0 3 0) (h7 : c.f 0 3 0 ≤ 7)
    (hspread : c.b 0 32 = false ∨ spreadOk (c.f 0 20 16) (c.f 0 30 24) = true ∨ u.groups = []) : ClockAllowed c u :=
  ⟨hgood, by omega, fun hs => hspread.resolve_left fun hoff => hs.elim (by omega) fun ⟨_, _, hon⟩ =>
    Bool.false_ne_true (hoff.symm.trans hon), by omega, by omega, by omega⟩

theorem ClockAllowed.of_aux (hitem : c.f 0 3 0 = 8) (haux : ∀ d < 2, u.domState d = dsOff ∨ u.domPath d ≠ 1) :
    ClockAllowed c u :=
  ⟨hgood, by omega, fun hs => hs.elim (by omega) (by omega), by omega, by omega, fun _ => haux⟩

end

theorem State.clockSet_sys (u : State) {c : Cmd} (hitem : c.f 0 3 0 = 0) :
    u.clockSet c = u.setSpread (c.f 0 20 16) (c.f 0 30 24) := if_pos hitem

theorem State.clockSet_loop (u : State) {c : Cmd} (h1 : 1 ≤ c.f 0 3 0) (h3 : c.f 0 3 0 ≤ 3) :
    u.clockSet c = u.setLoop (8 + c.f 0 3 0) (c.f 0 9 8) c.loopFreqs :=
  (if_neg (by omega)).trans (if_pos ⟨h1, h3⟩)

theorem State.clockSet_aux (u : State) {c : Cmd} (hitem : c.f 0 3 0 = 8) : u.clockSet c = u.setAux (c.f 1 1 0) :=
  (if_neg (by omega)).trans ((if_neg (by omega)).trans (if_pos hitem))

theorem State.clockSet_out (u : State) {c : Cmd} (h4 : 4 ≤ c.f 0 3 0) (h7 : c.f 0 3 0 ≤ 7) :
    u.clockSet c = u.setOut (c.f 0 3 0 - 4) (c.f 0 20 16) (c.f 0 30 24) (c.b 0 32) :=
  (if_neg (by omega)).trans ((if_neg (by omega)).trans (if_neg (by omega)))

section
variable {s : State} {dt : Nat} {h : CmdHdr} {ws : List Word} (ha : s.accepts dt h (clkSetupLen ws) false false = true)
include ha

/-- An accepted CLK_SETUP that nothing refuses sets what its ITEM names. -/
theorem exec_clkSetup_allowed (hok : ClockAllowed (s.cmdOf 0x0A01 h ws) ((s.elapse dt).begun 0x0A01 h ws))
    {effect : State → State} (he : ∀ u, u.clockSet (s.cmdOf 0x0A01 h ws) = effect u) :
    exec (.clkSetup dt h ws) s = .next (s.afterCmd dt 0x0A01 h ws fun c u => (effect u).ok c []) :=
  exec_begun rfl ha clkSetupCmd rfl id rfl rfl ((clkSetupBody_ok rfl hok).trans (congrArg (State.ok · _ _) (he _)))

end

/-! ### CLK_SWITCH and CLK_MEASURE -/

theorem State.begun_clk (s : State) (op : Nat) (h : CmdHdr) (ws : List Word) : (s.begun op h ws).clk = s.clk := by
  unfold State.begun; split <;> rfl

theorem clkSwitchBody_ok {c : Cmd} (hf : c.fail = none) {u : State} (hb : onlyBits c.payload 0 [(3, 0), (5, 4), (8, 8)] = true)
    (hd : c.f 0 3 0 ≤ 11) (hlisted : srcListed (c.f 0 3 0) (c.f 0 5 4) = true)
    (hready : u.srcReady (c.f 0 3 0) (c.f 0 5 4) = true)
    (hruns : c.b 0 8 = false → u.srcRuns (c.f 0 3 0) (u.rd (Reg.CLK.DOM.SRC (c.f 0 3 0))) = true ∧
      u.rdb (Reg.CLK.DOM.PENDING (c.f 0 3 0)) = false) :
    clkSwitchBody c u =
      if c.b 0 8 = true ∧ c.f 0 3 0 < 8 then (u.setPending (c.f 0 3 0) (c.f 0 5 4) c.id (c.b 0 8)).emptyFifos (c.f 0 3 0)
      else u.setPending (c.f 0 3 0) (c.f 0 5 4) c.id (c.b 0 8) := by
  unfold clkSwitchBody
  refine (State.checked_pass u c _ _ hf ?_).trans rfl
  cases hreset : c.b 0 8
  · obtain ⟨hsrc, hpending⟩ := hruns hreset
    simp [Cmd.reserved_one rfl hb, hd, hlisted, hready, hsrc, hpending]
  · simp [Cmd.reserved_one rfl hb, hd, hlisted, hready]

theorem clkMeasureBody_ok {c : Cmd} (hf : c.fail = none) {u : State} (hb : onlyBits c.payload 0 [(5, 0), (25, 16)] = true)
    (hclock : c.f 0 5 0 ≤ 36) (hleast : 1 ≤ c.f 0 25 16) (hmost : c.f 0 25 16 ≤ 1000) (hroom : u.clk.measures.length < 4) :
    clkMeasureBody c u =
      { u with clk := { u.clk with measures := u.clk.measures ++
        [Measuring.mk c.id (c.f 0 5 0) (c.f 0 25 16) u.now false] } } := by
  unfold clkMeasureBody
  refine State.checked_pass u c _ _ hf ?_
  have hgate : (c.f 0 25 16 == 0) = false := by simpa using Nat.ne_of_gt hleast
  simp [Cmd.reserved_one rfl hb, hclock, hgate, hmost, hroom]

/-! ### The events -/

section
variable {s : State} {dt : Nat} (hr : s.inReset = false)
include hr

/-- A reply to the command that asked for a switch, where one did (R556). -/
def State.endsFor (s : State) (cmd : Option Nat) (status : Nat) : State :=
  match cmd with
  | some id => s.complete id status 0 []
  | none => s

section
variable {d since : Nat} {cmd : Option Nat} {reset : Bool}
  (hpend : s.clk.pend.find? (fun p => p.1 = d) = some (d, since, cmd, reset))
include hpend

/-- A pending switch completes where both clocks run; a reset needs the new one only (R556, R558). -/
theorem exec_muxSwitchComplete_runs {src : Nat} (htarget : s.rd (Reg.CLK.DOM.TARGET d) = src) (hnew : s.srcRuns d src = true)
    (hold : reset = true ∨ s.srcRuns d (s.rd (Reg.CLK.DOM.SRC d)) = true) :
    exec (.muxSwitchComplete dt d) s = .next (s.after dt fun u => (u.domSwitched d src reset).endsFor cmd stOk) := by
  refine (show _ = execMuxSwitchComplete dt d s from rfl).trans (State.event_eq hr dt _ _ ?_)
  have hruns : ((s.elapse dt).srcRuns d src && (reset || (s.elapse dt).srcRuns d (s.rd (Reg.CLK.DOM.SRC d)))) = true :=
    Bool.and_eq_true_iff.mpr ⟨hnew, Bool.or_eq_true_iff.mpr hold⟩
  simp only [State.elapse_clk, hpend, State.elapse_rd, htarget]
  exact State.whenever_true _ _ _ hruns

/-- A switch that has waited for 1 ms is stuck; its command ends as timed out and it stays pending (R557). -/
theorem exec_muxPendingTimeout_late (hreset : reset = false) (hnew : s.rdb (Reg.CLK.DOM.STUCK d) = false)
    (hlate : since + fsMs ≤ s.now + dt) :
    exec (.muxPendingTimeout dt d) s = .next (s.after dt fun u =>
      let pend := u.clk.pend.map fun (p : Nat × Nat × Option Nat × Bool) => if p.1 = d then (d, since, none, false) else p
      let t := { u with clk := { u.clk with pend := pend } }
      ((t.wr (Reg.CLK.DOM.STUCK d) 1).post 0x0A03 sevError srcDevice d).endsFor cmd stTimeout) := by
  refine (show _ = execMuxPendingTimeout dt d s from rfl).trans (State.event_eq hr dt _ _ ?_)
  simp only [State.elapse_clk, hpend]
  exact State.whenever_true _ _ _ (by simp [hreset, hnew, hlate])

end

theorem exec_clkMeasureGateEnd_due {clock edges : Nat} {m : Measuring}
    (hm : s.clk.measures.find? (fun m => m.clock = clock ∧ m.began + m.gate * fsMs ≤ s.now + dt) = some m) :
    exec (.clkMeasureGateEnd dt clock edges) s = .next (s.after dt fun u =>
      ({ u with clk := { u.clk with measures := u.clk.measures.erase m } }).complete m.cmd stOk (b2n m.relocked)
        [toWord edges, toWord (m.gate * 500000)]) := by
  refine (show _ = execClkMeasureGateEnd dt clock edges s from rfl).trans (State.event_eq hr dt _ _ ?_)
  have hfound : (s.elapse dt).clk.measures.find?
      (fun m => m.clock = clock ∧ m.began + m.gate * fsMs ≤ (s.elapse dt).now) = some m := hm
  simp only [hfound]

/-- A measurement of a series whose period has passed runs, and starts the next one. -/
theorem State.event_periodic {series period : Nat} (hdue : s.clk.sampledAt.at 0 series + period ≤ s.now + dt)
    (effect : State → State) :
    s.event dt (fun u => u.periodic series period effect) = .next (s.after dt fun u => effect (u.sampledNow series)) :=
  State.event_eq hr dt _ _ (State.whenever_true _ _ _ (decide_eq_true hdue))

end

/-- A counter shows what its clock counted, and a reference input or pin clock that shows edges again is present (R552, R559). -/
def State.clockCounted (s : State) (x : Nat × Nat) : State :=
  let t := (s.wr (Reg.CLK.FREQ.KHZ x.1) (min x.2 (2 ^ 32 - 1))).wrb (Reg.CLK.FREQ.PRESENT x.1) (x.2 != 0)
  if x.2 = 0 then t
  else if x.1 < 5 then
    if x.1 = 1 ∧ bit (t.rd Reg.CLK.STAT.REFOK) 1 = false then (t.wrBit Reg.CLK.STAT.REFOK x.1 true).linkTrain
    else t.wrBit Reg.CLK.STAT.REFOK x.1 true
  else if 29 ≤ x.1 then t.wrBit Reg.CLK.STAT.GCLKOK (x.1 - 29) true
  else t

theorem exec_frequencyCountInterval_due {s : State} {dt : Nat} (hr : s.inReset = false) (counts : List (Nat × Nat))
    (hdue : s.clk.sampledAt.at 0 1 + fsMs ≤ s.now + dt) :
    exec (.frequencyCountInterval dt counts) s = .next (s.after dt fun u =>
      (counts.filter fun x => decide (x.1 < 37)).foldl State.clockCounted (u.sampledNow 1)) := by
  refine (show _ = execFrequencyCountInterval dt counts s from rfl).trans ((State.event_periodic hr hdue _).trans ?_)
  refine congrArg _ (State.after_congr (List.foldl_ext _ _ _ fun t x _ => ?_))
  obtain ⟨clock, khz⟩ := x
  by_cases hzero : khz = 0
  · simp [State.clockCounted, hzero]
  · by_cases hclock : clock = 1
    · simp [State.clockCounted, hzero, hclock]
    · simp [State.clockCounted, hzero, hclock]

section
variable {s : State} {dt : Nat} (hr : s.inReset = false)
include hr

/-- A clock that was present is lost (R552-R554). -/
theorem exec_referenceLoss_present {clock : Nat}
    (hpresent : (clock < 5 ∧ bit (s.rd Reg.CLK.STAT.REFOK) clock = true) ∨
      (5 ≤ clock ∧ clock < 17 ∧ s.loopOn (clock - 5) = true ∧ s.coastsTruly (clock - 5) = false) ∨
      (29 ≤ clock ∧ clock < 37 ∧ bit (s.rd Reg.CLK.STAT.GCLKOK) (clock - 29) = true)) :
    exec (.referenceLoss dt clock) s = .next (s.after dt fun u => u.clockLost clock) := by
  refine (show _ = execReferenceLoss dt clock s from rfl).trans (State.event_eq hr dt _ _ (State.whenever_true _ _ _ ?_))
  have hon : (s.elapse dt).loopOn (clock - 5) = s.loopOn (clock - 5) := rfl
  have hcoasts : (s.elapse dt).coastsTruly (clock - 5) = s.coastsTruly (clock - 5) := rfl
  rw [State.elapse_rd, State.elapse_rd, hon, hcoasts]
  rcases hpresent with ⟨h5, href⟩ | ⟨h5, h17, hloop, htrue⟩ | ⟨h29, h37, hpin⟩
  · rw [if_pos h5, href]
  · rw [if_neg (Nat.not_lt.mpr h5), if_pos h17, hloop, htrue]
    rfl
  · rw [if_neg (by omega), if_neg (by omega), hpin, decide_eq_true h29, decide_eq_true h37]
    rfl

section
variable {l : Nat} (h12 : l < 12) (hon : s.loopOn l = true)
include h12 hon

/-- A loop that is on locks, where it coasts or was set up (R553, R554, R580). -/
theorem exec_loopRelock_on :
    exec (.loopRelock dt (l + 5)) s = .next (s.after dt fun u =>
      if u.coastsTruly l then
        let t := (u.wrBit Reg.CLK.STAT.REFOK (u.loopRef l) true).loopBack l
        { t with clk := { t.clk with measures := t.clk.measures.map fun (m : Measuring) =>
          if m.clock = l + 5 then { m with relocked := true } else m } }
      else if !bit (u.rd Reg.CLK.STAT.LOCKED) l && bit (u.rd Reg.CLK.STAT.REFOK) (u.loopRef l) then
        u.wrBit Reg.CLK.STAT.LOCKED l true
      else u) := by
  have hrange : (decide (5 ≤ l + 5) && decide (l + 5 < 17) && (s.elapse dt).loopOn (l + 5 - 5)) = true := by
    rw [decide_eq_true (by omega), decide_eq_true (by omega), Nat.add_sub_cancel]
    exact hon
  refine (show _ = execLoopRelock dt (l + 5) s from rfl).trans (State.event_eq hr dt _ _ ?_)
  refine (State.whenever_true _ _ _ hrange).trans ?_
  rw [Nat.add_sub_cancel]

end

end

/-- Settles O55: the commands by what each sets, the events by the condition of each. -/
theorem clocksSwitchAndMeasure : Obligations.ClocksSwitchAndMeasure := by
  refine ⟨fun s dt h ws => ?_, fun s dt h ws => ?_, fun s dt d since cmd reset hr hpend => ?_, fun s dt h ws => ?_,
    fun s dt clock edges m hr hm => exec_clkMeasureGateEnd_due hr hm,
    fun s dt counts hr hdue => exec_frequencyCountInterval_due hr counts hdue,
    fun s dt clock hr hpresent => exec_referenceLoss_present hr hpresent, fun s dt l hr h12 hon => ?_, fun s dt hr hoff => ?_⟩
  · intro v item depth rate sysref freqs ha hgood
    refine ⟨fun h0 hrun hspread => ?_, fun h1 h3 hsel hroom => ?_, fun h4 h7 hspread => ?_, fun h8 haux => ?_⟩
    · exact exec_clkSetup_allowed ha (.of_sys hgood h0 hrun hspread) fun u => u.clockSet_sys h0
    · exact exec_clkSetup_allowed ha (.of_loop hgood h1 h3 hsel hroom) fun u => u.clockSet_loop h1 h3
    · exact exec_clkSetup_allowed ha (.of_out hgood h4 h7 hspread) fun u => u.clockSet_out h4 h7
    · exact exec_clkSetup_allowed ha (.of_aux hgood h8 haux) fun u => u.clockSet_aux h8
  · intro v d src reset ha hb hd hlisted hready hruns
    exact exec_begun rfl ha clkSwitchCmd rfl exactly_of_length rfl rfl (clkSwitchBody_ok rfl hb hd hlisted hready hruns)
  · refine ⟨fun src htarget hnew hold => ?_, fun hreset hnew hlate => ?_⟩
    · exact (exec_muxSwitchComplete_runs hr hpend htarget hnew hold).trans (congrArg _ (State.after_congr (by cases cmd <;> rfl)))
    · exact (exec_muxPendingTimeout_late hr hpend hreset hnew hlate).trans
        (congrArg _ (State.after_congr (by cases cmd <;> rfl)))
  · intro clock gate ha hb hclock hleast hmost hroom
    have hmeasures : ((s.elapse dt).begun 0x0A03 h ws).clk.measures.length < 4 := by rwa [State.begun_clk]
    exact exec_begun rfl ha clkMeasureCmd rfl exactly_of_length rfl rfl
      (clkMeasureBody_ok rfl hb hclock hleast hmost hmeasures)
  · have hlocks := exec_loopRelock_on hr h12 hon (dt := dt)
    refine ⟨fun htrue => ?_, fun hnot hunlocked href => ?_⟩
    · exact hlocks.trans (congrArg _ (State.after_congr (if_pos htrue)))
    · refine hlocks.trans (congrArg _ (State.after_congr ((if_neg (Bool.not_eq_true _ ▸ hnot)).trans (if_pos ?_))))
      exact Bool.and_eq_true_iff.mpr ⟨Bool.not_eq_true' _ ▸ hunlocked, href⟩
  · exact (show _ = execRefclkAuxPresent dt s from rfl).trans
      (State.event_whenever hr dt _ _ (Bool.not_eq_true' _ ▸ hoff))

end Sys2Proof.Machine
end

section
/-! Power states (R560-R568, R582): PWR_STATE where nothing refuses it, the end of a change, wake sources, and the patrol sampler. -/

namespace Sys2Proof.Machine

/-! ### PWR_STATE -/

/-- The state that a PWR_STATE asks for (R582). -/
abbrev Cmd.powerAsked (c : Cmd) : Nat := c.f 0 2 0

/-- Whether a PWR_STATE asks for the state in which the device is (R562). -/
def Cmd.powerHere (c : Cmd) (u : State) : Bool := c.powerAsked == u.power && u.pwr.target.isNone

/-- Whether a PWR_STATE joins a change to the same state that no command has asked for (R562). -/
def Cmd.powerJoins (c : Cmd) (u : State) : Bool :=
  match u.pwr.target with
  | some (t, none, _) => t == c.powerAsked
  | _ => false

/-- A PWR_STATE that nothing refuses (R562, R579). -/
structure PowerAllowed (c : Cmd) (u : State) : Prop where
  word : onlyBits c.payload 0 [(2, 0)] = true
  listed : c.powerAsked ≤ 3
  cool : u.tripped = false
  halted : c.powerHere u = true ∨ (c.powerAsked ≠ 0 → u.stepping = false)
  uncued : c.powerHere u = true ∨ (c.powerAsked = 3 → ∀ k < 16, u.cueFunc k ≠ fnStep ∧ u.cueFunc k ≠ fnFwact)
  free : u.pwr.target = none ∨ c.powerJoins u = true
  idle : c.powerHere u = true ∨ (2 ≤ c.powerAsked → u.napBusy = false)

/-- What a PWR_STATE does (R560, R562, R566). -/
def State.powerChanges (u : State) (c : Cmd) : State :=
  if c.powerHere u then u.ok c []
  else if c.powerJoins u then
    { u with pwr := { u.pwr with target := u.pwr.target.map fun (x : Nat × Option Nat × Nat) => (x.1, some c.id, x.2.2) } }
  else if 2 ≤ u.power ∧ c.powerAsked ≠ 3 then
    let left := u.beginExit c.powerAsked (some c.id) (if c.path = .mailbox then 5 else 0)
    if c.path = .mailbox then left else left.wr Reg.PWR.STATE.LASTWAKE (u.rd Reg.PWR.STATE.LASTWAKE)
  else ({ u with pwr := { u.pwr with target := some (c.powerAsked, some c.id, u.now), wake := none } }).wr
    Reg.PWR.STATE.CHANGING 1

theorem pwrStateBody_ok {c : Cmd} (hf : c.fail = none) {u : State} (h : PowerAllowed c u) :
    pwrStateBody c u = u.powerChanges c := by
  have hstep : (!c.powerHere u && c.powerAsked != 0 && u.stepping) = false := by
    rcases h.halted with hhere | hhalted
    · simp [hhere]
    · by_cases h0 : c.powerAsked = 0
      · simp [h0]
      · simp [hhalted h0]
  have hcues : (!c.powerHere u && c.powerAsked == 3 &&
      (List.range 16).any fun k => u.cueFunc k == fnStep || u.cueFunc k == fnFwact) = false := by
    rcases h.uncued with hhere | huncued
    · simp [hhere]
    · by_cases h3 : c.powerAsked = 3
      · have hnone : ((List.range 16).any fun k => u.cueFunc k == fnStep || u.cueFunc k == fnFwact) = false :=
          List.any_eq_false.mpr fun k hk => by simpa using huncued h3 k (List.mem_range.mp hk)
        rw [hnone, Bool.and_false]
      · simp [h3]
  have hfree : (u.pwr.target.isSome && !c.powerJoins u) = false := by
    rcases h.free with hnone | hjoins
    · simp [hnone]
    · simp [hjoins]
  have hidle : (!c.powerHere u && decide (2 ≤ c.powerAsked) && u.napBusy) = false := by
    rcases h.idle with hhere | hidle
    · simp [hhere]
    · by_cases h2 : 2 ≤ c.powerAsked
      · simp [hidle h2]
      · simp [h2]
  unfold pwrStateBody
  refine (State.checked_pass u c _ _ hf ?_).trans rfl
  simp only [Cmd.reserved_one rfl h.word, decide_eq_false (Nat.not_lt.mpr h.listed), h.cool, Bool.or_self, List.forall_mem_cons,
    true_and, List.not_mem_nil, IsEmpty.forall_iff, implies_true, and_true]
  exact ⟨hstep, hcues, hfree, hidle⟩

theorem Cmd.powerHere_of {c : Cmd} {u : State} (hstate : c.powerAsked = u.power) (hstays : u.pwr.target = none) :
    c.powerHere u = true := by
  simp [Cmd.powerHere, hstate, hstays]

theorem Cmd.powerHere_of_ne {c : Cmd} {u : State} (hstate : c.powerAsked ≠ u.power) : c.powerHere u = false := by
  simp [Cmd.powerHere, hstate]

theorem Cmd.powerHere_of_changing {c : Cmd} {u : State} {x : Nat × Option Nat × Nat} (hchanges : u.pwr.target = some x) :
    c.powerHere u = false := by
  simp [Cmd.powerHere, hchanges]

section
variable {c : Cmd} {u : State}

theorem State.powerChanges_here (hhere : c.powerHere u = true) : u.powerChanges c = u.ok c [] := if_pos hhere

theorem State.powerChanges_joins {began : Nat} (hjoins : u.pwr.target = some (c.powerAsked, none, began)) :
    u.powerChanges c = { u with pwr := { u.pwr with target := some (c.powerAsked, some c.id, began) } } := by
  have hmine : c.powerJoins u = true := by simp [Cmd.powerJoins, hjoins]
  simp only [State.powerChanges, Cmd.powerHere_of_changing hjoins, Bool.false_eq_true, if_false, hmine, if_true, hjoins,
    Option.map_some]

section
variable (hstate : c.powerAsked ≠ u.power) (hstays : u.pwr.target = none)
include hstate hstays

theorem State.powerChanges_leaves (hdeep : 2 ≤ u.power) (hup : c.powerAsked ≠ 3) :
    u.powerChanges c =
      if c.path = .mailbox then u.beginExit c.powerAsked (some c.id) 5
      else (u.beginExit c.powerAsked (some c.id) 0).wr Reg.PWR.STATE.LASTWAKE (u.rd Reg.PWR.STATE.LASTWAKE) := by
  have hnot : c.powerJoins u = false := by simp [Cmd.powerJoins, hstays]
  simp only [State.powerChanges, Cmd.powerHere_of_ne hstate, hnot, Bool.false_eq_true, if_false, if_pos (And.intro hdeep hup)]
  by_cases hpath : c.path = .mailbox
  · simp only [hpath, if_true]
  · simp only [hpath, if_false]

theorem State.powerChanges_begins (hshallow : u.power < 2 ∨ c.powerAsked = 3) :
    u.powerChanges c =
      ({ u with pwr := { u.pwr with target := some (c.powerAsked, some c.id, u.now), wake := none } }).wr
        Reg.PWR.STATE.CHANGING 1 := by
  have hnot : c.powerJoins u = false := by simp [Cmd.powerJoins, hstays]
  have hstay : ¬ (2 ≤ u.power ∧ c.powerAsked ≠ 3) := by omega
  simp only [State.powerChanges, Cmd.powerHere_of_ne hstate, hnot, Bool.false_eq_true, if_false, if_neg hstay]

end

end

/-! ### The events -/

section
variable {s : State} {dt : Nat} (hr : s.inReset = false)
include hr

/-- A change of state completes, one out of PATROL once every tower has run its start-up (R560, R562, R565). -/
theorem exec_powerStateReached_ready {t began : Nat} {cmd : Option Nat} (htarget : s.pwr.target = some (t, cmd, began))
    (hback : s.pwr.napBack = false) (hready : s.power = 3 → s.dev.startup = [] ∧ s.allReady = true) :
    exec (.powerStateReached dt) s = .next (s.after dt fun u => u.stateReached t cmd) := by
  refine (show _ = execPowerStateReached dt s from rfl).trans (State.event_eq hr dt _ _ ?_)
  have hall : (s.elapse dt).allReady = s.allReady := rfl
  simp only [State.elapse_pwr, htarget]
  refine State.whenever_true _ _ _ ?_
  rw [hback, State.elapse_power, State.elapse_dev, hall]
  by_cases hp : s.power = 3
  · simp [hready hp]
  · simp [hp]

theorem exec_holdDomainIdle_due {unit : Nat} (hp : s.power = 1)
    (hdue : ∃ d ∈ s.pwr.domIdle, d.1 = unit ∧ d.2 + fsMs ≤ s.now + dt) :
    exec (.holdDomainIdle dt unit) s = .next (s.after dt fun u =>
      let t := { u with pwr := { u.pwr with domIdle := u.pwr.domIdle.filter fun d => d.1 ≠ unit } }
      if 8 ≤ unit then t.selfRefresh (unit - 8) else t) := by
  refine (show _ = execHoldDomainIdle dt unit s from rfl).trans (State.event_eq hr dt _ _ (State.whenever_true _ _ _ ?_))
  rw [State.elapse_power, hp, State.elapse_pwr, State.elapse_now]
  simpa using hdue

end

/-! ### The patrol sampler -/

/-- A sample is shown, and the next one is counted from it (R568). -/
def State.sampleShown (s : State) (alarms : Nat) : State :=
  ({ s with pwr := { s.pwr with sampled := s.now } }).wr Reg.IOB.CTLPINS.ALM_IN alarms

/-- A sample changes none of the limits that it is held against. -/
theorem State.sampleShown_alarms (s : State) (values : List (Nat × Nat)) (alarms : Nat) :
    (s.sampleShown alarms).sampleAlarms values alarms = s.sampleAlarms values alarms := rfl

theorem State.patrolAlarm_pwr (s : State) (q : Nat) (above : Bool) (value : Nat) : (s.patrolAlarm q above value).pwr = s.pwr :=
  (s.hostOnly_post _ _ _ _).pwr

theorem State.patrolAlarms_pwr (found : List (Nat × Bool × Nat)) (s : State) :
    (found.foldl (fun (w : State) a => w.patrolAlarm a.1 a.2.1 a.2.2) s).pwr = s.pwr :=
  (hostOnly_foldl _ (fun u _ => u.hostOnly_post _ _ _ _) found s).pwr

/-- A sample that is due in PATROL is shown; its alarms are posted and, with ACTION, wake the device (R565, R568). -/
theorem exec_patrolSample_due {s : State} {dt : Nat} (hr : s.inReset = false) (hp : s.power = 3) (hstays : s.pwr.target = none)
    (hdue : s.pwr.sampled + s.pwr.interval * fsMs / 100 * 98 ≤ s.now + dt) (values : List (Nat × Nat)) (alarms : Nat) :
    exec (.patrolSample dt values alarms) s = .next (s.after dt fun u =>
      if (s.sampleAlarms values alarms).isEmpty then u.sampleShown alarms
      else
        let t := (s.sampleAlarms values alarms).foldl (fun (w : State) a => w.patrolAlarm a.1 a.2.1 a.2.2)
          (u.sampleShown alarms).carryTime
        if s.pwr.action then t.wakeLogic 4 else t) := by
  refine (show _ = execPatrolSample dt values alarms s from rfl).trans (State.event_eq hr dt _ _ ?_)
  have hsample : (decide ((s.elapse dt).power = 3) && (s.elapse dt).pwr.target.isNone &&
      decide ((s.elapse dt).pwr.sampled + (s.elapse dt).pwr.interval * fsMs / 100 * 98 ≤ (s.elapse dt).now)) = true := by
    rw [State.elapse_power, State.elapse_pwr, State.elapse_now, hp, hstays, decide_eq_true hdue]
    rfl
  refine (State.whenever_true _ _ _ hsample).trans ?_
  have haction : ((s.sampleAlarms values alarms).foldl (fun (w : State) a => w.patrolAlarm a.1 a.2.1 a.2.2)
      ((s.elapse dt).sampleShown alarms).carryTime).pwr.action = s.pwr.action := by
    rw [State.patrolAlarms_pwr]
    rfl
  rw [← haction]
  rfl

/-- Settles O56: PWR_STATE by where the device is, the events by the condition of each. -/
theorem powerStatesChange : Obligations.PowerStatesChange := by
  refine ⟨fun s dt h ws => ?_, fun s dt t began cmd hr htarget hback hready => exec_powerStateReached_ready hr htarget hback hready,
    fun s dt hr => ⟨(show _ = execWakeNAssert dt s from rfl).trans (State.event_outside hr dt _), fun hlink kind => ?_⟩,
    fun s dt unit hr hp hdue => exec_holdDomainIdle_due hr hp hdue, fun s dt values alarms hr hp hstays hdue => ?_⟩
  · intro v t ha hb h3 hcool
    have hexec : PowerAllowed (s.cmdOf 0x0B01 h ws) v → ∀ {effect : Cmd → State → State},
        v.powerChanges (s.cmdOf 0x0B01 h ws) = effect (s.cmdOf 0x0B01 h ws) v →
        exec (.pwrState dt h ws) s = .next (s.afterCmd dt 0x0B01 h ws effect) := fun hok effect he =>
      exec_begun rfl ha pwrStateCmd rfl exactly_of_length rfl rfl ((pwrStateBody_ok rfl hok).trans he)
    refine ⟨fun hstate hstays => ?_, fun hhalted huncued hidle => ⟨fun began hjoins => ?_, fun hstays hstate hdeep hup => ?_,
      fun hstays hstate hshallow => ?_⟩⟩
    · have hhere := Cmd.powerHere_of (c := s.cmdOf 0x0B01 h ws) hstate hstays
      exact hexec ⟨hb, h3, hcool, .inl hhere, .inl hhere, .inl hstays, .inl hhere⟩ (State.powerChanges_here hhere)
    · have hmine : (s.cmdOf 0x0B01 h ws).powerJoins v = true := by
        simp only [Cmd.powerJoins, hjoins]
        exact beq_self_eq_true t
      exact hexec ⟨hb, h3, hcool, .inr hhalted, .inr huncued, .inr hmine, .inr hidle⟩ (State.powerChanges_joins hjoins)
    · exact hexec ⟨hb, h3, hcool, .inr hhalted, .inr huncued, .inl hstays, .inr hidle⟩
        (State.powerChanges_leaves hstate hstays hdeep hup)
    · exact hexec ⟨hb, h3, hcool, .inr hhalted, .inr huncued, .inl hstays, .inr hidle⟩
        (State.powerChanges_begins hstate hstays hshallow)
  · refine (show _ = execPcieWakeRequest dt kind s from rfl).trans (State.event_eq hr dt _ _ ?_)
    cases kind
    · exact State.whenever_true _ _ _ (Bool.not_eq_true' _ ▸ hlink)
    · exact State.whenever_true _ _ _ (Bool.not_eq_true' _ ▸ hlink)
  · have hsample := exec_patrolSample_due hr hp hstays hdue values alarms
    refine ⟨fun hnone => ?_, fun hsome => ?_⟩
    · exact hsample.trans (congrArg _ (State.after_congr (if_pos (List.isEmpty_iff.mpr hnone))))
    · exact hsample.trans (congrArg _ (State.after_congr (if_neg (mt List.isEmpty_iff.mp hsome))))

end Sys2Proof.Machine
end

section
/-! The current ledger's requests, the thermal limits, the patrol sampler's settings, and the measurements of current and heat
(R569-R579, R582). -/

namespace Sys2Proof.Machine

/-! ### BUDGET_REQUEST -/

theorem State.begun_cap (s : State) (op : Nat) (h : CmdHdr) (ws : List Word) : (s.begun op h ws).cap = s.cap :=
  s.begun_rd op h ws (by decide)

section
variable {c : Cmd} (hf : c.fail = none) {u : State} (hb : onlyBits c.payload 0 [(1, 0), (26, 16)] = true)
include hf hb

theorem budgetRequestBody_takes (hop : c.f 0 1 0 = 0) (hfits : c.f 0 26 16 ≤ u.freeBu) :
    budgetRequestBody c u =
      ({ u with ledger := { u.ledger with pool := u.ledger.pool + c.f 0 26 16 } }).admitTowers.ok c [] := by
  unfold budgetRequestBody
  refine (State.checked_pass u c _ _ hf ?_).trans ?_
  · simp [Cmd.reserved_one rfl hb, hop, hfits]
  · simp only [hop, OfNat.zero_ne_ofNat, if_false, if_true]

theorem budgetRequestBody_returns (hop : c.f 0 1 0 = 1) (hheld : c.f 0 26 16 ≤ u.ledger.pool) :
    budgetRequestBody c u =
      ({ u with ledger := { u.ledger with pool := u.ledger.pool - c.f 0 26 16 } }).admitTowers.ok c [] := by
  unfold budgetRequestBody
  refine (State.checked_pass u c _ _ hf ?_).trans ?_
  · simp [Cmd.reserved_one rfl hb, hop, hheld]
  · simp only [hop, OfNat.one_ne_ofNat, one_ne_zero, if_false]

theorem budgetRequestBody_caps (hop : c.f 0 1 0 = 2) (hleast : 400 ≤ c.f 0 26 16) (hmost : c.f 0 26 16 ≤ 1600)
    (hfits : u.ledger.granted + u.ledger.setAside ≤ c.f 0 26 16) :
    budgetRequestBody c u = (u.wr Reg.PWR.LEDGER.CAP (c.f 0 26 16)).admitTowers.ok c [] := by
  unfold budgetRequestBody
  refine (State.checked_pass u c _ _ hf ?_).trans ?_
  · simp [Cmd.reserved_one rfl hb, hop, hleast, hmost, hfits]
  · simp only [hop, if_true]

end

/-! ### THERMAL_LIMITS and PATROL_SETUP -/

/-- Payload words that set only the bits of their fields have no reserved bit. -/
theorem Cmd.reserved_of {c : Cmd} {words : List (List (Nat × Nat))}
    (h : ∀ x ∈ words.zipIdx, onlyBits c.payload x.2 x.1 = true) : c.reserved words = false :=
  List.any_eq_false.mpr fun x hx => Bool.not_eq_true _ ▸ (onlyBits_iff _ _ _).mp (h x hx)

/-- Threshold `i` of a THERMAL_LIMITS (R582). -/
abbrev Cmd.threshold (c : Cmd) (i : Nat) : Nat := c.f 0 (8 * i + 7) (8 * i)

/-- Multiplier `i` of a THERMAL_LIMITS (R582). -/
abbrev Cmd.multiplier (c : Cmd) (i : Nat) : Nat := c.f 1 (8 * i + 7) (8 * i)

/-- The thresholds, the hysteresis and the multipliers that R575 and R582 allow. -/
structure LimitsAllowed (c : Cmd) : Prop where
  word0 : onlyBits c.payload 0 [(51, 0)] = true
  word1 : onlyBits c.payload 1 [(23, 0)] = true
  range : ∀ i < 6, 60 ≤ c.threshold i ∧ c.threshold i ≤ 105
  cellar : c.threshold 0 < c.threshold 1 ∧ c.threshold 1 < c.threshold 2
  floor : c.threshold 3 < c.threshold 4 ∧ c.threshold 4 < c.threshold 5
  hysteresis : 1 ≤ c.f 0 51 48 ∧ c.f 0 51 48 ≤ 10
  multipliers : 8 ≤ c.multiplier 0 ∧ c.multiplier 0 ≤ c.multiplier 1 ∧ c.multiplier 1 ≤ c.multiplier 2

theorem thermalLimitsBody_ok {c : Cmd} (hf : c.fail = none) (h : LimitsAllowed c) (u : State) :
    thermalLimitsBody c u =
      (((u.wr Reg.PWR.LIMITS.VALUE (c.w 0)).wr Reg.PWR.MULT.VALUE (c.w 1)).heatSync).ok c [] := by
  obtain ⟨hword0, hword1, hrange, ⟨h01, h12⟩, ⟨h34, h45⟩, ⟨hleast, hmost⟩, ⟨hm0, hm1, hm2⟩⟩ := h
  have hbound : ((List.range 6).any fun i => decide (c.threshold i < 60) || decide (105 < c.threshold i)) = false :=
    List.any_eq_false.mpr fun i hi => by
      obtain ⟨h60, h105⟩ := hrange i (List.mem_range.mp hi)
      simp only [Bool.or_eq_true, decide_eq_true_eq]
      omega
  have hmult : ((List.range 3).any fun i => decide (c.multiplier i < 8)) = false :=
    List.any_eq_false.mpr fun i hi => by
      have h3 : i = 0 ∨ i = 1 ∨ i = 2 := by
        have := List.mem_range.mp hi
        omega
      rw [decide_eq_true_eq]
      rcases h3 with rfl | rfl | rfl <;> omega
  unfold thermalLimitsBody
  refine State.checked_pass u c _ _ hf ?_
  simp only [Cmd.reserved_two rfl hword0 hword1, hbound, hmult, List.forall_mem_cons, List.not_mem_nil, IsEmpty.forall_iff,
    implies_true, and_true, Bool.or_eq_false_iff, decide_eq_false_iff_not, true_and]
  unfold Cmd.threshold at h01 h12 h34 h45
  unfold Cmd.multiplier at hm1 hm2
  omega

/-- The limits of a PATROL_SETUP (R582). -/
def Cmd.patrolLimits (c : Cmd) : List (Nat × Nat × Bool) :=
  (List.range 5).map fun i => (c.f (1 + i) 15 0, c.f (1 + i) 31 16, c.b (1 + i) 32)

/-- The sampler's settings that R582 allows. -/
structure SamplerAllowed (c : Cmd) : Prop where
  word0 : onlyBits c.payload 0 [(15, 0), (16, 16)] = true
  limitWords : ∀ i < 5, onlyBits c.payload (1 + i) [(15, 0), (31, 16), (32, 32)] = true
  word6 : onlyBits c.payload 6 [(3, 0), (11, 8)] = true
  interval : 1 ≤ c.f 0 15 0 ∧ c.f 0 15 0 ≤ 60000
  limits : ∀ l ∈ c.patrolLimits, l.1 ≤ l.2.1

theorem patrolSetupBody_ok {c : Cmd} (hf : c.fail = none) (h : SamplerAllowed c) (u : State) :
    patrolSetupBody c u =
      ({ u with pwr := { u.pwr with
        interval := c.f 0 15 0, action := c.b 0 16, limits := c.patrolLimits, alarmEn := c.f 6 3 0
        alarmHigh := c.f 6 11 8 } }).ok c [] := by
  obtain ⟨hword0, hwords, hword6, ⟨hleast, hmost⟩, hlimits⟩ := h
  have hreserved : c.reserved ([[(15, 0), (16, 16)]] ++ List.replicate 5 [(15, 0), (31, 16), (32, 32)] ++ [[(3, 0), (11, 8)]]) =
      false := by
    refine Cmd.reserved_of (List.forall_mem_cons.mpr ⟨hword0, List.forall_mem_cons.mpr ⟨hwords 0 (by decide),
      List.forall_mem_cons.mpr ⟨hwords 1 (by decide), List.forall_mem_cons.mpr ⟨hwords 2 (by decide),
      List.forall_mem_cons.mpr ⟨hwords 3 (by decide), List.forall_mem_cons.mpr ⟨hwords 4 (by decide),
      List.forall_mem_cons.mpr ⟨hword6, fun _ hx => nomatch hx⟩⟩⟩⟩⟩⟩⟩)
  have hordered : (c.patrolLimits.any fun l => decide (l.2.1 < l.1)) = false :=
    List.any_eq_false.mpr fun l hl => by simpa using hlimits l hl
  unfold patrolSetupBody
  refine (State.checked_pass u c _ _ hf ?_).trans rfl
  simp only [hreserved, decide_eq_false (Nat.not_lt.mpr hleast), decide_eq_false (Nat.not_lt.mpr hmost), Bool.or_self,
    Bool.false_or, List.forall_mem_cons, List.not_mem_nil, IsEmpty.forall_iff, implies_true, and_true]
  exact hordered

/-! ### Current -/

/-- The measurements in a row that are more than 5% above the cap, after one of `amps` tenths of an ampere (R573). -/
def State.overCount (s : State) (amps : Nat) : Nat := if s.cap * 105 < amps * 80 then s.pwr.overCnt + 1 else 0

/-- Since when the current is below the cap, after a measurement (R573). -/
def State.belowSince (s : State) (amps : Nat) : Option Nat :=
  if amps * 4 < s.cap * 5 then some (s.pwr.belowSince.getD s.now) else none

/-- A measurement of current shown in NOW and PEAK, with what it says of the cap (R573). -/
def State.currentShown (s : State) (amps n : Nat) (since : Option Nat) : State :=
  let s := ((s.sampledNow 2).wr Reg.PWR.CURRENT.NOW (min amps 65535)).raise Reg.PWR.CURRENT.PEAK amps
  { s with pwr := { s.pwr with overCnt := n, belowSince := since } }

/-- NOW and PEAK are not the cap. -/
theorem State.currentShown_cap (s : State) (amps : Nat) :
    (((s.sampledNow 2).wr Reg.PWR.CURRENT.NOW (min amps 65535)).raise Reg.PWR.CURRENT.PEAK amps).cap = s.cap := by
  have hpeak : Reg.PWR.LEDGER.CAP.addr ≠ Reg.PWR.CURRENT.PEAK.addr := by decide
  have hnow : Reg.PWR.LEDGER.CAP.addr ≠ Reg.PWR.CURRENT.NOW.addr := by decide
  exact (State.rd_wr_of_addr _ _ _ _ hpeak).trans (State.rd_wr_of_addr _ _ _ _ hnow)

/-- A measurement begins an overdraw at the third in a row above the cap, and ends one after 1 ms below it (R573). -/
theorem exec_currentMeasurement_due {s : State} {dt : Nat} (hr : s.inReset = false) (hp : s.power ≠ 3)
    (hdue : s.clk.sampledAt.at 0 2 + 10 * fsUs ≤ s.now + dt) (amps : Nat) :
    exec (.currentMeasurement dt amps) s = .next (s.after dt fun u =>
      let v := u.currentShown amps ((s.elapse dt).overCount amps) ((s.elapse dt).belowSince amps)
      if s.step.overdraw = 0 then (if 3 ≤ (s.elapse dt).overCount amps then v.overdraws amps else v)
      else if ((s.elapse dt).belowSince amps).any fun t => decide (t + fsMs ≤ s.now + dt) then
        ({ v with step := { v.step with overdraw := 0 } }).pacingSync
      else v) := by
  refine (show _ = execCurrentMeasurement dt amps s from rfl).trans (State.event_eq hr dt _ _ ?_)
  refine (State.whenever_true _ _ _ (by simpa using hp)).trans ((State.whenever_true _ _ _ (decide_eq_true hdue)).trans ?_)
  have hcap := (s.elapse dt).currentShown_cap amps
  unfold State.sampledNow at hcap
  simp only [hcap, decide_eq_true_eq, State.overCount, State.belowSince, State.currentShown, State.sampledNow]
  rfl

/-! ### Heat -/

/-- The temperatures of towers and porches that a sensor read shows, with the levels and the alarms that follow (R574-R578). -/
def State.heatShown (s : State) (cellar floor attic porch : List Nat) : State :=
  let v := (List.range 8).foldl (fun (v : State) t =>
    ((v.wr (Reg.PWR.TEMP.CELLAR t) (hottest cellar (16 * t) 16)).wr (Reg.PWR.TEMP.FLOOR t) (hottest floor (16 * t) 16)).wr
      (Reg.PWR.TEMP.ATTIC t) (hottest attic (16 * t) 16)) (s.sampledNow 3)
  let v := (v.wr Reg.PWR.PORCHTEMP.PN (hottest porch 0 4)).wr Reg.PWR.PORCHTEMP.PS (hottest porch 4 4)
  let v := (List.range 8).foldl (fun (v : State) t =>
    ((v.highHeat t t 0 (hottest cellar (16 * t) 16)).highHeat (8 + t) t 1 (hottest floor (16 * t) 16)).highHeat (16 + t) t 2
      (hottest attic (16 * t) 16)) v.heatSync
  (v.highHeat 24 srcPn 0 (hottest porch 0 4)).highHeat 25 srcPs 0 (hottest porch 4 4)

/-- The sensors found hot are held for the next read; one that is hot for the second time in a row trips the device (R579). -/
def State.heatJudged (s : State) (hot : List (Nat × Nat)) (twice : Option (Nat × Nat)) : State :=
  let t := { s with pwr := { s.pwr with hot := hot.map Prod.fst } }
  match twice with
  | some h => if t.tripped then t else t.trip (sensorPlace h.1).1 (sensorPlace h.1).2 (min h.2 255)
  | none => t

theorem exec_thermalSensorRead_due {s : State} {dt : Nat} (hr : s.inReset = false) (hp : s.power ≠ 3)
    (hdue : s.clk.sampledAt.at 0 3 + 100 * fsUs ≤ s.now + dt) (cellar floor attic porch : List Nat) :
    exec (.thermalSensorRead dt cellar floor attic porch) s = .next (s.after dt fun u =>
      let hot := hotSensors [cellar.take 128, floor.take 128, attic.take 128, porch.take 8]
      let v := u.heatShown cellar floor attic porch
      v.heatJudged hot (hot.find? fun h => v.pwr.hot.contains h.1)) := by
  refine (show _ = execThermalSensorRead dt cellar floor attic porch s from rfl).trans (State.event_eq hr dt _ _ ?_)
  exact (State.whenever_true _ _ _ (by simpa using hp)).trans
    ((State.whenever_true _ _ _ (decide_eq_true hdue)).trans rfl)

/-- Settles O57: the commands by what each sets, the measurements by their instants and what they read. -/
theorem budgetHeatAndCurrent : Obligations.BudgetHeatAndCurrent := by
  refine ⟨fun s dt h ws => ?_, fun s dt h ws => ?_, fun s dt h ws => ?_, fun s dt amps hr hp hdue => ?_,
    fun s dt cellar floor attic porch hr hp hdue => ?_⟩
  · intro v op n ha hb
    refine ⟨fun hop hfits => ?_, fun hop hheld => ?_, fun hop hleast hmost hfits => ?_⟩
    · exact exec_begun rfl ha budgetRequestCmd rfl exactly_of_length rfl rfl (budgetRequestBody_takes rfl hb hop hfits)
    · exact exec_begun rfl ha budgetRequestCmd rfl exactly_of_length rfl rfl (budgetRequestBody_returns rfl hb hop hheld)
    · exact exec_begun rfl ha budgetRequestCmd rfl exactly_of_length rfl rfl
        (budgetRequestBody_caps rfl hb hop hleast hmost hfits)
  · intro t m hyst ha hb0 hb1 hrange h01 h12 h34 h45 hleast hmost hm0 hm1 hm2
    have hallowed : LimitsAllowed (s.cmdOf 0x0B04 h ws) :=
      ⟨hb0, hb1, hrange, ⟨h01, h12⟩, ⟨h34, h45⟩, ⟨hleast, hmost⟩, ⟨hm0, hm1, hm2⟩⟩
    exact exec_begun rfl ha thermalLimitsCmd rfl exactly_of_length rfl rfl (thermalLimitsBody_ok rfl hallowed _)
  · intro every lims ha hb0 hbs hb6 hleast hmost hlims
    have hallowed : SamplerAllowed (s.cmdOf 0x0B05 h ws) := ⟨hb0, hbs, hb6, ⟨hleast, hmost⟩, hlims⟩
    exact exec_begun rfl ha patrolSetupCmd rfl exactly_of_length rfl rfl (patrolSetupBody_ok rfl hallowed _)
  · intro n since shown
    have hmeasured := exec_currentMeasurement_due hr hp hdue amps
    refine ⟨fun hno hthird => ?_, fun hno hfew => ?_, fun t hyes hsince hlong => ?_, fun hyes hshort => ?_⟩
    · exact hmeasured.trans (congrArg _ (State.after_congr ((if_pos hno).trans (if_pos hthird))))
    · exact hmeasured.trans (congrArg _ (State.after_congr ((if_pos hno).trans (if_neg (Nat.not_le.mpr hfew)))))
    · have hover : (since.any fun t => decide (t + fsMs ≤ s.now + dt)) = true := by
        rw [hsince, Option.any_some, decide_eq_true hlong]
      exact hmeasured.trans (congrArg _ (State.after_congr ((if_neg hyes).trans (if_pos hover))))
    · have hover : ¬ (since.any fun t => decide (t + fsMs ≤ s.now + dt)) = true := by
        rw [Option.any_eq_true]
        rintro ⟨t, ht, hlong⟩
        exact absurd (hshort t ht) (Nat.not_lt.mpr (of_decide_eq_true hlong))
      exact hmeasured.trans (congrArg _ (State.after_congr ((if_neg hyes).trans (if_neg hover))))
  · intro max16 shown hot
    refine (exec_thermalSensorRead_due hr hp hdue cellar floor attic porch).trans (congrArg _ (State.after_congr ?_))
    have hshown : (s.elapse dt).heatShown cellar floor attic porch = shown (s.elapse dt) := rfl
    simp only [hshown]
    rfl

end Sys2Proof.Machine
end

section
/-! Resets and boot (R586-R597, R631, R642): a watchdog that expires as Keeper's restart falls due. -/

namespace Sys2Proof.Machine

theorem State.after_fw (s : State) (dt : Nat) (f : State → State) : (s.after dt f).fw = (f (s.elapse dt)).fw := rfl

/-- A device warm reset drops a restart of Keeper that was to come (R594, R642). -/
theorem State.watchdogReset_restart (s : State) : s.watchdogReset.fw.restart = none := by
  unfold State.watchdogReset State.warmReset State.warmKeeper State.fwSync
  simp only [State.wr_fw]

/-- While Keeper is down its watchdog does not run, and nothing but the time changes (R642). -/
theorem exec_watchdogExpiry_down {s : State} {dt : Nat} (hr : s.inReset = false) (hdown : (s.elapse dt).keeperDown = true) :
    exec (.watchdogExpiry dt) s = .next (s.after dt id) :=
  (show _ = execWatchdogExpiry dt s from rfl).trans
    (State.event_eq hr dt _ _ (State.whenever_false _ _ _ (by rw [hdown, Bool.not_true])))

/-- An activation that the ROM image has taken: Keeper restarts in 10 ms (R638). -/
def restartAhead : State := { State.reset with inReset := false, fw := { Fw.blank with restart := some (10 * fsMs) } }

/-- Refutes O58: its watchdog clause asks whether Keeper is down before the time passes, the model after it.  Where a restart falls
due within that time, Keeper is down when the watchdog would expire and nothing is reset, while the clause claims a device warm reset,
which would drop the restart. -/
theorem not_resetsAndBoot : ¬ Obligations.ResetsAndBoot := by
  rintro ⟨-, -, -, -, hwatchdogs⟩
  obtain ⟨hexpiry, -⟩ := hwatchdogs restartAhead (10 * fsMs) rfl
  have hclaimed : exec (.watchdogExpiry (10 * fsMs)) restartAhead = .next (restartAhead.after (10 * fsMs) State.watchdogReset) :=
    hexpiry (by decide)
  have hmodel : exec (.watchdogExpiry (10 * fsMs)) restartAhead = .next (restartAhead.after (10 * fsMs) id) :=
    exec_watchdogExpiry_down rfl (by decide)
  have hsame : restartAhead.after (10 * fsMs) id = restartAhead.after (10 * fsMs) State.watchdogReset := by
    injection hmodel.symm.trans hclaimed
  have hdropped := congrArg (fun t : State => t.fw.restart) hsame
  rw [State.after_fw, State.after_fw, State.watchdogReset_restart] at hdropped
  cases hdropped

end Sys2Proof.Machine
end

section
/-! Debug (R608-R622): PROBE_ROUTE, TRACE_SETUP, TEST_UNLOCK and PERTURB where nothing refuses them, and the challenge's expiry. -/

namespace Sys2Proof.Machine

/-! ### PROBE_ROUTE -/

/-- The wing that a PROBE_ROUTE names (R622). -/
abbrev Cmd.probeWing (c : Cmd) : Nat := c.f 0 6 4 * 64 + c.f 0 13 8

/-- The taps of a wing. -/
def State.wingTaps (s : State) (wing : Nat) : List Tap := s.dbg.taps.filter fun t => t.wing = wing

/-- The tap that a selection takes: the one it names, or with 127 the first free one (R622). -/
def Cmd.tapChosen (c : Cmd) (s : State) : Option Nat :=
  if c.f 0 20 14 = 127 then
    firstFree 64 fun n => !((s.wingTaps c.probeWing).any fun t => t.tap = n) && !s.tapTraced c.probeWing n
  else some (c.f 0 20 14)

/-- A wing's tap released, where it is selected. -/
def State.releaseTap (s : State) (wing n : Nat) : State :=
  match (s.wingTaps wing).find? fun x => x.tap = n with
  | some x => s.dropTap x
  | none => s

/-- A selection of tap `n` that nothing refuses (R608-R612, R622, R623); `others` are the taps beside it. -/
structure TapAllowed (c : Cmd) (s : State) (n : Nat) (others : List Tap) : Prop where
  chosen : c.tapChosen s = some n
  listed : n ≤ 63
  untraced : s.tapTraced c.probeWing n = false
  output : (tapOf c n).output ≤ 4
  dest : (tapOf c n).dest ≠ 3
  probePin : (tapOf c n).dest = 1 → (tapOf c n).pin ≤ 31
  userPin : (tapOf c n).dest = 2 → (tapOf c n).pin ≤ 47
  alone : (tapOf c n).pinKey.isSome = true → ∀ x ∈ others, x.pinKey ≠ (tapOf c n).pinKey
  unnamed : (tapOf c n).dest = 2 →
    (others.filter fun x => x.dest = 2).length < 96 ∧ s.pinNamed (tapOf c n).bank (tapOf c n).pin = false
  budget : (tapOf c n).dest = 0 ∨ s.anyRoute = true ∨ 2 ≤ s.freeBu

section
variable {c : Cmd} (hf : c.fail = none) {s : State} (hb : onlyBits c.payload 0 [(53, 0)] = true)
include hf hb

theorem probeRouteBody_lists (hop : c.f 0 1 0 = 2) :
    probeRouteBody c s =
      s.ok c ((List.range 64).map fun n => (((s.wingTaps c.probeWing).find? fun x => x.tap = n).map Tap.word).getD 0) := by
  unfold probeRouteBody
  refine (State.checked_pass s c _ _ hf ?_).trans (if_pos hop)
  simp [Cmd.reserved_one rfl hb, hop]

theorem probeRouteBody_releases (hop : c.f 0 1 0 = 1) (hnamed : c.f 0 20 14 ≤ 63)
    (huntraced : s.tapTraced c.probeWing (c.f 0 20 14) = false) :
    probeRouteBody c s = (s.releaseTap c.probeWing (c.f 0 20 14)).ok c [] := by
  have hmine : ¬ c.f 0 20 14 = 127 := by omega
  unfold probeRouteBody
  refine (State.checked_pass s c _ _ hf ?_).trans ?_
  · simpa [Cmd.reserved_one rfl hb, hop, hmine, hnamed] using huntraced
  · simp only [hop, hmine, if_false, Option.some.injEq]
    rfl

theorem probeRouteBody_selects (hop : c.f 0 1 0 = 0) {n : Nat}
    (h : TapAllowed c s n (s.dbg.taps.filter fun x => !(x.wing = c.probeWing ∧ x.tap = n))) :
    probeRouteBody c s = ((s.releaseTap c.probeWing n).setTap (tapOf c n)).answer c stOk n [] := by
  have hchosen : (if c.f 0 20 14 = 127 then
      firstFree 64 fun n => !((s.dbg.taps.filter fun t => t.wing = c.probeWing).any fun t => t.tap = n) &&
        !s.tapTraced c.probeWing n
    else some (c.f 0 20 14)) = some n := h.chosen
  have hnamed : (decide (63 < c.f 0 20 14) && !(c.f 0 20 14 == 127)) = false := by
    by_cases h127 : c.f 0 20 14 = 127
    · simp [h127]
    · have hn : c.f 0 20 14 = n := Option.some.inj ((if_neg h127).symm.trans hchosen)
      rw [hn, decide_eq_false (Nat.not_lt.mpr h.listed), Bool.false_and]
  have hprobe : ((tapOf c n).dest == 1 && decide (31 < (tapOf c n).pin)) = false :=
    Bool.and_eq_false_imp.mpr fun h1 => decide_eq_false (Nat.not_lt.mpr (h.probePin (beq_iff_eq.mp h1)))
  have huser : ((tapOf c n).dest == 2 && decide (47 < (tapOf c n).pin)) = false :=
    Bool.and_eq_false_imp.mpr fun h2 => decide_eq_false (Nat.not_lt.mpr (h.userPin (beq_iff_eq.mp h2)))
  have hrouted : ((tapOf c n).pinKey.isSome &&
      (s.dbg.taps.filter fun x => !(x.wing = c.probeWing ∧ x.tap = n)).any fun x => x.pinKey == (tapOf c n).pinKey) = false :=
    Bool.and_eq_false_imp.mpr fun hkey => List.any_eq_false.mpr fun x hx => by simpa using h.alone hkey x hx
  have hfull : ((tapOf c n).dest == 2 && decide (96 ≤ ((s.dbg.taps.filter fun x =>
      !(x.wing = c.probeWing ∧ x.tap = n)).filter fun x => x.dest = 2).length)) = false :=
    Bool.and_eq_false_imp.mpr fun h2 => decide_eq_false (Nat.not_le.mpr (h.unnamed (beq_iff_eq.mp h2)).1)
  have hheld : ((tapOf c n).dest == 2 && s.pinNamed (tapOf c n).bank (tapOf c n).pin) = false :=
    Bool.and_eq_false_imp.mpr fun h2 => (h.unnamed (beq_iff_eq.mp h2)).2
  have hneeds : ((tapOf c n).dest != 0 && !s.anyRoute && decide (s.freeBu < 2)) = false := by
    rcases h.budget with h0 | hroute | hroom
    · simp [h0]
    · simp [hroute]
    · rw [decide_eq_false (Nat.not_lt.mpr hroom), Bool.and_false]
  have hdest : ((tapOf c n).dest == 3) = false := beq_eq_false_iff_ne.mpr h.dest
  have hlists : (c.f 0 1 0 == 3) = false ∧ (c.f 0 1 0 != 2) = true ∧ (c.f 0 1 0 == 0) = true := by simp [hop]
  obtain ⟨hop3, hop2, hop0⟩ := hlists
  unfold probeRouteBody
  refine (State.checked_pass s c _ _ hf ?_).trans ?_
  · simp only [hchosen, Option.getD_some, Option.any_some, Option.isNone_some, Option.some.injEq]
    simp only [Cmd.reserved_one rfl hb, hop3, hop2, hop0, hnamed, decide_eq_false (Nat.not_lt.mpr h.output), hdest, hprobe, huser,
      h.untraced, hrouted, hfull, hheld, hneeds, Bool.true_and, Bool.and_true, Bool.or_self, List.forall_mem_cons,
      List.not_mem_nil, IsEmpty.forall_iff, implies_true, and_true]
  · simp only [hop, hchosen, Option.getD_some, Option.some.injEq]
    rfl

end

/-! ### TRACE_SETUP -/

/-- Words in a row that set only the bits of the same fields. -/
theorem onlyBits_zipIdx_replicate {ws : List Word} {n k : Nat} {f : List (Nat × Nat)}
    (h : ∀ i < n, onlyBits ws (k + i) f = true) : ∀ x ∈ (List.replicate n f).zipIdx k, onlyBits ws x.2 x.1 = true := by
  rintro ⟨g, i⟩ hx
  obtain ⟨hle, hlt, hg⟩ := List.mem_zipIdx hx
  rw [List.length_replicate] at hlt
  have hi := h (i - k) (by omega)
  rw [Nat.add_sub_cancel' hle] at hi
  rw [List.getElem_replicate] at hg
  exact hg ▸ hi

/-- A trace that nothing keeps a TRACE_SETUP from arming (R614-R618, R622, R623); `rel` is the state with the old one released. -/
structure TraceAllowed (c : Cmd) (s rel : State) (t : Trace) (g6 : Bool) : Prop where
  word0 : onlyBits c.payload 0 [(6, 0), (12, 8), (20, 16), (28, 24)] = true
  word1 : onlyBits c.payload 1 [(31, 0)] = true
  word3 : onlyBits c.payload 3 [(20, 0)] = true
  word4 : onlyBits c.payload 4 [(20, 0)] = true
  wingWords : g6 = true → ∀ i < 7,
    onlyBits c.payload (6 + i) [] = true ∧ onlyBits c.payload (14 + i) [(2, 0), (13, 8), (16, 16)] = true
  region : g6 = true → rel.allocRefusal t.base t.size = none
  blocks : g6 = false → t.bfirst ≤ t.blast ∧ t.blast ≤ 23 ∧ t.qual = false ∧
    ∀ n ∈ t.blocks, s.attic.isRetired (n / 24) (n % 24) = false ∧ ∀ o ∈ rel.attic.owner, o.1 ≠ n
  cue : t.trigsel = 1 → s.cueFunc t.cue = fnTrace
  trigger : t.trigsel = 3 → c.f 3 20 14 ≤ 63
  qualifier : t.qual = true → c.f 4 20 14 ≤ 63
  budget : traceBu g6 t.wings.length ≤ rel.freeBu

/-- No word of an arming TRACE_SETUP sets a reserved bit (R622). -/
theorem TraceAllowed.reserved {c : Cmd} {s rel : State} {t : Trace} {g6 : Bool} (h : TraceAllowed c s rel t g6) :
    c.reserved ([[(6, 0), (12, 8), (20, 16), (28, 24)], [(31, 0)], [(63, 0)], [(20, 0)], [(20, 0)]] ++
      (if g6 then [[(63, 0)]] ++ List.replicate 7 [] ++ [[(63, 0)]] ++ List.replicate 7 [(2, 0), (13, 8), (16, 16)] else [])) =
      false := by
  have hhead : ∀ x ∈ [([(6, 0), (12, 8), (20, 16), (28, 24)], 0), ([(31, 0)], 1), ([(63, 0)], 2), ([(20, 0)], 3),
      ([(20, 0)], 4)], onlyBits c.payload x.2 x.1 = true := by
    simp only [List.forall_mem_cons, List.not_mem_nil, IsEmpty.forall_iff, implies_true, and_true]
    exact ⟨h.word0, h.word1, onlyBits_whole_word _ _, h.word3, h.word4⟩
  refine Cmd.reserved_of fun x hx => ?_
  rw [List.zipIdx_append, List.mem_append] at hx
  rcases hx with hx | hx
  · exact hhead x hx
  · cases g6
    · exact absurd hx List.not_mem_nil
    · simp only [if_true, List.zipIdx_append, List.mem_append, List.zipIdx_singleton, List.mem_singleton] at hx
      rcases hx with ((rfl | hx) | rfl) | hx
      · exact onlyBits_whole_word _ _
      · exact onlyBits_zipIdx_replicate (fun i hi => (h.wingWords rfl i hi).1) x hx
      · exact onlyBits_whole_word _ _
      · exact onlyBits_zipIdx_replicate (fun i hi => (h.wingWords rfl i hi).2) x hx

/-- A trace armed on its storage (R614-R617). -/
def State.traceArmed (s : State) (g6 policy : Bool) (t : Trace) : State :=
  let x := s.traceRelease.grantAlways 0x13 (traceBu g6 t.wings.length)
  let x := if g6 then x.allocRegion t.base t.size .trace
    else { x with attic := { x.attic with owner := x.attic.owner ++ t.blocks.map fun n => (n, Owner.trace) } }
  let x := ((x.wr Reg.DBG.TRSTAT.STATE trArmed).wrb Reg.DBG.TRSTAT.MODE g6).wrb Reg.DBG.TRSTAT.POLICY policy
  x.traceSync t

section
variable {c : Cmd} (hf : c.fail = none) (s : State)
include hf

section
variable (hb : onlyBits c.payload 0 [(6, 0), (12, 8), (20, 16), (28, 24)] = true)
include hb

theorem traceSetupBody_stops (hop : c.f 0 1 0 = 1) : traceSetupBody c s = s.traceDone.ok c [] := by
  unfold traceSetupBody
  refine (State.checked_pass s c _ _ hf ?_).trans (if_pos hop)
  simp [Cmd.reserved_one rfl hb, hop]

theorem traceSetupBody_releases (hop : c.f 0 1 0 = 2) : traceSetupBody c s = s.traceRelease.ok c [] := by
  have hnot : ¬ c.f 0 1 0 = 1 := by omega
  unfold traceSetupBody
  refine (State.checked_pass s c _ _ hf ?_).trans ((if_neg hnot).trans (if_pos hop))
  simp [Cmd.reserved_one rfl hb, hop]

end

theorem traceSetupBody_arms (hop : c.f 0 1 0 = 0)
    (h : TraceAllowed c s s.traceRelease (traceOf c (c.b 0 2)) (c.b 0 2)) :
    traceSetupBody c s = (s.traceArmed (c.b 0 2) (c.b 0 3) (traceOf c (c.b 0 2))).ok c [] := by
  generalize ht : traceOf c (c.b 0 2) = t at h
  have hattic : (!c.b 0 2 && (decide (23 < t.blast) || decide (t.blast < t.bfirst) || t.qual ||
      t.blocks.any fun n => s.attic.isRetired (n / 24) (n % 24))) = false :=
    Bool.and_eq_false_imp.mpr fun hg => by
      obtain ⟨hfirst, hlast, hqual, hblocks⟩ := h.blocks (Bool.not_eq_true' _ ▸ hg)
      simpa [hlast, hfirst, hqual] using fun n hn => (hblocks n hn).1
  have hcue : (t.trigsel == 1 && s.cueFunc t.cue != fnTrace) = false :=
    Bool.and_eq_false_imp.mpr fun h1 => bne_eq_false_iff_eq.mpr (h.cue (beq_iff_eq.mp h1))
  have htrigger : (t.trigsel == 3 && decide (63 < c.f 3 20 14)) = false :=
    Bool.and_eq_false_imp.mpr fun h3 => decide_eq_false (Nat.not_lt.mpr (h.trigger (beq_iff_eq.mp h3)))
  have hqualifier : (t.qual && decide (63 < c.f 4 20 14)) = false :=
    Bool.and_eq_false_imp.mpr fun hq => decide_eq_false (Nat.not_lt.mpr (h.qualifier hq))
  have hregion : (if c.b 0 2 = true then s.traceRelease.allocRefusal t.base t.size else none) = none := by
    split
    · exact h.region ‹_›
    · rfl
  have howned : (!c.b 0 2 && t.blocks.any fun n => s.traceRelease.attic.owner.any fun o => o.1 == n) = false :=
    Bool.and_eq_false_imp.mpr fun hg => by
      obtain ⟨-, -, -, hblocks⟩ := h.blocks (Bool.not_eq_true' _ ▸ hg)
      exact List.any_eq_false.mpr fun n hn => by
        rw [List.any_eq_true]
        rintro ⟨o, ho, hmine⟩
        exact (hblocks n hn).2 o ho (beq_iff_eq.mp hmine)
  have hops : (c.f 0 1 0 == 3) = false ∧ (c.f 0 1 0 == 0) = true := by simp [hop]
  obtain ⟨hop3, hop0⟩ := hops
  unfold traceSetupBody
  refine (State.checked_pass s c _ _ hf ?_).trans ?_
  · simp only [ht, hop3, hop0, h.reserved, hattic, hcue, htrigger, hqualifier, hregion, howned, Bool.true_and, Bool.or_self,
      if_true, decide_eq_false (Nat.not_lt.mpr h.budget), List.forall_mem_cons, List.not_mem_nil, IsEmpty.forall_iff, implies_true,
      and_true]
    decide
  · simp only [hop, ← ht]
    rfl

end

/-! ### TEST_UNLOCK -/

/-- The response of a TEST_UNLOCK is right for the challenge that waits (R619). -/
def State.unlockRight (s : State) (c : Cmd) : Prop :=
  ∃ ch t, s.dbg.challenge = some (ch, t) ∧ s.now ≤ t + 1000 * fsMs ∧ c.f 1 31 0 + ch.toNat = 2 ^ 32 - 1

/-- No challenge waits. -/
def State.unchallenged (s : State) : State := { s with dbg := { s.dbg with challenge := none } }

/-- The challenge that a TEST_UNLOCK gives (R619). -/
def State.newChallenge (s : State) : Half := BitVec.ofNat 32 s.drawWord.1.toNat

section
variable {c : Cmd} (hf : c.fail = none) {s : State} (hlock : s.lockPolicy 3 = false)
  (hb : onlyBits c.payload 0 [(1, 0)] = true)
include hf hlock hb

theorem testUnlockBody_challenges (hop : c.f 0 1 0 = 0) (hword1 : onlyBits c.payload 1 [] = true) :
    testUnlockBody c s =
      ({ s with free := s.free + 1, dbg := { s.dbg with challenge := some (s.newChallenge, s.now) } }).answer c stOk
        s.newChallenge.toNat [] := by
  have hreserved : c.reserved [[(1, 0)], []] = false := Cmd.reserved_two rfl hb hword1
  unfold testUnlockBody
  refine (State.checked_pass s c _ _ hf ?_).trans (if_pos hop)
  simp [hop, hlock, hreserved]

theorem testUnlockBody_ends (hop : c.f 0 1 0 = 2) (hword1 : onlyBits c.payload 1 [] = true) :
    testUnlockBody c s = s.unlockEnds.ok c [] := by
  have hreserved : c.reserved [[(1, 0)], []] = false := Cmd.reserved_two rfl hb hword1
  unfold testUnlockBody
  refine (State.checked_pass s c _ _ hf ?_).trans ?_
  · simp [hop, hlock, hreserved]
  · simp [hop]

section
variable (hop : c.f 0 1 0 = 1) (hword1 : onlyBits c.payload 1 [(31, 0)] = true)
include hop hword1

theorem testUnlockBody_wrong (hwrong : ¬ s.unlockRight c) :
    testUnlockBody c s = s.unchallenged.answer c stAuth 0 [] := by
  have hreserved : c.reserved [[(1, 0)], [(31, 0)]] = false := Cmd.reserved_two rfl hb hword1
  unfold testUnlockBody
  refine (State.checked_pass s c _ _ hf ?_).trans ?_
  · simp [hop, hlock, hreserved]
  · simp only [hop]
    rcases hch : s.dbg.challenge with _ | ⟨ch, t⟩
    · rfl
    · have hno : (decide (s.now ≤ t + 1000 * fsMs) && c.f 1 31 0 + ch.toNat == 2 ^ 32 - 1) = false :=
        Bool.and_eq_false_imp.mpr fun hnow => beq_eq_false_iff_ne.mpr fun hsum =>
          hwrong ⟨ch, t, hch, of_decide_eq_true hnow, hsum⟩
      simp only [beq_self_eq_true, Bool.true_and, hno]
      rfl

theorem testUnlockBody_right (hright : s.unlockRight c) :
    testUnlockBody c s =
      if s.rdb Reg.PERT.STAT.UNLOCKED then s.unchallenged.ok c []
      else ((s.unchallenged.wr Reg.PERT.STAT.UNLOCKED 1).post 0x0D04 sevWarn srcDevice 1).ok c [] := by
  obtain ⟨ch, t, hch, hnow, hsum⟩ := hright
  have hreserved : c.reserved [[(1, 0)], [(31, 0)]] = false := Cmd.reserved_two rfl hb hword1
  unfold testUnlockBody
  refine (State.checked_pass s c _ _ hf ?_).trans ?_
  · simp [hop, hlock, hreserved]
  · simp only [hop, hch, decide_eq_true hnow, hsum, beq_self_eq_true, Bool.and_self]
    rfl

end

end

/-! ### PERTURB -/

/-- A payload word as the word that it is. -/
theorem Cmd.toWord_w (c : Cmd) (i : Nat) : toWord (c.w i) = c.payload.getD i 0 :=
  (BitVec.ofNat_toNat _ _).trans (BitVec.setWidth_eq _)

/-- The perturbation that a PERTURB asks for, in slot `n` (R620). -/
def Cmd.pert (c : Cmd) (n : Nat) : Pert :=
  { slot := n, kind := c.f 0 7 0, w1 := c.payload.getD 1 0, w2 := c.payload.getD 2 0, w3 := c.payload.getD 3 0,
    acts := false, ending := false }

/-- The perturbation of the same kind on the same target (R621). -/
def State.pertLike (s : State) (p : Pert) : Option Pert := s.dbg.perts.find? fun q => q.kind = p.kind ∧ q.target = p.target

/-- A perturbation set in its slot, in the place of the one like it (R620, R621). -/
def State.pertSet (s : State) (like : Option Pert) (p : Pert) : State :=
  let x := match like with
    | some q => if q.kind = 8 ∧ q.acts = true then s.unforceClock (fieldOf q.w1 7 0) else s
    | none => s
  let perts := x.dbg.perts.filter (fun (q : Pert) => q.slot ≠ p.slot) ++ [p]
  let x := { x with dbg := { x.dbg with perts := perts } }
  ((x.pertShow p).post 0x0D05 sevWarn srcDevice (p.slot + p.kind * 2 ^ 8)).pertNow

/-- The slot that a perturbation takes is that of the one like it, or the first free one (R621). -/
def State.PertSlot (s : State) (like : Option Pert) (n : Nat) : Prop :=
  like.map Pert.slot = some n ∨ (like = none ∧ firstFree 32 (fun i => !s.dbg.perts.any fun q => q.slot = i) = some n)

section
variable {c : Cmd} (hf : c.fail = none) {s : State} (hunlocked : s.rdb Reg.PERT.STAT.UNLOCKED = true)
include hf hunlocked

theorem perturbBody_ends (hoff : c.b 0 8 = true) (hb : onlyBits c.payload 0 [(8, 0), (20, 16)] = true)
    (hset : ∃ q ∈ s.dbg.perts, q.slot = c.f 0 20 16) :
    perturbBody c s =
      (let perts := s.dbg.perts.map fun (q : Pert) => if q.slot = c.f 0 20 16 then { q with ending := true } else q
       ({ s with dbg := { s.dbg with perts := perts } }).pertNow.answer c stOk (c.f 0 20 16) []) := by
  have hword : badBits (c.w 0) [(8, 0), (20, 16)] = false := (onlyBits_iff _ _ _).mp hb
  have hmine : (s.dbg.perts.any fun q => decide (q.slot = c.f 0 20 16)) = true := by simpa using hset
  unfold perturbBody
  refine (State.checked_pass s c _ _ hf ?_).trans (if_pos hoff)
  simp [hoff, hword, hunlocked, hmine]

theorem perturbBody_sets (hon : c.b 0 8 = false) (hgood : pertBad c s.g6Cap = false) (hecc : c.f 0 7 0 = 7 → s.g6Ecc = true)
    {n : Nat} (hslot : s.PertSlot (s.pertLike (c.pert 0)) n) :
    perturbBody c s = (s.pertSet (s.pertLike (c.pert 0)) (c.pert n)).answer c stOk n [] := by
  have hpert : ∀ i, Pert.mk i (c.f 0 7 0) (toWord (c.w 1)) (toWord (c.w 2)) (toWord (c.w 3)) false false = c.pert i := fun i => by
    simp only [Cmd.toWord_w]
    rfl
  have hlike : (s.dbg.perts.find? fun q => q.kind = c.f 0 7 0 ∧ q.target = (c.pert 0).target) = s.pertLike (c.pert 0) := rfl
  unfold perturbBody
  generalize s.pertLike (c.pert 0) = like at hslot hlike
  rcases like with _ | q
  · obtain ⟨-, hfree⟩ := hslot.resolve_left nofun
    refine (State.checked_pass s c _ _ hf ?_).trans ?_
    · simp only [hon, hgood, hunlocked, hpert, hlike, hfree, List.forall_mem_cons]
      simpa using hecc
    · simp only [hon, hpert, hlike, hfree, Option.getD_some]
      rfl
  · obtain rfl : q.slot = n := Option.some.inj (hslot.resolve_right nofun)
    refine (State.checked_pass s c _ _ hf ?_).trans ?_
    · simp only [hon, hgood, hunlocked, hpert, hlike, List.forall_mem_cons]
      simpa using hecc
    · simp only [hon, hpert, hlike, Option.getD_some]
      rfl

end

/-! ### The challenge -/

theorem exec_challengeExpiry_due {s : State} {dt : Nat} (hr : s.inReset = false) {ch : Half} {t : Nat}
    (hch : s.dbg.challenge = some (ch, t)) (hdue : t + 1000 * fsMs ≤ s.now + dt) :
    exec (.challengeExpiry dt) s = .next (s.after dt State.unchallenged) := by
  have hpast : ((s.elapse dt).dbg.challenge.any fun ch => decide (ch.2 + 1000 * fsMs ≤ (s.elapse dt).now)) = true := by
    rw [State.elapse_dbg, hch, Option.any_some, State.elapse_now, decide_eq_true hdue]
  exact (show _ = execChallengeExpiry dt s from rfl).trans (State.event_eq hr dt _ _ (State.whenever_true _ _ _ hpast))

/-- Settles O60: each command by its OP and what nothing refuses. -/
theorem debugCommandsAct : Obligations.DebugCommandsAct := by
  refine ⟨fun s dt h ws => ?_, fun s dt h ws => ?_, fun s dt h ws => ?_, fun s dt h ws => ?_,
    fun s dt t ch hr hch hdue => exec_challengeExpiry_due hr hch hdue⟩
  · intro v op wing named mine chosen ha hb
    refine ⟨fun hop => ?_, fun hop hnamed huntraced => ?_, fun n hop hchosen hlisted huntraced => ?_⟩
    · exact exec_begun rfl ha probeRouteCmd rfl exactly_of_length rfl rfl (probeRouteBody_lists rfl hb hop)
    · exact exec_begun rfl ha probeRouteCmd rfl exactly_of_length rfl rfl (probeRouteBody_releases rfl hb hop hnamed huntraced)
    · intro t others houtput hdest hprobe huser halone hunnamed hbudget
      have hallowed : TapAllowed (s.cmdOf 0x0D01 h ws) v n others :=
        ⟨hchosen, hlisted, huntraced, houtput, hdest, hprobe, huser, halone, hunnamed, hbudget⟩
      exact exec_begun rfl ha probeRouteCmd rfl exactly_of_length rfl rfl
        (probeRouteBody_selects (c := s.cmdOf 0x0D01 h ws) rfl hb hop hallowed)
  · intro v op g6 t ha hb
    refine ⟨fun hop => ?_, fun hop => ?_, fun hop hb1 hb3 hb4 hwings hregion hblocks hcue htrigger hqualifier hbudget => ?_⟩
    · exact exec_begun rfl ha traceSetupCmd rfl id rfl rfl (traceSetupBody_stops rfl _ hb hop)
    · exact exec_begun rfl ha traceSetupCmd rfl id rfl rfl (traceSetupBody_releases rfl _ hb hop)
    · have hallowed : TraceAllowed (s.cmdOf 0x0D02 h ws) v v.traceRelease t g6 :=
        ⟨hb, hb1, hb3, hb4, hwings, hregion, hblocks, hcue, htrigger, hqualifier, hbudget⟩
      exact exec_begun rfl ha traceSetupCmd rfl id rfl rfl (traceSetupBody_arms rfl _ hop hallowed)
  · intro v op ha hlock hb hresponse right ended
    refine ⟨fun hop hb1 => ⟨v.newChallenge, ?_⟩, fun hop hwrong => ?_, fun hop hright hopen => ?_, fun hop hright hshut => ?_,
      fun hop hb1 => ?_⟩
    · exact exec_begun rfl ha testUnlockCmd rfl id rfl rfl (testUnlockBody_challenges rfl hlock hb hop hb1)
    · exact exec_begun rfl ha testUnlockCmd rfl id rfl rfl (testUnlockBody_wrong rfl hlock hb hop (hresponse hop) hwrong)
    · exact exec_begun rfl ha testUnlockCmd rfl id rfl rfl
        ((testUnlockBody_right (c := s.cmdOf 0x0D11 h ws) rfl hlock hb hop (hresponse hop) hright).trans (if_pos hopen))
    · exact exec_begun rfl ha testUnlockCmd rfl id rfl rfl
        ((testUnlockBody_right (c := s.cmdOf 0x0D11 h ws) rfl hlock hb hop (hresponse hop) hright).trans
          (if_neg (ne_true_of_eq_false hshut)))
    · exact exec_begun rfl ha testUnlockCmd rfl id rfl rfl (testUnlockBody_ends rfl hlock hb hop hb1)
  · intro v slot kind ha hunlocked
    refine ⟨fun hoff hb hset => ?_, fun hon hgood hecc => ?_⟩
    · exact exec_begun rfl ha perturbCmd rfl id rfl rfl (perturbBody_ends rfl hunlocked hoff hb hset)
    · intro p same n hslot
      exact exec_begun rfl ha perturbCmd rfl id rfl rfl
        (perturbBody_sets (c := s.cmdOf 0x0D10 h ws) rfl hunlocked hon hgood hecc hslot)

end Sys2Proof.Machine
end

section
/-! Firmware updates (R629-R646): staging, activation, the restart of Keeper, and the first start and confirmation of a new image. -/

namespace Sys2Proof.Machine

/-- A command's change leaves the firmware as it is. -/
theorem State.begun_fw (s : State) (op : Nat) (h : CmdHdr) (ws : List Word) : (s.begun op h ws).fw = s.fw :=
  (s.hostOnly_begun op h ws).fw

/-! ### Staging -/

/-- Whether a package that names a base names the running image (R633, R635). -/
def State.baseRuns (s : State) (header : List Byte) : Prop :=
  s.rdb Reg.DEV.BOOT.IMAGE = true ∧
    ∃ g, s.slotImg (s.rd Reg.DEV.BOOT.SLOT) = some g ∧ digestIs (slice header 16 48) (Config.sha384 g.bytes) = true

/-- The staging that a package header begins (R633). -/
def stageOf (header : List Byte) : FwStage :=
  { full := byteField header 6 2 == 1, targetLen := byteField header 8 4, bodyLen := byteField header 12 4,
    digest := BitVec.ofNat 384 (beNat (slice header 64 48)), body := [], built := [] }

/-- The image of the slot that runs, on which a DELTA builds (R634). -/
def State.deltaBase (s : State) : List Byte := ((s.slotImg (s.rd Reg.DEV.BOOT.SLOT)).map SlotImg.bytes).getD []

/-- The end of a staging, once nothing refuses it (R635): its length, its digest, its signature and its floor, in that order. -/
def State.fwStageEnds (s : State) (c : Cmd) (g : FwStage) : State :=
  if g.body.length < g.bodyLen ∨ g.built.length < g.targetLen then s.fwFails c stTruncated 0
  else if Config.sha384 g.built ≠ g.digest then s.fwFails c stAuth 2
  else if imageSigned g.built = false then s.fwFails c stAuth 3
  else if imageSecver g.built < s.fw.floor then s.fwFails c stAuth 4
  else
    let t := s.setSlot s.fwTarget (some { bytes := g.built, staged := true })
    (({ t with fw := { t.fw with stage := none } }).fwSync.post 0x0C01 sevInfo srcDevice
      (s.fwTarget + imageVersion g.built * 2 ^ 32)).ok c []

section
variable {c : Cmd} (hf : c.fail = none) {s : State} (hlock : s.lockPolicy 2 = false) (hsupply : s.supplyGood = true)
include hf hlock hsupply

theorem fwStageBeginBody_ok (hpackage : badPackage (wordBytes c.payload) = false)
    (hbase : (byteField (wordBytes c.payload) 6 2 == 1) = false → s.baseRuns (wordBytes c.payload))
    (hhalted : s.stepping = false) (hnone : s.fw.stage = none) :
    fwStageBeginBody c s =
      (let t := s.setSlot s.fwTarget none
       ({ t with fw := { t.fw with
          stores := t.fw.stores.set s.fwTarget .empty
          stage := some (stageOf (wordBytes c.payload)) } }).fwSync.ok c []) := by
  have himage : (!s.rdb Reg.DEV.BOOT.IMAGE && !(byteField (wordBytes c.payload) 6 2 == 1)) = false := by
    rw [Bool.and_comm]
    exact Bool.and_eq_false_imp.mpr fun hdelta => by rw [(hbase (Bool.not_eq_true' _ ▸ hdelta)).1, Bool.not_true]
  have hnamed : (!(byteField (wordBytes c.payload) 6 2 == 1) && !(s.slotImg (s.rd Reg.DEV.BOOT.SLOT)).any fun g =>
      digestIs (slice (wordBytes c.payload) 16 48) (Config.sha384 g.bytes)) = false :=
    Bool.and_eq_false_imp.mpr fun hdelta => by
      obtain ⟨-, g, hg, hdigest⟩ := hbase (Bool.not_eq_true' _ ▸ hdelta)
      rw [hg, Option.any_some, hdigest, Bool.not_true]
  unfold fwStageBeginBody
  refine (State.checked_pass s c _ _ hf ?_).trans rfl
  simp only [State.lockedFw, State.supplyBad, hlock, hpackage, himage, hnamed, hhalted, hsupply, hnone, Bool.or_self, Bool.not_true,
    Option.isSome_none, List.forall_mem_cons, List.not_mem_nil, IsEmpty.forall_iff, implies_true, and_true]

section
variable {g : FwStage} (hstage : s.fw.stage = some g)
include hstage

theorem fwStageDataBody_ok (hb : onlyBits c.payload 0 [(31, 0)] = true) (hplace : c.f 0 31 0 = g.body.length)
    (hroom : g.body.length + 8 * (c.payload.length - 1) ≤ g.bodyLen) :
    fwStageDataBody c s =
      (let body := g.body ++ wordBytes (c.payload.drop 1)
       let built := g.build s.deltaBase body
       if built.2 = true then s.fwFails c stBadParam 0
       else ({ s with fw := { s.fw with stage := some { g with body := body, built := built.1 } } }).ok c []) := by
  have hword : badBits (c.w 0) [(31, 0)] = false := (onlyBits_iff _ _ _).mp hb
  unfold fwStageDataBody
  refine (State.checked_pass s c _ _ hf ?_).trans ?_
  · simp [State.lockedFw, State.supplyBad, hlock, hsupply, hstage, hword, hplace, hroom]
  · simp only [hstage]
    rfl

theorem fwStageEndBody_ok : fwStageEndBody c s = s.fwStageEnds c g := by
  unfold fwStageEndBody
  refine (State.checked_pass s c _ _ hf ?_).trans ?_
  · simp [State.lockedFw, State.supplyBad, hlock, hsupply, hstage]
  · simp only [hstage, Bool.not_eq_true']
    rfl

end

end

/-! ### Activation -/

/-- The time that a FW_ACTIVATE_AT names (R638). -/
abbrev Cmd.activation (c : Cmd) : Nat := timeUnits (c.w 0) (c.w 1)

/-- A time and a cue at which the running image can activate (R464, R638). -/
structure ActivationTime (c : Cmd) (s : State) : Prop where
  time : timeBad (c.w 0) = false
  least : s.time.out + 10000000 * 2 ^ 32 ≤ c.activation * 65536
  most : c.activation * 65536 ≤ s.time.out + 1000 * unitsPerSec
  cue : s.cueFree (c.f 2 3 0) fnFwact = true

section
variable {c : Cmd} (hf : c.fail = none) {s : State} (hlock : s.lockPolicy 2 = false) (hsupply : s.supplyGood = true)
include hf hlock hsupply

theorem fwActivateAtBody_ok (hb0 : onlyBits c.payload 0 [(47, 0)] = true) (hb1 : onlyBits c.payload 1 [(47, 0)] = true)
    (hb2 : onlyBits c.payload 2 [(3, 0)] = true) (hhalted : s.stepping = false) (hstaged : s.slotStaged s.fwTarget = true)
    (hpending : s.fw.pending = none) (hrestart : s.fw.restart = none)
    (htime : s.rdb Reg.DEV.BOOT.IMAGE = true → ActivationTime c s) :
    fwActivateAtBody c s =
      if s.rdb Reg.DEV.BOOT.IMAGE = false then ({ s with fw := { s.fw with restart := some (s.now + 10 * fsMs) } }).ok c []
      else ((({ s with fw := { s.fw with pending := some (c.f 2 3 0) } }).claimCue (c.f 2 3 0) fnFwact).armCue (c.f 2 3 0)
        c.activation 0).ok c [] := by
  have hreserved : c.reserved [[(47, 0)], [(47, 0)], [(3, 0)]] = false := Cmd.reserved_three rfl hb0 hb1 hb2
  have hbad : (!(!s.rdb Reg.DEV.BOOT.IMAGE) && (timeBad (c.w 0) ||
      (decide (c.activation * 65536 < s.time.out + 10000000 * 2 ^ 32) ||
        decide (s.time.out + 1000 * unitsPerSec < c.activation * 65536)))) = false :=
    Bool.and_eq_false_imp.mpr fun himage => by
      have h := htime (by simpa using himage)
      rw [h.time, decide_eq_false (Nat.not_lt.mpr h.least), decide_eq_false (Nat.not_lt.mpr h.most), Bool.or_self, Bool.or_self]
  have hcue : (!(!s.rdb Reg.DEV.BOOT.IMAGE) && !s.cueFree (c.f 2 3 0) fnFwact) = false :=
    Bool.and_eq_false_imp.mpr fun himage => by rw [(htime (by simpa using himage)).cue, Bool.not_true]
  unfold fwActivateAtBody
  refine (State.checked_pass s c _ _ hf ?_).trans ?_
  · simp only [State.lockedFw, State.supplyBad, hlock, hreserved, hbad, hcue, hhalted, hsupply, hstaged, hpending, hrestart,
      Option.isSome_none, Bool.not_true, Bool.or_self, List.forall_mem_cons, List.not_mem_nil, IsEmpty.forall_iff, implies_true,
      and_true]
  · simp only [Bool.not_eq_true']

end

section
variable {c : Cmd} (hf : c.fail = none) (s : State) (hb : onlyBits c.payload 0 [(0, 0)] = true)
include hf hb

theorem fwCancelBody_activation (hcue : c.b 0 0 = true) (hactive : s.fw.pending.isSome = true ∨ s.fw.restart.isSome = true) :
    fwCancelBody c s = ({ s.fwRelease with fw := { s.fwRelease.fw with restart := none } }).ok c [] := by
  have hsome : (s.fw.pending.isSome || s.fw.restart.isSome) = true := by simpa using hactive
  unfold fwCancelBody
  refine (State.checked_pass s c _ _ hf ?_).trans (if_pos hcue)
  simp [Cmd.reserved_one rfl hb, hcue, hsome]

theorem fwCancelBody_staging (hcue : c.b 0 0 = false) (hstage : s.fw.stage.isSome = true) :
    fwCancelBody c s = ({ s with fw := { s.fw with stage := none } }).fwSync.ok c [] := by
  have hsome : s.fw.stage.isNone = false := by simpa using hstage
  unfold fwCancelBody
  refine (State.checked_pass s c _ _ hf ?_).trans (if_neg (by simp [hcue]))
  simp [Cmd.reserved_one rfl hb, hcue, hsome]

end

/-! ### The restart of Keeper -/

/-- The device as Keeper stops for a restart: nothing is in progress, and the cue is free (R639). -/
def State.keeperStops (s : State) : State := s.abortCommands.fwRelease

/-- The state after a restart of Keeper (R639): TRIAL is written, ROM runs. -/
def State.restarts (s : State) (t : Nat) (g : SlotImg) : State :=
  let image := s.rdb Reg.DEV.BOOT.IMAGE
  let k := s.fwTarget
  let x := s.keeperStops
  let x := x.writeBoot k (if image then x.rd Reg.DEV.BOOT.SLOT else k) 1
  let x := x.setSlot k (some { g with staged := false })
  let f := { x.fw with restart := none, romAt := some x.now, trialFrom := some t }
  ({ x with
    hif := { x.hif with holding := image }
    fw := { f with routersBefore := x.rd Reg.NOC.STAT.INSERVICE } }).fwSync

/-- A restart that finds its slot invalid is dropped. -/
def State.dropsRestart (s : State) : State :=
  { s.keeperStops with fw := { s.keeperStops.fw with restart := none } }

theorem State.elapse_fwTarget (s : State) (dt : Nat) : (s.elapse dt).fwTarget = s.fwTarget := rfl

section
variable {s : State} {dt t : Nat}

section
variable (hr : s.inReset = false) (hrestart : s.fw.restart = some t) (hdue : t ≤ s.now + dt)
  (hquiet : s.hif.running = [] ∨ t + 100 * fsMs ≤ s.now + dt)
include hdue hquiet

/-- The restart happens when nothing is in progress, or 100 ms after the match (R639). -/
theorem State.restart_mayHappen :
    (decide (t ≤ (s.elapse dt).now) && ((s.elapse dt).hif.running.isEmpty || decide (t + 100 * fsMs ≤ (s.elapse dt).now))) =
      true := by
  rcases hquiet with hnone | hlate
  · simp [hdue, hnone]
  · simp [hdue, hlate]

include hr hrestart

theorem exec_fwRestart_staged {g : SlotImg} (himg : (s.elapse dt).keeperStops.slotImg s.fwTarget = some g) :
    exec (.fwRestart dt) s = .next (s.after dt fun u => u.restarts t g) := by
  refine (show _ = execFwRestart dt s from rfl).trans (State.event_eq hr dt _ _ ?_)
  rw [← s.elapse_fwTarget dt, State.keeperStops] at himg
  simp only [State.elapse_fw, hrestart]
  refine (State.whenever_true _ _ _ (State.restart_mayHappen hdue hquiet)).trans ?_
  simp only [himg]
  rfl

theorem exec_fwRestart_invalid (himg : (s.elapse dt).keeperStops.slotImg s.fwTarget = none) :
    exec (.fwRestart dt) s = .next (s.after dt State.dropsRestart) := by
  refine (show _ = execFwRestart dt s from rfl).trans (State.event_eq hr dt _ _ ?_)
  rw [← s.elapse_fwTarget dt, State.keeperStops] at himg
  simp only [State.elapse_fw, hrestart]
  refine (State.whenever_true _ _ _ (State.restart_mayHappen hdue hquiet)).trans ?_
  simp only [himg]
  rfl

end

/-! ### The confirmation -/

/-- The running image confirms itself (R641): TRIAL ends, and the floor rises to its SECVER. -/
def State.confirms (s : State) : State :=
  let k := s.rd Reg.DEV.BOOT.SLOT
  let img := ((s.slotImg k).map SlotImg.bytes).getD []
  let x := s.writeBoot k ((s.fw.boots.map fun r => r.2.prev).getD k) 0
  let f := { x.fw with floor := max x.fw.floor (min 32 (imageSecver img)), trialFrom := none }
  ({ x with fw := f }).post 0x0C04 sevInfo srcDevice (k + imageVersion img * 2 ^ 32)

theorem State.elapse_flashOk (s : State) (dt : Nat) : (s.elapse dt).flashOk = s.flashOk := rfl

theorem State.elapse_selfChecks (s : State) (dt : Nat) : (s.elapse dt).selfChecks = s.selfChecks := rfl

theorem exec_fwSelfCheckPass_inTime (hr : s.inReset = false) (htrial : s.fw.trialFrom = some t)
    (hnow : s.now + dt < t + 30000 * fsMs) (hchecks : s.selfChecks = true) (hrom : s.fw.romAt = none)
    (himage : s.rdb Reg.DEV.BOOT.IMAGE = true) (hflash : s.flashOk = true) :
    exec (.fwSelfCheckPass dt) s = .next (s.after dt State.confirms) := by
  have hinTime : ((s.elapse dt).fw.trialFrom.any fun t => decide ((s.elapse dt).now < t + 30000 * fsMs)) = true := by
    rw [State.elapse_fw, htrial, Option.any_some, State.elapse_now, decide_eq_true hnow]
  have hmay : (((s.elapse dt).fw.trialFrom.any fun t => decide ((s.elapse dt).now < t + 30000 * fsMs)) &&
      (s.elapse dt).selfChecks && (s.elapse dt).fw.romAt.isNone && (s.elapse dt).rdb Reg.DEV.BOOT.IMAGE &&
      (s.elapse dt).flashOk) = true := by
    rw [hinTime, State.elapse_selfChecks, hchecks, State.elapse_fw, hrom, State.elapse_rdb, himage, State.elapse_flashOk, hflash]
    rfl
  exact (show _ = execFwSelfCheckPass dt s from rfl).trans
    (State.event_eq hr dt _ _ ((State.whenever_true _ _ _ hmay).trans rfl))

end

/-! ### The first start -/

/-- What the first start finds in the store of the slot before (R640): one that is not sound reads as an open value, and one that it
does not take over is reported. -/
def State.storeFound (s : State) (sound reset : Bool) (setver : Nat) : State :=
  let found := if sound then (setver, s) else (s.drawWord.1.toNat % 2 ^ 16, s.drawWord.2)
  if reset then found.2.post 0x0C06 sevWarn srcDevice found.1 else found.2

/-- The entry that an update adds to the history: two open words (R640). -/
def State.historyEntry (s : State) : Word × Word := (s.drawWord.1, s.drawWord.2.drawWord.1)

/-- Two open words are drawn for the history, and the first start is over (R640). -/
def State.firstStartEnds (s : State) : State :=
  let b := s.drawWord.2.drawWord.2
  { b with fw := { b.fw with firstStart := false } }

/-- The store that the first start writes over `base` (R640). -/
def Store.started (base : Store) (setver : Nat) (entry : Word × Word) : Store :=
  { base with
    setver := setver
    history := (base.history ++ [entry]).drop (base.history.length - 15)
    starts := base.starts + 1 }

section
variable {s : State} (f : Store → Store)

theorem State.updStore_bad (hflash : s.flashOk = false) : s.updStore f = s := by
  simp [State.updStore, hflash]

theorem State.updStore_good (hflash : s.flashOk = true) :
    s.updStore f = { s with fw := { s.fw with
      stores := s.fw.stores.set (s.rd Reg.DEV.BOOT.SLOT) (f (s.fw.stores.getD (s.rd Reg.DEV.BOOT.SLOT) .empty)) } } := by
  simp [State.updStore, hflash]

theorem State.updStore_firstStart : (s.updStore f).fw.firstStart = s.fw.firstStart := by
  cases hflash : s.flashOk
  · rw [State.updStore_bad f hflash]
  · rw [State.updStore_good f hflash]

end

section
variable (s : State) (sound reset : Bool) (setver : Nat)

/-- What is found changes the host interface and the supply of open values only. -/
theorem State.storeFound_hostOnly : ∃ free, HostOnly { s with free := free } (s.storeFound sound reset setver) := by
  unfold State.storeFound
  cases sound <;> cases reset
  · exact ⟨s.free + 1, HostOnly.refl _⟩
  · exact ⟨s.free + 1, State.hostOnly_post _ _ _ _ _⟩
  · exact ⟨s.free, HostOnly.refl _⟩
  · exact ⟨s.free, State.hostOnly_post _ _ _ _ _⟩

theorem State.firstStart_fw : (s.storeFound sound reset setver).firstStartEnds.fw = { s.fw with firstStart := false } := by
  obtain ⟨free, hfound⟩ := s.storeFound_hostOnly sound reset setver
  have hfw : (s.storeFound sound reset setver).fw = s.fw := hfound.fw
  exact congrArg (fun f : Fw => { f with firstStart := false }) hfw

theorem State.firstStart_rd {f : Field} (hf : f.addr < 0x10000 ∨ 0x20000 ≤ f.addr) :
    (s.storeFound sound reset setver).firstStartEnds.rd f = s.rd f := by
  obtain ⟨free, hfound⟩ := s.storeFound_hostOnly sound reset setver
  exact hfound.rd hf

theorem State.firstStart_flashOk : (s.storeFound sound reset setver).firstStartEnds.flashOk = s.flashOk := by
  obtain ⟨free, hfound⟩ := s.storeFound_hostOnly sound reset setver
  exact hfound.rdb (by decide)

end

/-- SETVER of the image that runs (R632). -/
def State.ownSetver (s : State) : Nat := imageSetver s.deltaBase

/-- The slot of the image before the running one (R630). -/
def State.slotBefore (s : State) : Nat := (s.fw.boots.map fun r => r.2.prev).getD (s.rd Reg.DEV.BOOT.SLOT)

/-- The store that the running image replaces (R640). -/
def State.storeBefore (s : State) : Store := s.fw.stores.getD s.slotBefore .empty

/-- The store that the first start takes over: the one before, where it is sound and no newer than the image, else an empty one
(R640). -/
def State.storeTaken (s : State) (crcOk : Bool) : Store :=
  if crcOk = true ∧ s.slotBefore ≠ s.rd Reg.DEV.BOOT.SLOT ∧ s.storeBefore.setver ≤ s.ownSetver then s.storeBefore
  else .empty

/-- Whether the store before is sound (R640). -/
def State.beforeSound (s : State) (crcOk : Bool) : Bool := crcOk && s.slotBefore != s.rd Reg.DEV.BOOT.SLOT

/-- Whether the first start begins an empty store (R640). -/
def State.storeReset (s : State) (crcOk : Bool) : Bool := !s.beforeSound crcOk || decide (s.ownSetver < s.storeBefore.setver)

theorem State.storeTaken_eq (s : State) (crcOk : Bool) :
    s.storeTaken crcOk = if s.storeReset crcOk then .empty else s.storeBefore := by
  unfold State.storeTaken State.storeReset State.beforeSound
  by_cases hkept : crcOk = true ∧ s.slotBefore ≠ s.rd Reg.DEV.BOOT.SLOT ∧ s.storeBefore.setver ≤ s.ownSetver
  · obtain ⟨hcrc, hother, hold⟩ := hkept
    rw [if_pos ⟨hcrc, hother, hold⟩, if_neg (by simp [hcrc, hother, hold])]
  · rw [if_neg hkept, if_pos]
    simp only [not_and] at hkept
    cases hcrc : crcOk
    · rfl
    · by_cases hother : s.slotBefore = s.rd Reg.DEV.BOOT.SLOT
      · simp [hother]
      · simpa [hother] using hkept hcrc hother

/-- The history keeps its last 16 entries (R640). -/
theorem Store.started_eq (base : Store) (setver : Nat) (entry : Word × Word) :
    base.started setver entry = { base with
      setver := setver
      history := (base.history ++ [entry]).drop ((base.history ++ [entry]).length - 16)
      starts := base.starts + 1 } := by
  rw [Store.started, List.length_append, List.length_singleton, Nat.add_sub_add_right]

/-- The device as its first start has found the store before (R640). -/
def State.firstFound (s : State) (crcOk : Bool) : State :=
  s.storeFound (s.beforeSound crcOk) (s.storeReset crcOk) s.storeBefore.setver

/-- The first start takes over or begins a store (R640). -/
theorem exec_fwFirstStart_begins {s : State} (hr : s.inReset = false) (dt : Nat) (crcOk : Bool) (hfirst : s.fw.firstStart = true)
    (hrom : s.fw.romAt = none) (himage : s.rdb Reg.DEV.BOOT.IMAGE = true) :
    exec (.fwFirstStart dt crcOk) s = .next (s.after dt fun u =>
      (u.firstFound crcOk).firstStartEnds.updStore fun _ =>
        (u.storeTaken crcOk).started u.ownSetver (u.firstFound crcOk).historyEntry) := by
  have hmay : (s.fw.firstStart && s.fw.romAt.isNone && s.rdb Reg.DEV.BOOT.IMAGE) = true := by simp [hfirst, hrom, himage]
  refine (show _ = execFwFirstStart dt crcOk s from rfl).trans (State.event_eq hr dt _ _ ?_)
  refine (State.whenever_true _ _ _ hmay).trans ?_
  simp only [State.storeTaken_eq, Store.started_eq]
  rfl

/-- Settles O59: each command by what nothing refuses, each event by the conditions under which it happens. -/
theorem firmwareUpdates : Obligations.FirmwareUpdates := by
  refine ⟨fun s dt h ws => ?_, fun s dt h ws g => ?_, fun s dt h ws g => ?_, fun s dt h ws => ?_, fun s dt h ws ha hb => ?_,
    fun s dt t g hr hrestart hdue hquiet himg => exec_fwRestart_staged hr hrestart hdue hquiet himg,
    fun s dt t hr hrestart hdue hquiet himg => exec_fwRestart_invalid hr hrestart hdue hquiet himg,
    fun s dt crcOk hr hfirst hrom himage => ?_,
    fun s dt t hr htrial hnow hchecks hrom himage hflash =>
      exec_fwSelfCheckPass_inTime hr htrial hnow hchecks hrom himage hflash⟩
  · intro v p full ha hlock hpackage hbase hhalted hsupply hnone
    exact exec_begun rfl ha fwStageBeginCmd rfl exactly_of_length rfl rfl
      (fwStageBeginBody_ok (c := s.cmdOf 0x0C02 h ws) rfl hlock hsupply hpackage hbase hhalted hnone)
  · intro v base body ha hlock hsupply hstage hb hplace hroom
    have hbody := fwStageDataBody_ok (c := s.cmdOf 0x0C03 h ws) rfl hlock hsupply hstage hb hplace hroom
    have hlen : decide (2 ≤ ws.length ∧ ws.length ≤ 8192) = true → fwStageDataCmd.len ws = true := by
      simp [fwStageDataCmd]
    refine ⟨fun hfails => ?_, fun hgoes => ?_⟩
    · exact exec_begun rfl ha fwStageDataCmd rfl hlen rfl rfl (hbody.trans (if_pos hfails))
    · exact exec_begun rfl ha fwStageDataCmd rfl hlen rfl rfl (hbody.trans (if_neg (ne_true_of_eq_false hgoes)))
  · intro v ha hlock hsupply hstage ends fails whole
    have hbody := fwStageEndBody_ok (c := s.cmdOf 0x0C04 h ws) rfl hlock hsupply hstage
    have hends : ∀ {u}, (v.fwStageEnds (s.cmdOf 0x0C04 h ws) g) = u (s.cmdOf 0x0C04 h ws) v →
        ends = .next (s.afterCmd dt 0x0C04 h ws u) :=
      fun hu => exec_begun rfl ha fwStageEndCmd rfl exactly_of_length rfl rfl (hbody.trans hu)
    have hshort : whole → ¬ (g.body.length < g.bodyLen ∨ g.built.length < g.targetLen) := by omega
    unfold State.fwStageEnds at hends
    refine ⟨fun hpart => hends (if_pos (by omega)), fun hwhole hdigest => ?_, fun hwhole hdigest => ⟨fun hunsigned => ?_,
      fun hsigned hlow => ?_, fun hsigned hfloor => ?_⟩⟩
    · exact hends ((if_neg (hshort hwhole)).trans (if_pos hdigest))
    · exact hends ((if_neg (hshort hwhole)).trans ((if_neg (not_not.mpr hdigest)).trans (if_pos hunsigned)))
    · exact hends ((if_neg (hshort hwhole)).trans ((if_neg (not_not.mpr hdigest)).trans
        ((if_neg (ne_false_of_eq_true hsigned)).trans (if_pos hlow))))
    · exact hends ((if_neg (hshort hwhole)).trans ((if_neg (not_not.mpr hdigest)).trans
        ((if_neg (ne_false_of_eq_true hsigned)).trans (if_neg (Nat.not_lt.mpr hfloor)))))
  · intro v at_ cue ha hb0 hb1 hb2 hlock hhalted hsupply hstaged hpending hrestart
    have hbody := fwActivateAtBody_ok (c := s.cmdOf 0x0C05 h ws) rfl hlock hsupply hb0 hb1 hb2 hhalted hstaged hpending hrestart
    refine ⟨fun himage htime hleast hmost hcue => ?_, fun hrom => ?_⟩
    · exact exec_begun rfl ha fwActivateAtCmd rfl exactly_of_length rfl rfl
        ((hbody fun _ => ⟨htime, hleast, hmost, hcue⟩).trans (if_neg (ne_false_of_eq_true himage)))
    · exact exec_begun rfl ha fwActivateAtCmd rfl exactly_of_length rfl rfl
        ((hbody fun himage => absurd himage (ne_true_of_eq_false hrom)).trans (if_pos hrom))
  · refine ⟨fun hcue hactive => ?_, fun hcue hstage => ?_⟩
    · exact exec_begun rfl ha fwCancelCmd rfl exactly_of_length rfl rfl
        (fwCancelBody_activation rfl _ hb hcue (by rw [State.begun_fw]; exact hactive))
    · exact exec_begun rfl ha fwCancelCmd rfl exactly_of_length rfl rfl
        (fwCancelBody_staging rfl _ hb hcue (by rw [State.begun_fw]; exact hstage))
  · intro k own prev old base
    have hexec := exec_fwFirstStart_begins hr dt crcOk hfirst hrom himage
    have hfw : ((s.elapse dt).firstFound crcOk).firstStartEnds.fw = { s.fw with firstStart := false } := State.firstStart_fw _ _ _ _
    have hflash : ((s.elapse dt).firstFound crcOk).firstStartEnds.flashOk = s.flashOk := State.firstStart_flashOk _ _ _ _
    have hslot : ((s.elapse dt).firstFound crcOk).firstStartEnds.rd Reg.DEV.BOOT.SLOT = k :=
      State.firstStart_rd _ _ _ _ (by decide)
    refine ⟨_, ((s.elapse dt).firstFound crcOk).historyEntry, hexec, ?_, fun hbad => ?_, fun hgood => ?_⟩
    · rw [State.after_fw, State.updStore_firstStart, hfw]
    · rw [State.after_fw, State.updStore_bad _ (hflash.trans hbad), hfw]
    · rw [State.after_fw, State.updStore_good _ (hflash.trans hgood), hfw, hslot]
      rfl

end Sys2Proof.Machine
end
